-- ==== Sys2Proof/Word.lean ====
section
/-! DEFINITION. The words of the part: bytes of its serial lines and the two-byte cells of the corridor frame. -/

namespace Sys2Proof

/-- A byte of a line, of the management link or of a frame. -/
abbrev Byte := BitVec 8

/-- A cell of the corridor frame, 2 bytes, the first byte in bits 15..8 (F00 conventions). -/
abbrev CellVal := BitVec 16

end Sys2Proof
end

