-- ==== Sys2Proof/Syntax.lean ====
section
/-! DEFINITION. The commands of the part: one constructor of `Instr` per row of spec/opcode_table.json, in its order.
Outside events carry what arrives at the pins; due events name the line, side, port, transfer or station they concern;
a request's operands are the body of the request that stands oldest in the request buffer (R190). -/

namespace Sys2Proof

/-- The two fibre line ports: line U faces head-end A, line D faces head-end B. -/
inductive Line | u | d
  deriving DecidableEq, Repr

/-- The node's path to head-end A (through line U) or to head-end B (through line D). -/
inductive Side | a | b
  deriving DecidableEq, Repr

/-- The two inputs of an optical module that decide loss of signal (R8). -/
inductive SignalPin | signalDetect | modulePresent
  deriving DecidableEq, Repr

/-- The two path signals of R38, each naming a side. -/
inductive PathSignal | lost (side : Side) | restored (side : Side)
  deriving DecidableEq, Repr

/-- A corridor frame as it arrives on a line: 48 bytes of overhead (slots 0 and 1) and 936 cells. -/
structure LineFrame where
  overhead : Vector Byte 48
  cells : Vector CellVal 936
  deriving DecidableEq, Repr

/-- A frame on the input of a packet port: the bytes received while frame-enable was asserted, and whether the port has operated
ever since the frame began (R136, log 53). -/
structure TributaryInput where
  bytes : List Byte
  whole : Bool := true
  deriving DecidableEq, Repr

/-- The commands, one per row of the table. -/
inductive Instr
  /-- POWER_ON (R206): Power is applied and every block takes its power-on values, with the link rate at 115,200 bit/s and the part in CONFIG. -/
  | powerOn
  /-- RESET_INPUT_LOW (R206): The reset input falls and the part is held at its power-on values, ignoring management link bytes. -/
  | resetInputLow
  /-- RESET_INPUT_RISE (R206): The reset input rises and the part starts as at power-on, with the link rate back at 115,200 bit/s. -/
  | resetInputRise
  /-- FRAME_START (R44): A 250 µs frame start advances the frame count, switches every cell from the live map and begins a frame on each transmitting line. -/
  | frameStart (voice : Vector CellVal 8)
  /-- MS_TICK (R186): Every fourth frame start gives a 1 ms tick that drives sampling, run time and millisecond timers. -/
  | msTick (loops : Vector Bool 8)
  /-- STAGING_APPLY (R55): At its effective frame a staging record idles the id's dropped halves, gives it its new halves and tells the serving block. -/
  | stagingApply
  /-- LINE_HOLD_END (R50): At the ninth frame start on a failed receive line the held payload gives way to idle fill. -/
  | lineHoldEnd (line : Line)
  /-- LINE_FRAME_RECEIVED (R10): A line frame arrives in full; its marker is checked and the previous frame's overhead is confirmed or discarded. -/
  | lineFrameReceived (line : Line) (position : Nat) (frame : LineFrame) (disagreements : Nat)
  /-- SIGNAL_LOST (R8): Signal-detect negates or module-present negates on a line and a TRAINING or UP port enters SEEKING at once. -/
  | signalLost (line : Line) (pin : SignalPin)
  /-- SIGNAL_RETURNED (R7): Signal returns on a SEEKING line and the marker search may count again. -/
  | signalReturned (line : Line) (pin : SignalPin)
  /-- ERROR_WINDOW_END (R13): The 4,000th received frame of an error-rate window in UP ends the window and judges SD and SF clearing. -/
  | errorWindowEnd (line : Line)
  /-- PRESET_CONFIRM_TIMEOUT (R17): No confirmation of the requested preset arrives within 32 received frames and the preset is scored width 0. -/
  | presetConfirmTimeout (line : Line)
  /-- SETTLE_FRAMES_END (R17): Eight settle frames have been received and the quick margin measurement for the preset begins. -/
  | settleFramesEnd (line : Line)
  /-- MARGIN_POSITION_DONE (R20): The dwell at one monitor sampler position ends, the position is judged and the measurement moves on or ends. -/
  | marginPositionDone (line : Line)
  /-- TRAINING_RETRY (R18): The 4,000-frame pause after a failed search ends and the search restarts at preset 0. -/
  | trainingRetry (line : Line)
  /-- PERIODIC_SCAN_DUE (R23): The periodic scan interval elapses and a full scan starts unless one is running. -/
  | periodicScanDue (line : Line)
  /-- HOLD_OFF_EXPIRED (R34): The hold-off timer expires and the side enters LOST with path lost signalled. -/
  | holdOffExpired (side : Side)
  /-- WTR_EXPIRED (R35): The WTR timer expires and the side enters REACHABLE with path restored signalled. -/
  | wtrExpired (side : Side)
  /-- TIMING_REVERT (R40): The preferred line's clean time reaches 40,000 frames and the timing source returns to it. -/
  | timingRevert
  /-- PATH_LOST_REROUTE (R100): The admission unit takes a path lost signal and moves or sheds each REROUTE service on that side, then runs a pass. -/
  | pathLostReroute (side : Side)
  /-- PATH_RESTORED_REVERT (R103): The admission unit takes a path restored signal, reverts REROUTE services to their primary side, and runs a pass. -/
  | pathRestoredRevert (side : Side)
  /-- CALL_RESELECT (R117): The call controller takes a path signal and reselects each call's receive side, reporting isolation changes. -/
  | callReselect (signal : PathSignal)
  /-- DUAL_RECEIVE_RESELECT (R146): The packet engine takes a path signal and reselects the receive side of each DUAL service. -/
  | dualReceiveReselect (signal : PathSignal)
  /-- LOOP_ACCEPTED_RISE (R112): The loop-detect level is accepted as high and the ended low period is measured. -/
  | loopAcceptedRise (port : Fin 8)
  /-- LOOP_ACCEPTED_FALL (R112): The loop-detect level is accepted as low and the ended high period is measured. -/
  | loopAcceptedFall (port : Fin 8)
  /-- OFF_HOOK_CONFIRMED (R114): The high level reaches the off-hook debounce and the hook state becomes OFF_HOOK, acting on the call. -/
  | offHookConfirmed (port : Fin 8)
  /-- ON_HOOK_CONFIRMED (R114): The low level reaches the on-hook debounce and the hook state becomes ON_HOOK, acting on the call and clearing the lock. -/
  | onHookConfirmed (port : Fin 8)
  /-- CADENCE_PERIOD_START (R130): A new cadence period begins its on-phase, activating the ring output or the WAIT tone. -/
  | cadencePeriodStart (port : Fin 8)
  /-- CADENCE_OFF_PHASE (R130): The on-time of a cadence period ends and the off-phase begins. -/
  | cadenceOffPhase (port : Fin 8)
  /-- HELD_LIMIT_EXPIRED (R124): The held limit expires and a HELD call enters CLEARING. -/
  | heldLimitExpired (port : Fin 8)
  /-- RING_TIMEOUT_EXPIRED (R125): The ring timeout expires and a RINGING call enters CLEARING with NO_ANSWER. -/
  | ringTimeoutExpired (port : Fin 8)
  /-- CLEAR_GUARD_EXPIRED (R126): The clear guard expires, the call service is released with a pass, and the call enters IDLE. -/
  | clearGuardExpired (port : Fin 8)
  /-- TRIBUTARY_FRAME_RECEIVED (R137): A tributary frame arrives in full on a packet port and is discarded or offered to its service's transmit queue. -/
  | tributaryFrameReceived (port : Fin 4) (frame : TributaryInput)
  /-- TRIBUTARY_FRAME_SENT (R151): A packet port finishes sending a frame from its receive queue, freeing room for waiting deliveries. -/
  | tributaryFrameSent (port : Fin 4)
  /-- OUTPUT_FRAME_BEGIN (R151): After one byte time with frame-enable negated the port begins sending the next queued frame. -/
  | outputFrameBegin (port : Fin 4)
  /-- READY_INPUT_CHANGE (R166): A packet port's ready input changes and delivering transfers enter DELIVERY_WAIT or return to DELIVERING. -/
  | readyInputChange (port : Fin 4) (level : Bool)
  /-- STATE_FRAME_TIMER (R165): A transfer's state frame timer reaches 4,000 and a periodic state frame is offered. -/
  | stateFrameTimer (transfer : Fin 4)
  /-- COUNTING_INTERVAL_END (R152): A 1 s counting interval ends and a PORT_EVENT is sent if error-type counts advanced. -/
  | countingIntervalEnd
  /-- POLL_CYCLE_START (R176): The cycle position reaches the cycle length and a new cycle begins with its length taken from interval and economy flag. -/
  | pollCycleStart
  /-- STATION_DUE (R176): An enabled station's offset equals the cycle position and it joins the poll queue or counts a miss. -/
  | stationDue (station : Fin 8)
  /-- POLL_TELEGRAM_SENT (R178): The poll telegram's last stop bit ends, the line is released and the reply window opens. -/
  | pollTelegramSent
  /-- POLL_REPLY_START (R178): A reply begins in the open window and the reply timeout no longer applies. -/
  | pollReplyStart
  /-- POLL_REPLY_TIMEOUT (R178): The reply timeout expires with no reply begun and the attempt fails with TIMEOUT. -/
  | pollReplyTimeout
  /-- POLL_REPLY_END (R178): A reply completes and the attempt is judged valid or failed. -/
  | pollReplyEnd (bytes : List Byte)
  /-- POLL_REPLY_GAP (R178): More than 20 ms pass between reply bytes and the incomplete reply is judged BAD_REPLY. -/
  | pollReplyGap (bytes : List Byte)
  /-- LATE_REPLY_RUN_END (R180): A run of poll line bytes outside any window ends at a 20 ms pause and is counted as a late reply. -/
  | lateReplyRunEnd
  /-- REQUEST_FRAME_RECEIVED (R189): A whole management frame is offered to the request buffer, taking a place, answered BUSY or rejected OVERRUN. -/
  | requestFrameReceived (byte : Byte)
  /-- FRAME_TOO_LONG (R188): A completed length field above 1,024 ends the frame as rejected TOO_LONG. -/
  | frameTooLong (byte : Byte)
  /-- FRAME_GAP (R188): More than 10 ms pass between bytes of a frame and it is rejected GAP. -/
  | frameGap
  /-- FRAME_BYTE_ERROR (R188): A byte with a low stop bit inside a frame ends it as rejected BYTE_ERROR. -/
  | frameByteError
  /-- REPLY_SENT (R189): The last stop bit of a reply or BUSY answer is sent, freeing its place or busy entry, and the next frame is chosen. -/
  | replySent
  /-- REPORT_SENT (R193): The last stop bit of a report is sent, it leaves the queue and the next frame is chosen. -/
  | reportSent
  /-- UNKNOWN_KIND_REQUEST (R190): A request whose kind is not a request kind is refused with UNKNOWN_KIND. -/
  | unknownKindRequest
  /-- IDENTIFY (R198): Replies with family code, part number, revision, operating state, link rate and node number. -/
  | identify
  /-- SET_LINK (R187): Sets a new management link rate, taking effect after its reply. -/
  | setLink
  /-- START (R195): Takes the part from CONFIG to RUNNING, starting run time, lines, ports, polling and a restoration pass. -/
  | start
  /-- RESET (R196): Returns the part to power-on values, except the link rate, once its reply has been sent. -/
  | reset
  /-- NODE_STATUS (R198): Replies with the controller's state, counts and a node summary. -/
  | nodeStatus
  /-- SET_NODE (R30): Sets node number, hop limit, hold-off, WTR, timing preference, default rounding mode and staging lead. -/
  | setNode
  /-- LINE_SET (R5): Configures a line port's enable, thresholds, scan dwell, allowance and periodic interval. -/
  | lineSet
  /-- MARGIN_SCAN (R22): Starts one full margin scan on an UP line. -/
  | marginScan
  /-- LINE_STATUS (R26): Replies with a line port's state, settings, confirmed overhead and margin result. -/
  | lineStatus
  /-- PATH_FORCE_SET (R36): Sets a side's forced-out flag, taking a usable or waiting side to LOST. -/
  | pathForceSet
  /-- PATH_FORCE_CLEAR (R36): Clears a side's forced-out flag, making it REACHABLE at once if reach is present. -/
  | pathForceClear
  /-- PATH_STATUS (R43): Replies with path states, timers, reach, forwarding and timing source. -/
  | pathStatus
  /-- SET_ALLOTMENT_ADD (R47): Adds cells to the allotment, making them ALLOTTED with idle halves, and runs a pass if any changed. -/
  | setAllotmentAdd
  /-- SET_ALLOTMENT_REMOVE (R46): Removes unused allotted cells, returning them to PASS. -/
  | setAllotmentRemove
  /-- MAP_STATUS (R62): Replies with frame count, staging list, notice state, line counts and a range of cells. -/
  | mapStatus
  /-- SET_LEVELS (R68): Replaces the class map, running a pass when a ceiling is raised. -/
  | setLevels
  /-- DEFINE_SERVICE (R77): Makes a service record, computes grants and places it, sheds it, or refuses with NO_CAPACITY. -/
  | defineService
  /-- RELEASE_SERVICE (R83): Removes a host service, freeing its halves and binding, then runs a restoration pass. -/
  | releaseService
  /-- SERVICE_STATUS_ONE (R86): Replies with every field of one service record. -/
  | serviceStatusOne
  /-- SERVICE_STATUS_SUMMARY (R86): Replies with the class map, level use, counters, economy flag and ids in use. -/
  | serviceStatusSummary
  /-- SHED_LIST (R90): Replies with the economy flag and the shed list in order. -/
  | shedList
  /-- ECONOMY_ENTER (R104): Sets the economy flag, sheds every level 2 and 3 service in victim order and runs a pass if any were shed. -/
  | economyEnter
  /-- ECONOMY_LEAVE (R106): Clears the economy flag and runs a restoration pass. -/
  | economyLeave
  /-- PHONE_SET_PORT (R109): Configures one phone port's settings and enable. -/
  | phoneSetPort
  /-- PHONE_SET_COMMON (R110): Sets the timers and cadences shared by all phone ports. -/
  | phoneSetCommon
  /-- CALL_CONTROL_ANSWER (R123): Answers an OPEN call, taking it to ANSWERED. -/
  | callControlAnswer
  /-- CALL_CONTROL_HOLD (R123): Sets a call's hold-requested flag. -/
  | callControlHold
  /-- CALL_CONTROL_UNHOLD (R123): Clears a call's hold-requested flag. -/
  | callControlUnhold
  /-- CALL_CONTROL_CLEAR (R122): Clears a queued call to IDLE or takes an active call to CLEARING, setting clear-lock if off-hook. -/
  | callControlClear
  /-- CALL_CONTROL_RING (R125): Rings an IDLE on-hook port by placing a call service and entering RINGING, or refuses NO_CAPACITY. -/
  | callControlRing
  /-- CALL_STATUS (R134): Replies with a phone port's settings, capture values, call record, tone and waiting position. -/
  | callStatus
  /-- RING_TEST_ON (R132): Drives an IDLE port's ring output active and sets its test drive. -/
  | ringTestOn
  /-- RING_TEST_OFF (R132): Makes an IDLE port's ring output inactive and clears its test drive. -/
  | ringTestOff
  /-- PACKET_PORT_SET (R136): Configures a packet port's enable, rate and ready use. -/
  | packetPortSet
  /-- PORT_STATUS_PORT (R153): Replies with a packet port's settings, ready, bindings, receive queue and counts. -/
  | portStatusPort
  /-- PORT_STATUS_SERVICE (R153): Replies with a service's binding, live cells, queue, packer and reassembler state and counts. -/
  | portStatusService
  /-- TRANSFER_OPEN (R157): Opens a transfer record for one page in RECEIVING or SUSPENDED. -/
  | transferOpen
  /-- TRANSFER_ABORT (R169): Aborts an open transfer with reason HOST, freeing its blocks. -/
  | transferAbort
  /-- TRANSFER_STATUS_ONE (R171): Replies with every field and count of one open transfer. -/
  | transferStatusOne
  /-- TRANSFER_STATUS_ALL (R171): Replies with free blocks, engine counts and a summary of each record. -/
  | transferStatusAll
  /-- POLL_SET (R173): Configures the poll controller's enable, rate, interval, timeout and weather service. -/
  | pollSet
  /-- STATION_SET (R175): Configures one weather station's enable, address and offset, returning it to UNPOLLED. -/
  | stationSet
  /-- STATION_READ (R184): Replies with a station's entry, reading, counts and the controller's state. -/
  | stationRead
  /-- LINK_BYTE_RECEIVED (R188): A byte arrives on the management link. While the receiver is hunting, a start marker begins a frame, a byte with a byte error is discarded, and any other byte is discarded and counted as a stray byte. While a frame is in progress, a byte that is not the last check byte is taken into the frame. -/
  | linkByteReceived (byte : Byte) (stopLow : Bool)
  deriving DecidableEq, Repr

end Sys2Proof
end

