-- ==== Sys2Proof/Config.lean ====
section
/-! DEFINITION. What is fixed for the part: identity codes, sizes of its stores and the coded constants of chapter 11.
The spec leaves no result of a step undefined, so no free value stands here. -/

namespace Sys2Proof.Config

/-- Family code of IDENTIFY (R201 table, kind 01h). -/
def familyCode : Byte := 0x45#8
/-- Part number of IDENTIFY. -/
def partNumber : Nat := 2416
/-- Silicon revision of IDENTIFY. -/
def siliconRevision : Byte := 0x01#8
/-- Idle fill, the voice silence code (R203). -/
def idleFill : CellVal := 0xD5D5#16
/-- The alignment marker (11.5). -/
def marker : List Byte := [0xF6#8, 0x28#8, 0x5A#8, 0xC3#8]
/-- The start marker of a management frame (11.1). -/
def startMarker : Byte := 0x7E#8
/-- Cell numbers of a frame: 0..935. -/
def cellCount : Nat := 936
/-- Bits of a frame, over which a monitor sampler position is compared (R20). -/
def frameBits : Nat := 15360
/-- The function READ of a poll telegram (R205). -/
def readFunction : Byte := 0x52#8
/-- Places of the report queue (R193). -/
def reportPlaces : Nat := 32
/-- Places of the busy list (R189). -/
def busyPlaces : Nat := 8
/-- Buffers of the pool (7.2). -/
def poolBuffers : Nat := 384
/-- Data bytes a receive queue holds at most (R150). -/
def receiveQueueBytes : Nat := 8192
/-- Blocks of the bulk store and bytes of a block (R155). -/
def blockCount : Nat := 64
def blockBytes : Nat := 2048
/-- Top of the 32-bit counts that saturate. -/
def top32 : Nat := 4294967295
/-- Top of the 16-bit counts that saturate. -/
def top16 : Nat := 65535

end Sys2Proof.Config
end

