-- ==== Sys2Proof/Machine/State.lean ====
section
/-! DEFINITION. The state of the part: every piece of state the spec gives its nine blocks, as plain data, and the state
after reset. Every field carries the value of power-on as its default (R27, R43, R63, R87, R108, R135, R154, R172, R185,
R199); the queue of waiting commands is the model's own. -/

namespace Sys2Proof.Machine

/-- Why the part would stop. The spec gives it no fault: wrong requests are refused with a status code and wrong frames
are discarded and counted. No constructor, so no meaning answers a fault. -/
inductive Fault
  deriving DecidableEq, Repr

/-- Why a command has no meaning. -/
inductive Refusal
  /-- Raised by `exec` alone, for a command that has no meaning yet; every command has one, so none raises it (safe). -/
  | notModelled (mnemonic : String)
  deriving DecidableEq, Repr

/-! ## Shared shapes -/

/-- Two like things, one for line U (and side A), one for line D (and side B). -/
structure Two (α : Type) where
  u : α
  d : α
  deriving DecidableEq, Repr

def Two.get {α : Type} (t : Two α) : Line → α
  | .u => t.u
  | .d => t.d

def Two.set {α : Type} (t : Two α) (l : Line) (x : α) : Two α :=
  match l with
  | .u => { t with u := x }
  | .d => { t with d := x }

/-- The 11.4 operating states. -/
inductive OpState | config | running
  deriving DecidableEq, Repr

/-- The rounding modes of the node default (R30) and of a grant (R70). -/
inductive Rounding | nearestEven | down | up
  deriving DecidableEq, Repr

/-! ## Inputs, clock, reports -/

/-- The inputs of the part whose levels it reads between commands (11.9). Reset does not change them. -/
structure Pins where
  resetLow : Bool := false
  signalDetect : Two Bool := ⟨true, true⟩
  modulePresent : Two Bool := ⟨true, true⟩
  ready : Vector Bool 4 := Vector.replicate 4 false
  loops : Vector Bool 8 := Vector.replicate 8 false
  deriving DecidableEq, Repr

/-- The frame count and the tick it drives (R44, R186). -/
structure Clock where
  frame : BitVec 16 := 0
  started : Bool := false
  phase : Nat := 0
  tickDue : Bool := false
  deriving DecidableEq, Repr

/-- The line states of 1.2. -/
inductive LineState | disabled | seeking | training | up
  deriving DecidableEq, Repr

/-- The causes of a LINE_EVENT (R4). -/
inductive LineCause
  | enabled | disabled | aligned | alignmentLost | signalLost | trained | trainingFailed | sdSet | sdClear | sfSet | sfClear
  deriving DecidableEq, Repr

inductive Origin | requested | periodic
  deriving DecidableEq, Repr

inductive Grade | failing | poor | fair | good
  deriving DecidableEq, Repr

/-- A margin result (R20, R24). -/
structure MarginResult where
  left : Nat
  right : Nat
  width : Nat
  grade : Grade
  edgeLeft : Option Nat
  edgeRight : Option Nat
  dwell : Nat
  allowance : Nat
  origin : Origin
  runTime : BitVec 32
  deriving DecidableEq, Repr

/-- The path states of 2.3. -/
inductive PathState | reachable | holdOff | lost | waitRestore
  deriving DecidableEq, Repr

/-- The causes of a PATH_EVENT, in the order of the table of R39. -/
inductive PathCause
  | initial | reachReturned | reachLost | holdOffCancelled | holdOffExpired | wtrExpired | reachFailedInWtr | otherSideLost
  | forced | forceCleared
  deriving DecidableEq, Repr

inductive TimingSource | lineU | lineD | local
  deriving DecidableEq, Repr

inductive TimingPref | uFirst | dFirst
  deriving DecidableEq, Repr

inductive TimingCause | sourceFailed | lineQualified | reverted
  deriving DecidableEq, Repr

/-- The classes of 4.2. -/
inductive Class | e | t | c | s | w
  deriving DecidableEq, Repr

inductive Protection | dual | reroute
  deriving DecidableEq, Repr

inductive SvcState | active | reduced | shed
  deriving DecidableEq, Repr

inductive ShedReason | preEmpted | pathLost | economy | noRoom
  deriving DecidableEq, Repr

/-- The causes of a SERVICE_EVENT: R85, then R107 in order. -/
inductive SvcCause
  | defined | released | preEmpted | pathLost | economy | rerouted | restored | grown | reverted | revertBlocked
  deriving DecidableEq, Repr

/-- The call states of 6.4. -/
inductive CallState | idle | queued | opened | answered | held | ringing | clearing
  deriving DecidableEq, Repr

/-- The outcomes of a CALL_EVENT, in the order of the table of R133. -/
inductive CallOutcome
  | placed | queued | abandoned | centreCleared | answered | held | resumed | callerCleared | heldLimit | ringing | noAnswer
  | ended | isolated | reconnected | flash
  deriving DecidableEq, Repr

inductive CallOrigin | caller | centre
  deriving DecidableEq, Repr

inductive Hook | onHook | offHook
  deriving DecidableEq, Repr

/-- The transfer states of a state frame and a report (11.4); an open record holds one of the first four. -/
inductive TransferState | receiving | suspended | delivering | deliveryWait | done | aborted
  deriving DecidableEq, Repr

inductive SuspendReason | shed | store
  deriving DecidableEq, Repr

inductive AbortReason | host | serviceGone
  deriving DecidableEq, Repr

/-- The causes of a TRANSFER_EVENT, in the order of the table of R170. -/
inductive TransferCause
  | opened | serviceShed | servicePlaced | storeFull | storeFreed | pageComplete | targetNotReady | targetReady | done | aborted
  deriving DecidableEq, Repr

inductive StationState | unpolled | answering | silent
  deriving DecidableEq, Repr

inductive StationCause | answered | silent | set
  deriving DecidableEq, Repr

/-- The causes of a FRAME_REJECT (R188). -/
inductive RejectCause | tooLong | gap | byteError | badCheck | rateChange | overrun
  deriving DecidableEq, Repr

/-- The increases of a port's four counts in a counting interval (R152). -/
structure PortDelta where
  port : Nat
  counts : List Nat
  deriving DecidableEq, Repr

/-- The increases of a service's eleven counts in a counting interval, its queued bytes and sync state (R152). -/
structure SvcDelta where
  id : Nat
  counts : List Nat
  queued : Nat
  inSync : Bool
  deriving DecidableEq, Repr

/-- What a report says: one constructor per report kind of 11.3, its fields in the owning rule's order. -/
inductive ReportBody
  | lineEvent (line : Line) (old new : LineState) (cause : LineCause) (sd sf : Bool)
  | marginDone (line : Line) (measured : Nat) (result : MarginResult)
  | marginAborted (line : Line) (origin : Origin) (dwell allowance measured : Nat)
  | pathEvent (side : Side) (old new : PathState) (cause : PathCause) (reach : Bool) (hop : Option Nat) (initial forced : Bool)
  | timingEvent (old new : TimingSource) (cause : TimingCause) (cleanU cleanD : Nat)
  | nodeConflict (line : Line) (node count : Nat)
  | serviceEvent (id : Nat) (cls : Class) (level : Nat) (prot : Protection) (old new : Option SvcState) (cause : SvcCause)
      (reason : Option ShedReason) (current : Option Side) (held : Nat) (header : Option Nat) (adm shedNo : Option Nat)
  | callEvent (port kilometre : Nat) (old new : CallState) (outcome : CallOutcome) (origin : Option CallOrigin)
      (service : Option Nat) (selected : Option Side) (isolated : Bool) (hook : Hook) (clearLock : Bool)
      (start : Option (BitVec 32))
  | portEvent (closing : BitVec 32) (free : Nat) (ports : List PortDelta) (services : List SvcDelta)
  | transferEvent (number service page : Nat) (old : Option TransferState) (new : TransferState) (cause : TransferCause)
      (suspended : Option SuspendReason) (aborted : Option AbortReason) (received declared : Nat)
      (position : Option (Nat × Nat)) (held free : Nat)
  | stationEvent (station address : Nat) (old new : StationState) (cause : StationCause) (failures : Nat)
      (capture : Option (BitVec 32))
  | frameReject (cause : RejectCause) (kind : Option Byte) (tag : Option (BitVec 16)) (received : Nat)
  deriving DecidableEq, Repr

/-- A report in the queue: its contents, the run time of its head and the reports-lost flag (R193, R200). -/
structure Report where
  body : ReportBody
  runTime : BitVec 32
  lost : Bool
  deriving DecidableEq, Repr

/-- The report queue, the lost mark and the lost-report count (R193). -/
structure Reports where
  queue : List Report := []
  lostMark : Bool := false
  lost : Nat := 0
  deriving DecidableEq, Repr

/-- The node-wide settings of SET_NODE (R30). A node number of 0 is unset. -/
structure Settings where
  nodeNumber : Nat := 0
  hopLimit : Nat := 250
  holdOff : Nat := 50
  wtr : Nat := 300
  pref : TimingPref := .uFirst
  rounding : Rounding := .nearestEven
  lead : Nat := 8
  deriving DecidableEq, Repr

/-! ## Line ports (chapter 1) -/

/-- A confirmed overhead copy, read with the codings of R202. -/
structure Overhead where
  node : Byte
  count : BitVec 16
  reach : Bool
  hop : Nat
  request : Option Nat
  applied : Nat
  rxTrained : Bool
  remoteDefect : Bool
  economy : Bool
  deriving DecidableEq, Repr

/-- The newest frame's overhead, awaiting the check in the frame after it (R10); `inUp`: the frame was received in UP. -/
structure PendingFrame where
  overhead : List Byte
  check : BitVec 16
  markerWrong : Bool
  inUp : Bool
  deriving DecidableEq, Repr

/-- The error-rate window in progress, the thresholds in force for it and what is kept of the last ones (R13). -/
structure Window where
  frames : Nat := 0
  errors : Nat := 0
  last : Nat := 0
  below : Nat := 0
  sdThr : Nat := 0
  sfThr : Nat := 0
  deriving DecidableEq, Repr

/-- One side of a margin measurement: clean positions measured, stopped, error count where it stopped (R20). -/
structure MeasSide where
  clean : Nat := 0
  stopped : Bool := false
  edge : Option Nat := none
  deriving DecidableEq, Repr

/-- A margin measurement in progress (R20). -/
structure Meas where
  dwell : Nat
  allowance : Nat
  position : Int := 0
  frames : Nat := 0
  errors : Nat := 0
  measured : Nat := 0
  neg : MeasSide := {}
  pos : MeasSide := {}
  deriving DecidableEq, Repr

/-- The steps of R17 for one preset. -/
inductive SearchPhase
  | request
  | confirm (received : Nat)
  | settle (received : Nat)
  | measure (m : Meas)
  deriving DecidableEq, Repr

/-- The training search of R17 and R18. -/
inductive Training
  | none
  | search (preset : Nat) (phase : SearchPhase) (widths : List Nat)
  | trained
  | pause (received : Nat)
  deriving DecidableEq, Repr

/-- A running full scan (R22). -/
structure Scan where
  origin : Origin
  meas : Meas
  deriving DecidableEq, Repr

/-- A frame begun on a line at the last frame start: 48 bytes of overhead and 936 cells. -/
structure TxFrame where
  overhead : List Byte
  cells : List CellVal
  deriving DecidableEq, Repr

/-- A line port (R27). `trialPast` is how far past the trial boundary the marker search has come, in bit positions (R7, log 9). -/
structure LinePort where
  state : LineState := .disabled
  enabled : Bool := false
  sdThr : Nat := 40
  sfThr : Nat := 400
  dwell : Nat := 400
  allowance : Nat := 0
  minutes : Nat := 0
  txPreset : Nat := 5
  trained : Option Nat := none
  request : Option Nat := none
  rxTrained : Bool := false
  confirmed : Option Overhead := none
  pendingFrame : Option PendingFrame := none
  goodMarkers : Nat := 0
  boundary : Nat := 0
  trialPast : Nat := 0
  wrongMarkers : Nat := 0
  sd : Bool := false
  sf : Bool := false
  win : Window := {}
  training : Training := .none
  scan : Option Scan := none
  result : Option MarginResult := none
  periodic : Option Nat := none
  txCheck : Option (BitVec 16) := none
  txFrame : Option TxFrame := none
  deriving DecidableEq, Repr

/-! ## Path monitor (chapter 2) -/

/-- One side of the path monitor (R31, R43). `timer` is the number of frame starts left while HOLD_OFF or WAIT_RESTORE. -/
structure PathSide where
  state : PathState := .lost
  initial : Bool := true
  forced : Bool := false
  timer : Nat := 0
  reach : Bool := false
  deriving DecidableEq, Repr

/-- The timing source and the clean times (R40). -/
structure Timing where
  source : TimingSource := .local
  clean : Two Nat := ⟨0, 0⟩
  deriving DecidableEq, Repr

/-- The path signals given and not yet taken, one list for each receiver (R38). -/
structure Signals where
  au : List PathSignal := []
  cc : List PathSignal := []
  pe : List PathSignal := []
  deriving DecidableEq, Repr

/-! ## Cell switch (chapter 3) -/

/-- An allotted cell with an owner, or none, of each half. In the allotment table the owners are table owners; in the live
map the cell is ALLOTTED and the owners are live owners, none being idle (R45, R48). -/
structure HalfEntry where
  cell : Nat
  a : Option Nat := none
  b : Option Nat := none
  deriving DecidableEq, Repr

/-- A set of halves: the cells whose half A, and those whose half B, are in it, ascending. -/
structure HalfSet where
  a : List Nat := []
  b : List Nat := []
  deriving DecidableEq, Repr

/-- A staging record (R53). -/
structure Staging where
  id : Nat
  cls : Class
  set : HalfSet
  eff : BitVec 16
  deriving DecidableEq, Repr

inductive SidesOwned | none | a | b | both
  deriving DecidableEq, Repr

/-- A notice (R57). -/
structure Notice where
  id : Nat
  cls : Class
  sides : SidesOwned
  eff : BitVec 16
  cells : List Nat
  deriving DecidableEq, Repr

/-- The notice being sent, with the origin and sequence number it took and the next fragment's index (R58). -/
structure NoticeSending where
  notice : Notice
  origin : Nat
  seq : BitVec 8
  next : Nat
  deriving DecidableEq, Repr

/-- What the cell switch keeps for each line. -/
structure SwitchLine where
  sending : Option NoticeSending := none
  waiting : List Notice := []
  seq : BitVec 8 := 0
  forward : Option (List Byte) := none
  newest : Option (List CellVal) := none
  arrived : Nat := 0
  presented : Option (List CellVal) := none
  hold : Nat := 0
  skipped : Nat := 0
  repeated : Nat := 0
  lost : Nat := 0
  deriving DecidableEq, Repr

/-- The cell switch (R63). `conflictAge` counts frame starts since the last conflicting field. -/
structure CellSwitch where
  live : List HalfEntry := []
  staging : List Staging := []
  line : Two SwitchLine := ⟨{}, {}⟩
  conflicts : Nat := 0
  conflictAge : Option Nat := none
  deriving DecidableEq, Repr

/-! ## Admission unit (chapters 4 and 5) -/

/-- The rounding mode a service asked for (R65). -/
inductive RequestedMode | mode (m : Rounding) | nodeDefault
  deriving DecidableEq, Repr

inductive Order | linear | spread
  deriving DecidableEq, Repr

/-- A service's binding with its parameters (R77, R82); TRANSFER holds its transfer place (R138). -/
inductive Binding
  | packet (port channel quota age : Nat)
  | poll (quota age : Nat)
  | transfer (place quota age : Nat)
  | phone (port : Nat)
  deriving DecidableEq, Repr

/-- A service record: the fields of R65 with the id of its entry. -/
structure Service where
  id : Nat
  cls : Class
  level : Nat
  prot : Protection
  primary : Side
  current : Option Side := none
  rate : Nat
  floorRate : Option Nat := none
  mode : RequestedMode
  modeUsed : Rounding
  quiet : Bool := false
  wait : Bool := false
  order : Order := .linear
  binding : Binding
  full : Nat
  floor : Option Nat := none
  state : SvcState
  reason : Option ShedReason := none
  adm : Option Nat := none
  shedNo : Option Nat := none
  cells : List Nat := []
  deriving DecidableEq, Repr

/-- The class map (R67). Flags of level 0 are fixed and not held. -/
structure ClassMap where
  t : Nat := 1
  c : Nat := 2
  s : Nat := 3
  w : Nat := 3
  ceiling : Vector Nat 4 := Vector.replicate 4 1872
  pre : Vector Bool 3 := #v[false, true, true]
  may : Vector Bool 3 := #v[true, false, false]
  deriving DecidableEq, Repr

/-- The admission unit (R63, R87, R108). -/
structure Admission where
  allot : List HalfEntry := []
  services : List Service := []
  map : ClassMap := {}
  admCounter : Nat := 0
  shedCounter : Nat := 0
  economy : Bool := false
  deriving DecidableEq, Repr

/-! ## Call controller (chapter 6) -/

inductive Polarity | normal | inverted
  deriving DecidableEq, Repr

inductive CallTimer | heldLimit | ringTimeout | clearGuard
  deriving DecidableEq, Repr

inductive CadenceKind | ring | wait
  deriving DecidableEq, Repr

/-- A running cadence: kind, on-phase or off-phase, ticks since the period began, the period and on-time it began with. -/
structure Cadence where
  kind : CadenceKind
  onPhase : Bool
  elapsed : Nat
  period : Nat
  onTime : Nat
  deriving DecidableEq, Repr

/-- The settings of PHONE_SET form COMMON (R110), in their own units. -/
structure Common where
  heldLimit : Nat := 15
  ringTimeout : Nat := 60
  clearGuard : Nat := 3
  ringPeriod : Nat := 5000
  ringOn : Nat := 1000
  waitPeriod : Nat := 3000
  waitOn : Nat := 500
  deriving DecidableEq, Repr

/-- The settings of PHONE_SET form PORT (R109). -/
structure PhoneSettings where
  enabled : Bool := false
  kilometre : Nat := 0
  preferred : Side := .a
  offDebounce : Nat := 100
  onDebounce : Nat := 600
  flashMin : Nat := 60
  filter : Bool := true
  holdPermitted : Bool := true
  polarity : Polarity := .normal
  deriving DecidableEq, Repr

/-- A phone port: settings, loop-detect capture, call record, ring output and voice bus channel (R135). The time in the level before
sampling begins is 0, the model's choice, log 78. -/
structure Phone where
  set : PhoneSettings := {}
  sampling : Bool := false
  level : Bool := false
  differing : Nat := 0
  time : Nat := 0
  acceptDue : Bool := false
  hook : Hook := .onHook
  hookDue : Bool := false
  lastHigh : Nat := 0
  lastLow : Nat := 0
  saturated : Bool := false
  flashes : Nat := 0
  call : CallState := .idle
  origin : Option CallOrigin := none
  start : Option (BitVec 32) := none
  holdRequested : Bool := false
  clearLock : Bool := false
  selected : Option Side := none
  liveCell : Option Nat := none
  timer : Option (CallTimer × Nat) := none
  cadence : Option Cadence := none
  polarity : Polarity := .normal
  testDrive : Bool := false
  voiceIn : CellVal := Config.idleFill
  voiceOut : CellVal := Config.idleFill
  toneOut : Byte := 0
  deriving DecidableEq, Repr

/-- The call controller. -/
structure Calls where
  common : Common := {}
  waiting : List (Fin 8) := []
  phones : Vector Phone 8 := Vector.replicate 8 {}
  deriving DecidableEq, Repr

/-! ## Packet engine (chapter 7) -/

/-- The counts of a packet port (R152). -/
structure PortCounts where
  inputErrors : Nat := 0
  unbound : Nat := 0
  discards : Nat := 0
  output : Nat := 0
  deriving DecidableEq, Repr

/-- The counts of a service (R152), in that table's order. -/
structure SvcCounts where
  quotaDrops : Nat := 0
  poolDrops : Nat := 0
  ageDiscards : Nat := 0
  abandoned : Nat := 0
  packed : Nat := 0
  misrouted : Nat := 0
  syncGains : Nat := 0
  syncLosses : Nat := 0
  checkFailures : Nat := 0
  received : Nat := 0
  unexpected : Nat := 0
  deriving DecidableEq, Repr

/-- A frame with its channel: in a receive queue, and on a packet port's output with the rate it began with. -/
structure ChannelFrame where
  channel : Nat
  data : List Byte
  deriving DecidableEq, Repr

/-- A packet port (R136, R150, R151). `mark` holds the counts at the start of the counting interval. -/
structure PacketPort where
  enabled : Bool := false
  rate : Nat := 2000
  readyUsed : Bool := false
  recv : List ChannelFrame := []
  sending : Option (Nat × ChannelFrame) := none
  counts : PortCounts := {}
  mark : PortCounts := {}
  deriving DecidableEq, Repr

/-- A frame of a transmit queue with its arrival stamp (R139). -/
structure QueuedFrame where
  data : List Byte
  stamp : BitVec 32
  deriving DecidableEq, Repr

/-- What the packet engine keeps for a service (R138 to R149). `placed` is the number of bytes of the head frame's element
already packed (0: no element in progress); `gathered` the bytes of the element the reassembler is in. -/
structure PeService where
  id : Nat
  queue : List QueuedFrame := []
  placed : Nat := 0
  attached : Bool := false
  live : HalfSet := {}
  selected : Option Side := none
  inSync : Bool := false
  gathered : List Byte := []
  counts : SvcCounts := {}
  mark : SvcCounts := {}
  deriving DecidableEq, Repr

/-- The packet engine. -/
structure PacketEngine where
  ports : Vector PacketPort 4 := Vector.replicate 4 {}
  svcs : List PeService := []
  interval : Option Nat := none
  deriving DecidableEq, Repr

/-! ## Transfer engine (chapter 8) -/

/-- The bulk store's bytes: (address, byte) pairs in canonical form; an unlisted address reads 00h. -/
abbrev Memory := List Host.Cell

/-- The counts of a transfer (R171). -/
structure TransferCounts where
  appended : Nat := 0
  duplicates : Nat := 0
  gaps : Nat := 0
  rejected : Nat := 0
  outOfState : Nat := 0
  framesSent : Nat := 0
  framesDropped : Nat := 0
  chunks : Nat := 0
  deriving DecidableEq, Repr

/-- An open transfer record (R156). The delivery position is present in DELIVERING and DELIVERY_WAIT. -/
structure Transfer where
  service : Nat
  page : Nat
  declared : Nat
  targets : List (Fin 4 × Nat)
  chunk : Nat
  state : TransferState
  reason : Option SuspendReason := none
  received : Nat := 0
  reported : Nat := 0
  target : Nat := 0
  offset : Nat := 0
  blocks : List Nat := []
  timer : Nat := 0
  counts : TransferCounts := {}
  deriving DecidableEq, Repr

/-- The transfer engine. -/
structure TransferEngine where
  recs : Vector (Option Transfer) 4 := Vector.replicate 4 none
  store : Memory := []
  malformed : Nat := 0
  unmatched : Nat := 0
  deriving DecidableEq, Repr

/-! ## Poll controller (chapter 9) -/

inductive PollRate | r9600 | r19200
  deriving DecidableEq, Repr

/-- The counts of a station (R183). -/
structure StationCounts where
  polls : Nat := 0
  valid : Nat := 0
  timeouts : Nat := 0
  badReplies : Nat := 0
  wrongAddress : Nat := 0
  misses : Nat := 0
  forwardDrops : Nat := 0
  deriving DecidableEq, Repr

/-- A reading with its capture run time. -/
structure Reading where
  bytes : List Byte
  capture : BitVec 32
  deriving DecidableEq, Repr

/-- An entry of the station table (R175). `fallsDue` is set at the frame start at which the station falls due. -/
structure Station where
  enabled : Bool := false
  address : Nat := 1
  offset : Nat := 0
  state : StationState := .unpolled
  failures : Nat := 0
  reading : Option Reading := none
  unsent : Bool := false
  overwritten : Nat := 0
  counts : StationCounts := {}
  fallsDue : Bool := false
  deriving DecidableEq, Repr

/-- The phases of an attempt (R178); judging is no phase of its own, being one event. -/
inductive PollPhase
  | sending
  | waiting (ticks timeout : Nat)
  | receiving
  deriving DecidableEq, Repr

/-- The transaction in progress (R178). -/
structure Transaction where
  station : Fin 8
  attempt : Nat
  phase : PollPhase
  rate : PollRate
  deriving DecidableEq, Repr

/-- The poll controller (R173, R185). -/
structure PollController where
  enabled : Bool := false
  rate : PollRate := .r9600
  interval : Nat := 60
  timeout : Nat := 500
  service : Option Nat := none
  running : Bool := false
  startWait : Bool := false
  cycleDue : Bool := false
  pos : Nat := 0
  len : Nat := 0
  stretched : Bool := false
  queue : List (Fin 8 × BitVec 32) := []
  txn : Option Transaction := none
  late : Nat := 0
  stations : Vector Station 8 := Vector.replicate 8 {}
  deriving DecidableEq, Repr

/-! ## The node -/

/-- Every block but the management link itself. -/
structure Node where
  pins : Pins := {}
  clk : Clock := {}
  op : OpState := .config
  runTime : BitVec 32 := 0
  reports : Reports := {}
  cfg : Settings := {}
  line : Two LinePort := ⟨{}, {}⟩
  path : Two PathSide := ⟨{}, {}⟩
  timing : Timing := {}
  sig : Signals := {}
  cs : CellSwitch := {}
  au : Admission := {}
  cc : Calls := {}
  pe : PacketEngine := {}
  te : TransferEngine := {}
  pc : PollController := {}
  deriving DecidableEq, Repr

/-! ## Management link (chapter 10) -/

/-- The five rates of R186. -/
inductive LinkRate | r115200 | r230400 | r460800 | r921600 | r1843200
  deriving DecidableEq, Repr

/-- A request as received: kind, tag and body (10.2). -/
structure Request where
  kind : Byte
  tag : BitVec 16
  body : List Byte
  deriving DecidableEq, Repr

/-- What the sending of a reply brings: a change of link rate (R187) or the reset (R196). -/
inductive After | nothing | rate (r : LinkRate) | reset
  deriving DecidableEq, Repr

/-- The stages of a held place (R189); an answered place holds the body of its reply. -/
inductive Stage
  | waiting
  | answered (reply : List Byte) (after : After)
  | sending (reply : List Byte) (after : After)
  deriving DecidableEq, Repr

/-- A held place of the request buffer. -/
structure Place where
  request : Request
  stage : Stage
  deriving DecidableEq, Repr

/-- A BUSY answer (R189). -/
structure BusyAnswer where
  kind : Byte
  tag : BitVec 16
  deriving DecidableEq, Repr

/-- A waiting reply: that of a place, or the next answer of the busy list (R192). -/
inductive Formed | place (i : Fin 4) | busy
  deriving DecidableEq, Repr

/-- What the transmitter is sending (R192). -/
inductive Tx | idle | place (i : Fin 4) | busy | report
  deriving DecidableEq, Repr

/-- The receiver (R188): hunting, or in a frame with its bytes after the start marker and the ticks since the last byte. -/
inductive Rx | hunting | frame (bytes : List Byte) (gap : Nat)
  deriving DecidableEq, Repr

/-- The rejected-frame counts, one per cause (R188). -/
structure Rejects where
  tooLong : Nat := 0
  gap : Nat := 0
  byteError : Nat := 0
  badCheck : Nat := 0
  rateChange : Nat := 0
  overrun : Nat := 0
  deriving DecidableEq, Repr

/-- The management link's own state (R199). `arrivals` lists the WAITING places in order of arrival, `formed` the waiting
replies in the order in which they were formed; `resetTaken` is set once RESET has been handled (R196). -/
structure Link where
  rate : LinkRate := .r115200
  rx : Rx := .hunting
  places : Vector (Option Place) 4 := Vector.replicate 4 none
  arrivals : List (Fin 4) := []
  formed : List Formed := []
  busy : List BusyAnswer := []
  tx : Tx := .idle
  resetTaken : Bool := false
  stray : Nat := 0
  rejects : Rejects := {}
  busyCount : Nat := 0
  deriving DecidableEq, Repr

/-- The state of the machine: the node, its management link and the queue of waiting commands, first in, first out. -/
structure State where
  node : Node
  link : Link
  pending : List Instr
  deriving DecidableEq, Repr

/-- The machine right after reset: every block at its power-on values (R27, R43, R63, R87, R108, R135, R154, R172, R185,
R199), no command waiting. -/
def State.reset : State := { node := {}, link := {}, pending := [] }

end Sys2Proof.Machine
end

