-- ==== Sys2Proof/Machine/Ops.lean ====
section
/-! DEFINITION. The named operations that the blocks share: bytes and checks, ordered lists, saturating counts, the bulk
store's memory, half maps, the report queue, the records of the node and the transmitter of the management link. -/

namespace Sys2Proof

def Line.other : Line → Line
  | .u => .d
  | .d => .u
/-- Side A is reached through line U, side B through line D (F00 conventions). -/
def Side.line : Side → Line
  | .a => .u
  | .b => .d
def Line.side : Line → Side
  | .u => .a
  | .d => .b
def Side.other : Side → Side
  | .a => .b
  | .b => .a
/-- The side that a path signal names. -/
def PathSignal.side : PathSignal → Side
  | .lost x | .restored x => x
/-- A receiver may take the signal: of the signals not yet taken, it is the first that names its side (R38, log 48). -/
def PathSignal.stands (g : PathSignal) (l : List PathSignal) : Bool := l.find? (fun h => h.side == g.side) == some g

end Sys2Proof

namespace Sys2Proof.Machine

abbrev Result := Host.Outcome State Fault Refusal

/-! ## Counts, bytes and checks -/

/-- One more, held at 65,535. -/
def sat16 (n : Nat) : Nat := min Config.top16 (n + 1)
/-- One more, held at 4,294,967,295. -/
def sat32 (n : Nat) : Nat := min Config.top32 (n + 1)
/-- One more, held at 255. -/
def sat8 (n : Nat) : Nat := min 255 (n + 1)
/-- ⌈n / k⌉. -/
def ceilDiv (n k : Nat) : Nat := (n + k - 1) / k

/-- The low byte of a number. -/
def be1 (n : Nat) : List Byte := [BitVec.ofNat 8 n]
/-- Two bytes, most significant first (R200). -/
def be2 (n : Nat) : List Byte := [BitVec.ofNat 8 (n / 256), BitVec.ofNat 8 n]
/-- Four bytes, most significant first (R200). -/
def be4 (n : Nat) : List Byte := be2 (n / 65536) ++ be2 n
/-- The number that bytes spell, most significant first. -/
def natOf (bs : List Byte) : Nat := bs.foldl (fun n b => n * 256 + b.toNat) 0
/-- The number in `size` bytes at `off`. -/
def numAt (bs : List Byte) (off size : Nat) : Nat := natOf ((bs.drop off).take size)

/-- The check register takes one bit: generator x^16 + x^12 + x^5 + 1 (R3, R143). -/
def checkBit (r : BitVec 16) (bit : Bool) : BitVec 16 :=
  if r.msb != bit then (r <<< 1) ^^^ 0x1021#16 else r <<< 1
/-- The check register takes a byte, most significant bit first. -/
def checkByte (r : BitVec 16) (b : Byte) : BitVec 16 :=
  [7, 6, 5, 4, 3, 2, 1, 0].foldl (fun r i => checkBit r (b.getLsbD i)) r
/-- The 16-bit check over bytes in order, preset to FFFFh, no final inversion (R3, R143). -/
def check16 (bs : List Byte) : BitVec 16 := bs.foldl checkByte 0xFFFF#16

/-- The two bytes of a cell, first byte first. -/
def cellBytes (c : CellVal) : List Byte := be2 c.toNat
/-- The cell of two bytes. -/
def cellOf (x y : Byte) : CellVal := BitVec.ofNat 16 (x.toNat * 256 + y.toNat)
/-- Bytes as cells, two by two; a last single byte is the first byte of a cell. -/
def cellsOf : List Byte → List CellVal
  | x :: y :: r => cellOf x y :: cellsOf r
  | [x] => [cellOf x 0]
  | [] => []

/-! ## Ordered lists -/

/-- Insert before the first entry that is not ahead. -/
def insertBy {α : Type} (le : α → α → Bool) (x : α) : List α → List α
  | [] => [x]
  | y :: ys => if le x y then x :: y :: ys else y :: insertBy le x ys
/-- A list in order, equal entries as they stood. -/
def sortBy {α : Type} (le : α → α → Bool) (l : List α) : List α := l.foldr (insertBy le) []

def allPhones : List (Fin 8) := [0, 1, 2, 3, 4, 5, 6, 7]
def allFour : List (Fin 4) := [0, 1, 2, 3]

/-! ## The bulk store's memory (R155, R156) -/

/-- The byte at an address; an unlisted address reads 00h. -/
def Memory.read (m : Memory) (a : Nat) : Byte := ((m.find? fun c => c.1 == a).map (·.2)).getD 0
/-- Write one byte, keeping addresses rising and listing no 00h. -/
def Memory.write : Memory → Nat → Byte → Memory
  | [], a, b => if b = 0 then [] else [(a, b)]
  | c :: m, a, b =>
    if a < c.1 then (if b = 0 then c :: m else (a, b) :: c :: m)
    else if a = c.1 then (if b = 0 then m else (a, b) :: m)
    else c :: Memory.write m a b
/-- The canonical form: addresses strictly rising, no entry equal to what an unlisted address reads as. -/
def Memory.wf : Memory → Bool
  | [] => true
  | c :: m => c.2 != 0 && m.all (fun d => c.1 < d.1) && Memory.wf m

/-! ## Half maps (R45, R48, R55) -/

def HalfEntry.owner (e : HalfEntry) : Side → Option Nat
  | .a => e.a
  | .b => e.b
def HalfSet.side (h : HalfSet) : Side → List Nat
  | .a => h.a
  | .b => h.b
/-- The entry of a cell, if it is allotted. -/
def entryOf (m : List HalfEntry) (c : Nat) : Option HalfEntry := m.find? (·.cell == c)
/-- Take a half for `id` when it is in the set, and leave it when `id` owns it and it is not (R55 steps 1 and 2, R74). -/
def ownHalf (id : Nat) (inSet : Bool) (o : Option Nat) : Option Nat :=
  if inSet then some id else if o = some id then none else o
/-- Give `id` exactly the halves of the set, all other halves keeping their owners. -/
def setOwner (m : List HalfEntry) (id : Nat) (h : HalfSet) : List HalfEntry :=
  m.map fun e => { e with a := ownHalf id (h.a.contains e.cell) e.a, b := ownHalf id (h.b.contains e.cell) e.b }
/-- Add a cell with both halves unowned; a cell already there is left as it is (R47). -/
def addCell (m : List HalfEntry) (c : Nat) : List HalfEntry :=
  if (entryOf m c).isSome then m else insertBy (fun x y => x.cell ≤ y.cell) { cell := c } m
/-- Remove a cell (R47). -/
def removeCell (m : List HalfEntry) (c : Nat) : List HalfEntry := m.filter (·.cell != c)

/-! ## Reports (R193) -/

/-- Offer a report: it joins the queue, carrying the lost mark, or is discarded and counted. -/
def Reports.offer (r : Reports) (b : ReportBody) (t : BitVec 32) : Reports :=
  if r.queue.length < Config.reportPlaces then
    { r with queue := r.queue ++ [{ body := b, runTime := t, lost := r.lostMark }], lostMark := false }
  else { r with lostMark := true, lost := sat16 r.lost }

/-- A block offers a report, stamped with the run time. -/
def Node.report (n : Node) (b : ReportBody) : Node := { n with reports := n.reports.offer b n.runTime }

/-! ## Records of the node -/

def Node.setLine (n : Node) (l : Line) (p : LinePort) : Node := { n with line := n.line.set l p }
def Node.modLine (n : Node) (l : Line) (f : LinePort → LinePort) : Node := n.setLine l (f (n.line.get l))
def Node.pathOf (n : Node) (x : Side) : PathSide := n.path.get x.line
def Node.setPath (n : Node) (x : Side) (p : PathSide) : Node := { n with path := n.path.set x.line p }
def Node.modSwitch (n : Node) (l : Line) (f : SwitchLine → SwitchLine) : Node :=
  { n with cs := { n.cs with line := n.cs.line.set l (f (n.cs.line.get l)) } }
def Node.phone (n : Node) (p : Fin 8) : Phone := n.cc.phones[p]
def Node.setPhone (n : Node) (p : Fin 8) (ph : Phone) : Node :=
  { n with cc := { n.cc with phones := n.cc.phones.set p ph } }
def Node.modPhone (n : Node) (p : Fin 8) (f : Phone → Phone) : Node := n.setPhone p (f (n.phone p))
def Node.port (n : Node) (k : Fin 4) : PacketPort := n.pe.ports[k]
def Node.setPort (n : Node) (k : Fin 4) (p : PacketPort) : Node :=
  { n with pe := { n.pe with ports := n.pe.ports.set k p } }
def Node.modPort (n : Node) (k : Fin 4) (f : PacketPort → PacketPort) : Node := n.setPort k (f (n.port k))
def Node.xfer (n : Node) (t : Fin 4) : Option Transfer := n.te.recs[t]
def Node.setXfer (n : Node) (t : Fin 4) (r : Option Transfer) : Node :=
  { n with te := { n.te with recs := n.te.recs.set t r } }
def Node.station (n : Node) (k : Fin 8) : Station := n.pc.stations[k]
def Node.setStation (n : Node) (k : Fin 8) (x : Station) : Node :=
  { n with pc := { n.pc with stations := n.pc.stations.set k x } }
def Node.modStation (n : Node) (k : Fin 8) (f : Station → Station) : Node := n.setStation k (f (n.station k))
/-- The packet engine's state for a service, open while its record stands (R138). -/
def Node.peOf (n : Node) (id : Nat) : Option PeService := n.pe.svcs.find? (·.id == id)
def Node.setPe (n : Node) (v : PeService) : Node :=
  { n with pe := { n.pe with svcs := n.pe.svcs.map fun w => if w.id = v.id then v else w } }
/-- The service record of an id (R64). -/
def Node.svc (n : Node) (id : Nat) : Option Service := n.au.services.find? (·.id == id)
/-- Enter or replace a service record, the table in id order. -/
def Node.putSvc (n : Node) (v : Service) : Node :=
  { n with au := { n.au with
      services := insertBy (fun x y => x.id ≤ y.id) v (n.au.services.filter (·.id != v.id)) } }
def Node.dropSvc (n : Node) (id : Nat) : Node :=
  { n with au := { n.au with services := n.au.services.filter (·.id != id) } }

/-- A side is usable while its path is REACHABLE or HOLD_OFF (R38). -/
def Node.usable (n : Node) (x : Side) : Bool :=
  match (n.pathOf x).state with
  | .reachable | .holdOff => true
  | .lost | .waitRestore => false
/-- The preferred side if usable, otherwise the other if usable, otherwise none (R76, R117, R146). -/
def Node.pickSide (n : Node) (pref : Side) : Option Side :=
  if n.usable pref then some pref else if n.usable pref.other then some pref.other else none

/-- The node at its power-on values; the inputs keep their levels (F00, R206). -/
def Node.powerOn (n : Node) : Node := { pins := n.pins }

/-! ## The management link's transmitter and request buffer (R189 to R192) -/

/-- A place whose reply begins to be sent. -/
def Place.sent (p : Place) : Place :=
  match p.stage with
  | .answered r a => { p with stage := .sending r a }
  | _ => p

/-- When idle, the transmitter chooses the oldest waiting reply, otherwise the report at the head of the queue (R192). -/
def State.kick (s : State) : State :=
  match s.link.tx with
  | .idle =>
    match s.link.formed with
    | .place i :: rest =>
      { s with link := { s.link with
          tx := .place i, formed := rest, places := s.link.places.set i (s.link.places[i].map Place.sent) } }
    | .busy :: rest => { s with link := { s.link with tx := .busy, formed := rest } }
    | [] => if s.node.reports.queue.isEmpty then s else { s with link := { s.link with tx := .report } }
  | _ => s

/-- While the reset input is low the part is held at its power-on values and takes nothing (R206); otherwise the event is
taken whole, and an idle transmitter then chooses its next frame. -/
def unlessHeld (s : State) (f : State → State) : Result :=
  .next (if s.node.pins.resetLow then s else (f s).kick)

/-- An event of the blocks, which leaves the management link alone. -/
def onNode (s : State) (f : Node → Node) : Result := unlessHeld s fun s => { s with node := f s.node }

/-- The oldest WAITING request with its place; none once RESET has been handled (R190, R196). -/
def Link.oldest (k : Link) : Option (Fin 4 × Request) :=
  if k.resetTaken then none
  else match k.arrivals with
    | [] => none
    | i :: _ => k.places[i].map fun p => (i, p.request)

/-- The place passes to ANSWERED with its reply, which waits behind the replies formed before (R190, R192). -/
def Link.answer (k : Link) (i : Fin 4) (r : Request) (reply : List Byte) (after : After) : Link :=
  { k with
    places := k.places.set i (some { request := r, stage := .answered reply after })
    arrivals := k.arrivals.erase i
    formed := k.formed ++ [.place i]
    resetTaken := k.resetTaken || after == .reset }

end Sys2Proof.Machine
end

