-- ==== Sys2Proof/Machine/Flags.lean ====
section
/-! DEFINITION. Status codes and reply flags (R191, R200): the reply head, and the ordered checks that lead to a refusal. -/

namespace Sys2Proof.Machine

/-- The status codes of R191, in the order of R200. -/
inductive Status
  | ok | busy | badLength | unknownKind | badField | notStarted | alreadyStarted | nodeUnset | wrongState | idReserved
  | idInUse | noSuchService | classReserved | classInUse | rateRange | floorAboveRate | portInUse | noCapacity
  | ceilingBelowUse | cellInUse | notAllotted | transferBusy | noTransfer
  deriving DecidableEq, Repr

/-- The code of a status (R200). -/
def Status.code : Status → Nat
  | .ok => 0x00 | .busy => 0x01 | .badLength => 0x02 | .unknownKind => 0x03 | .badField => 0x04 | .notStarted => 0x05
  | .alreadyStarted => 0x06 | .nodeUnset => 0x07 | .wrongState => 0x08 | .idReserved => 0x09 | .idInUse => 0x0A
  | .noSuchService => 0x0B | .classReserved => 0x0C | .classInUse => 0x0D | .rateRange => 0x0E | .floorAboveRate => 0x0F
  | .portInUse => 0x10 | .noCapacity => 0x11 | .ceilingBelowUse => 0x12 | .cellInUse => 0x13 | .notAllotted => 0x14
  | .transferBusy => 0x15 | .noTransfer => 0x16

/-- The flags of a reply to DEFINE_SERVICE; clear in every other reply (R191). -/
structure ReplyFlags where
  inexact : Bool := false
  clamped : Bool := false
  reduced : Bool := false
  waiting : Bool := false
  deriving DecidableEq, Repr

/-- The flag byte: INEXACT in bit 0, CLAMPED in bit 1, REDUCED in bit 2, WAITING in bit 3 (R200). -/
def ReplyFlags.code (f : ReplyFlags) : Nat :=
  f.inexact.toNat + 2 * f.clamped.toNat + 4 * f.reduced.toNat + 8 * f.waiting.toNat

/-- A reply before it is laid out: status, flags, the field index of BAD_FIELD, and the bytes that follow the head. -/
structure Reply where
  status : Status := .ok
  flags : ReplyFlags := {}
  detail : Option Nat := none
  fields : List Byte := []
  deriving DecidableEq, Repr

/-- The body of a reply: the three-byte head and the fields (R200). -/
def Reply.bytes (r : Reply) : List Byte :=
  be1 r.status.code ++ be1 r.flags.code ++ be1 (r.detail.getD 0xFF) ++ r.fields

/-- An OK reply with its fields. -/
def okReply (fields : List Byte) : Reply := { fields := fields }
/-- A refusal with what its rule gives. -/
def refusal (st : Status) (fields : List Byte := []) : Reply := { status := st, fields := fields }
/-- BAD_FIELD naming a field; naming an entry of a list field, the entry's position follows (R200). -/
def badField (i : Nat) (fields : List Byte := []) : Reply := { status := .badField, detail := some i, fields := fields }

/-- What an owner gives back: the node as the request leaves it, the reply, and what its sending brings. -/
structure Answer where
  node : Node
  reply : Reply
  after : After := .nothing
  deriving DecidableEq, Repr

/-- The first check that fails gives the reply. -/
def firstRefusal (checks : List (Bool × Reply)) : Option Reply := (checks.find? (·.1)).map (·.2)

/-- Make the checks in order; a refused request changes nothing (R191). -/
def checked (n : Node) (checks : List (Bool × Reply)) (accept : Answer) : Answer :=
  match firstRefusal checks with
  | some r => { node := n, reply := r }
  | none => accept

/-- The checks every owner makes before its own: NOT_STARTED, then the length (R190). -/
def commonChecks (n : Node) (needsRunning : Bool) (body : List Byte) (size : Nat) : List (Bool × Reply) :=
  [(needsRunning && n.op == .config, refusal .notStarted), (body.length != size, refusal .badLength)]

/-- The step of a request: the oldest WAITING request, if it is the row's, is handled whole by its owner, and its place
passes to ANSWERED (R190). -/
def handle (s : State) (mine : Request → Bool) (owner : Link → List Byte → Node → Answer) : Result :=
  unlessHeld s fun s =>
    match s.link.oldest with
    | some (i, r) =>
      if mine r then
        let a := owner s.link r.body s.node
        { s with node := a.node, link := s.link.answer i r a.reply.bytes a.after }
      else s
    | none => s

/-- A request of one kind. -/
def isKind (k : Byte) (r : Request) : Bool := r.kind == k
/-- A request of one kind whose byte at `off` holds the value `v`. -/
def isKindWith (k : Byte) (off : Nat) (v : Byte) (r : Request) : Bool := r.kind == k && r.body[off]? == some v
/-- A request of one kind whose byte at `off` holds none of the values that the kind's other rows take (log 20). -/
def isKindBut (k : Byte) (off : Nat) (others : List Byte) (r : Request) : Bool :=
  r.kind == k && !(others.any fun v => r.body[off]? == some v)

end Sys2Proof.Machine
end

