-- ==== Sys2Proof/Machine/Operands.lean ====
section
/-! DEFINITION. The operand forms of requests: the enumeration codes of 11.4 read from a field's number (R201). A code outside
a list is none. -/

namespace Sys2Proof.Machine

def lineOf : Nat → Option Line
  | 0 => some .u | 1 => some .d | _ => none
def sideOf : Nat → Option Side
  | 0 => some .a | 1 => some .b | _ => none
/-- A two-valued field: 00h or 01h. -/
def boolOf : Nat → Option Bool
  | 0 => some false | 1 => some true | _ => none
def roundingOf : Nat → Option Rounding
  | 0 => some .nearestEven | 1 => some .down | 2 => some .up | _ => none
def requestedModeOf : Nat → Option RequestedMode
  | 0 => some (.mode .nearestEven) | 1 => some (.mode .down) | 2 => some (.mode .up) | 3 => some .nodeDefault | _ => none
def prefOf : Nat → Option TimingPref
  | 0 => some .uFirst | 1 => some .dFirst | _ => none
def classOf : Nat → Option Class
  | 0 => some .e | 1 => some .t | 2 => some .c | 3 => some .s | 4 => some .w | _ => none
def orderOf : Nat → Option Order
  | 0 => some .linear | 1 => some .spread | _ => none
def polarityOf : Nat → Option Polarity
  | 0 => some .normal | 1 => some .inverted | _ => none
def pollRateOf : Nat → Option PollRate
  | 0 => some .r9600 | 1 => some .r19200 | _ => none
def linkRateOf : Nat → Option LinkRate
  | 0 => some .r115200 | 1 => some .r230400 | 2 => some .r460800 | 3 => some .r921600 | 4 => some .r1843200 | _ => none
/-- CLASS_DEFAULT gives the class default protection (R77); any other code is the protection itself. -/
def protectionOf (cls : Class) : Nat → Option Protection
  | 0 => some .dual
  | 1 => some .reroute
  | 2 => some (match cls with | .e | .t => .dual | .c | .s | .w => .reroute)
  | _ => none

/-- The number in a body's byte. -/
def f1 (b : List Byte) (off : Nat) : Nat := numAt b off 1
/-- The number in a body's two bytes. -/
def f2 (b : List Byte) (off : Nat) : Nat := numAt b off 2
/-- The number in a body's four bytes. -/
def f4 (b : List Byte) (off : Nat) : Nat := numAt b off 4
/-- A number outside its range. -/
def outside (x low high : Nat) : Bool := decide (x < low) || decide (high < x)
/-- A number that codes nothing. -/
def bad {α : Type} (o : Option α) : Bool := o.isNone
/-- A port or channel of eight, four, from a number already checked. -/
def fin8 (n : Nat) : Fin 8 := Fin.ofNat 8 n
def fin4 (n : Nat) : Fin 4 := Fin.ofNat 4 n

/-! ## The overhead and the frames on the line (11.5, R202) -/

/-- The marker of a frame is good. -/
def markerGood (ov : List Byte) : Bool := ov.take 4 == Config.marker
/-- The frame check field of a frame. -/
def checkField (ov : List Byte) : BitVec 16 := BitVec.ofNat 16 (numAt ov 46 2)
/-- The notice field of a frame, 33 bytes. -/
def noticeField (ov : List Byte) : List Byte := (ov.drop 13).take 33
/-- A notice field is empty when its first byte is 0. -/
def noticeEmpty (f : List Byte) : Bool := f.headD 0 == 0
/-- The bit `i` of the byte at `off`. -/
def bitAt (ov : List Byte) (off i : Nat) : Bool := (ov.getD off 0).getLsbD i
/-- A confirmed overhead copy, read with the codings of R202. -/
def readOverhead (ov : List Byte) : Overhead where
  node := ov.getD 4 0
  count := BitVec.ofNat 16 (numAt ov 5 2)
  reach := bitAt ov 7 0
  hop := f1 ov 8
  request := if f1 ov 9 ≤ 10 then some (f1 ov 9) else none
  applied := f1 ov 10
  rxTrained := bitAt ov 11 0
  remoteDefect := bitAt ov 12 0
  economy := bitAt ov 12 1
/-- The check of R3 over a frame. -/
def frameCheck (overhead : List Byte) (cells : List CellVal) : BitVec 16 :=
  cells.foldl (fun r c => (cellBytes c).foldl checkByte r) (check16 overhead)

end Sys2Proof.Machine
end

