-- ==== Sys2Proof/Machine/Formats.lean ====
section
/-! DEFINITION. The layouts of chapter 11 that the part writes: enumeration codes (11.4), report bodies (11.3), the management
frame (R200), the transmitted overhead and the notice fragment (11.5, R202). -/

namespace Sys2Proof.Machine

/-! ## Coding (R201) -/

def codeBool (b : Bool) : List Byte := be1 b.toNat
/-- An absent value is FFh, FFFFh or FFFFFFFFh by its size (R201). -/
def opt1 (o : Option Nat) : List Byte := be1 (o.getD 0xFF)
def opt2 (o : Option Nat) : List Byte := be2 (o.getD 0xFFFF)
def opt4 (o : Option Nat) : List Byte := be4 (o.getD 0xFFFFFFFF)
/-- A list after a count of its entries (R201). -/
def listed {α : Type} (l : List α) (f : α → List Byte) : List Byte := be1 l.length ++ l.flatMap f

def lineCode : Line → Nat
  | .u => 0 | .d => 1
def sideCode : Side → Nat
  | .a => 0 | .b => 1
def OpState.code : OpState → Nat
  | .config => 0 | .running => 1
def LinkRate.code : LinkRate → Nat
  | .r115200 => 0 | .r230400 => 1 | .r460800 => 2 | .r921600 => 3 | .r1843200 => 4
def LineState.code : LineState → Nat
  | .disabled => 0 | .seeking => 1 | .training => 2 | .up => 3
def LineCause.code : LineCause → Nat
  | .enabled => 0 | .disabled => 1 | .aligned => 2 | .alignmentLost => 3 | .signalLost => 4 | .trained => 5
  | .trainingFailed => 6 | .sdSet => 7 | .sdClear => 8 | .sfSet => 9 | .sfClear => 10
def Origin.code : Origin → Nat
  | .requested => 0 | .periodic => 1
def Grade.code : Grade → Nat
  | .failing => 0 | .poor => 1 | .fair => 2 | .good => 3
def PathState.code : PathState → Nat
  | .reachable => 0 | .holdOff => 1 | .lost => 2 | .waitRestore => 3
def PathCause.code : PathCause → Nat
  | .initial => 0 | .reachReturned => 1 | .reachLost => 2 | .holdOffCancelled => 3 | .holdOffExpired => 4
  | .wtrExpired => 5 | .reachFailedInWtr => 6 | .otherSideLost => 7 | .forced => 8 | .forceCleared => 9
def TimingSource.code : TimingSource → Nat
  | .lineU => 0 | .lineD => 1 | .local => 2
def TimingPref.code : TimingPref → Nat
  | .uFirst => 0 | .dFirst => 1
def TimingCause.code : TimingCause → Nat
  | .sourceFailed => 0 | .lineQualified => 1 | .reverted => 2
def Class.code : Class → Nat
  | .e => 0 | .t => 1 | .c => 2 | .s => 3 | .w => 4
def Protection.code : Protection → Nat
  | .dual => 0 | .reroute => 1
def Rounding.code : Rounding → Nat
  | .nearestEven => 0 | .down => 1 | .up => 2
def RequestedMode.code : RequestedMode → Nat
  | .mode m => m.code | .nodeDefault => 3
def Order.code : Order → Nat
  | .linear => 0 | .spread => 1
def SvcState.code : SvcState → Nat
  | .active => 0 | .reduced => 1 | .shed => 2
def ShedReason.code : ShedReason → Nat
  | .preEmpted => 0 | .pathLost => 1 | .economy => 2 | .noRoom => 3
def SvcCause.code : SvcCause → Nat
  | .defined => 0 | .released => 1 | .preEmpted => 2 | .pathLost => 3 | .economy => 4 | .rerouted => 5 | .restored => 6
  | .grown => 7 | .reverted => 8 | .revertBlocked => 9
def CallState.code : CallState → Nat
  | .idle => 0 | .queued => 1 | .opened => 2 | .answered => 3 | .held => 4 | .ringing => 5 | .clearing => 6
def CallOrigin.code : CallOrigin → Nat
  | .caller => 0 | .centre => 1
def Hook.code : Hook → Nat
  | .onHook => 0 | .offHook => 1
def Polarity.code : Polarity → Nat
  | .normal => 0 | .inverted => 1
def CallTimer.code : CallTimer → Nat
  | .heldLimit => 0 | .ringTimeout => 1 | .clearGuard => 2
def CadenceKind.code : CadenceKind → Nat
  | .ring => 0 | .wait => 1
def CallOutcome.code : CallOutcome → Nat
  | .placed => 0 | .queued => 1 | .abandoned => 2 | .centreCleared => 3 | .answered => 4 | .held => 5 | .resumed => 6
  | .callerCleared => 7 | .heldLimit => 8 | .ringing => 9 | .noAnswer => 10 | .ended => 11 | .isolated => 12
  | .reconnected => 13 | .flash => 14
def TransferState.code : TransferState → Nat
  | .receiving => 0 | .suspended => 1 | .delivering => 2 | .deliveryWait => 3 | .done => 4 | .aborted => 5
def SuspendReason.code : SuspendReason → Nat
  | .shed => 0 | .store => 1
def AbortReason.code : AbortReason → Nat
  | .host => 0 | .serviceGone => 1
def TransferCause.code : TransferCause → Nat
  | .opened => 0 | .serviceShed => 1 | .servicePlaced => 2 | .storeFull => 3 | .storeFreed => 4 | .pageComplete => 5
  | .targetNotReady => 6 | .targetReady => 7 | .done => 8 | .aborted => 9
def PollRate.code : PollRate → Nat
  | .r9600 => 0 | .r19200 => 1
def StationState.code : StationState → Nat
  | .unpolled => 0 | .answering => 1 | .silent => 2
def StationCause.code : StationCause → Nat
  | .answered => 0 | .silent => 1 | .set => 2
def RejectCause.code : RejectCause → Nat
  | .tooLong => 0 | .gap => 1 | .byteError => 2 | .badCheck => 3 | .rateChange => 4 | .overrun => 5
def SidesOwned.code : SidesOwned → Nat
  | .none => 0 | .a => 1 | .b => 2 | .both => 3

/-! ## Reports (11.3) -/

/-- The kind code of a report. -/
def ReportBody.kind : ReportBody → Byte
  | .lineEvent .. => 0x81#8
  | .marginDone .. | .marginAborted .. => 0x82#8
  | .pathEvent .. => 0x83#8
  | .timingEvent .. => 0x84#8
  | .nodeConflict .. => 0x85#8
  | .serviceEvent .. => 0x86#8
  | .callEvent .. => 0x87#8
  | .portEvent .. => 0x88#8
  | .transferEvent .. => 0x89#8
  | .stationEvent .. => 0x8A#8
  | .frameReject .. => 0x8B#8

/-- The fields of a report after its head, in the order of 11.3. -/
def ReportBody.fields : ReportBody → List Byte
  | .lineEvent line old new cause sd sf =>
      be1 (lineCode line) ++ be1 old.code ++ be1 new.code ++ be1 cause.code ++ codeBool sd ++ codeBool sf
  | .marginDone line measured r =>
      be1 (lineCode line) ++ be1 0 ++ be1 r.origin.code ++ be2 r.dwell ++ be1 r.allowance ++ be1 measured ++ be1 r.left
        ++ be1 r.right ++ be1 r.width ++ be1 r.grade.code ++ opt4 r.edgeLeft ++ opt4 r.edgeRight
  | .marginAborted line origin dwell allowance measured =>
      be1 (lineCode line) ++ be1 1 ++ be1 origin.code ++ be2 dwell ++ be1 allowance ++ be1 measured ++ opt1 none
        ++ opt1 none ++ opt1 none ++ opt1 none ++ opt4 none ++ opt4 none
  | .pathEvent side old new cause reach hop initial forced =>
      be1 (sideCode side) ++ be1 old.code ++ be1 new.code ++ be1 cause.code ++ codeBool reach ++ opt2 hop
        ++ codeBool initial ++ codeBool forced
  | .timingEvent old new cause cleanU cleanD =>
      be1 old.code ++ be1 new.code ++ be1 cause.code ++ be4 cleanU ++ be4 cleanD
  | .nodeConflict line node count => be1 (lineCode line) ++ be1 node ++ be2 count
  | .serviceEvent id cls level prot old new cause reason current held header adm shedNo =>
      be1 id ++ be1 cls.code ++ be1 level ++ be1 prot.code ++ opt1 (old.map SvcState.code) ++ opt1 (new.map SvcState.code)
        ++ be1 cause.code ++ opt1 (reason.map ShedReason.code) ++ opt1 (current.map sideCode) ++ be1 held ++ opt2 header
        ++ opt4 adm ++ opt4 shedNo
  | .callEvent port kilometre old new outcome origin service selected isolated hook clearLock start =>
      be1 port ++ be2 kilometre ++ be1 old.code ++ be1 new.code ++ be1 outcome.code ++ opt1 (origin.map CallOrigin.code)
        ++ opt1 service ++ opt1 (selected.map sideCode) ++ codeBool isolated ++ be1 hook.code ++ codeBool clearLock
        ++ opt4 (start.map (·.toNat))
  | .portEvent closing free ports services =>
      be4 closing.toNat ++ be2 free ++ listed ports (fun d => be1 d.port ++ d.counts.flatMap be4)
        ++ listed services (fun d => be1 d.id ++ d.counts.flatMap be4 ++ be4 d.queued ++ codeBool d.inSync)
  | .transferEvent number service page old new cause suspended aborted received declared position held free =>
      be1 number ++ be1 service ++ be4 page ++ opt1 (old.map TransferState.code) ++ be1 new.code ++ be1 cause.code
        ++ opt1 ((suspended.map SuspendReason.code).or (aborted.map AbortReason.code)) ++ be4 received ++ be4 declared
        ++ opt1 (position.map (·.1)) ++ opt4 (position.map (·.2)) ++ be1 held ++ be1 free
  | .stationEvent station address old new cause failures capture =>
      be1 station ++ be1 address ++ be1 old.code ++ be1 new.code ++ be1 cause.code ++ be1 failures
        ++ opt4 (capture.map (·.toNat))
  | .frameReject cause kind tag received =>
      be1 cause.code ++ opt1 (kind.map (·.toNat)) ++ opt2 (tag.map (·.toNat)) ++ be2 received

/-- The body of a report: the head, a flag byte and the run time, then the fields (R200). -/
def Report.bytes (r : Report) : List Byte := codeBool r.lost ++ be4 r.runTime.toNat ++ r.body.fields

/-! ## The management frame (11.1, R200) -/

/-- A frame the part puts on the management link. -/
structure Message where
  kind : Byte
  tag : BitVec 16
  body : List Byte
  deriving DecidableEq, Repr

/-- What the check of a frame covers: length, kind, tag and body. -/
def Message.covered (m : Message) : List Byte := be2 m.body.length ++ [m.kind] ++ be2 m.tag.toNat ++ m.body
/-- The bytes of a frame: start marker, the covered bytes, the check. -/
def Message.bytes (m : Message) : List Byte := Config.startMarker :: (m.covered ++ be2 (check16 m.covered).toNat)

/-- The frame that the transmitter is sending; none while it holds the line at the stop level (R192, R200). -/
def State.message (s : State) : Option Message :=
  match s.link.tx with
  | .idle => none
  | .place i => s.link.places[i].bind fun p =>
      match p.stage with
      | .sending reply _ => some { kind := p.request.kind, tag := p.request.tag, body := reply }
      | _ => none
  | .busy => s.link.busy.head?.map fun a => { kind := a.kind, tag := a.tag, body := (refusal .busy).bytes }
  | .report => s.node.reports.queue.head?.map fun r => { kind := r.body.kind, tag := 0, body := r.bytes }

/-! ## The transmitted overhead and the notice fragment (11.5, R202) -/

/-- The values that a transmitted overhead carries. -/
structure TxOverhead where
  node : Nat
  count : BitVec 16
  reach : Bool
  hop : Nat
  request : Option Nat
  applied : Nat
  rxTrained : Bool
  remoteDefect : Bool
  economy : Bool
  notice : List Byte
  check : BitVec 16
  deriving DecidableEq, Repr

/-- The 48 bytes of a transmitted overhead. -/
def TxOverhead.bytes (o : TxOverhead) : List Byte :=
  Config.marker ++ be1 o.node ++ be2 o.count.toNat ++ codeBool o.reach ++ be1 o.hop ++ opt1 o.request ++ be1 o.applied
    ++ codeBool o.rxTrained ++ be1 (o.remoteDefect.toNat + 2 * o.economy.toNat) ++ o.notice ++ be2 o.check.toNat

/-- The notice data: 6 + 2k bytes (R202). -/
def Notice.bytes (m : Notice) : List Byte :=
  be1 m.id ++ be1 m.cls.code ++ be1 m.sides.code ++ be2 m.eff.toNat ++ be1 m.cells.length ++ m.cells.flatMap be2
/-- The number of fragments of a notice (R58). -/
def Notice.fragments (m : Notice) : Nat := ceilDiv m.bytes.length 28
/-- An empty notice field: 33 bytes of 00h. -/
def emptyNotice : List Byte := List.replicate 33 0
/-- The next fragment of a notice being sent: header and data, unused data bytes 00h (R58, R202). -/
def NoticeSending.fragment (x : NoticeSending) : List Byte :=
  let data := (x.notice.bytes.drop (28 * x.next)).take 28
  be1 x.origin ++ [x.seq] ++ be1 x.next ++ be1 x.notice.fragments ++ be1 data.length ++ data
    ++ List.replicate (28 - data.length) 0

end Sys2Proof.Machine
end

