-- ==== Sys2Proof/Machine/Packets.lean ====
section
/-! DEFINITION. The packet engine (chapter 7): the buffer pool and the transmit queues, the packer, the reassembler, receive
queues, live halves and receive sides. The commands of the packet ports stand in PacketEvents.lean. -/

namespace Sys2Proof.Machine

/-! ## Buffer pool and transmit queues (7.2) -/

/-- Quota in KiB and age limit in ms of a service's transmit queue, by its binding (R77). -/
def Binding.quota : Binding → Nat
  | .packet _ _ q _ | .poll q _ | .transfer _ q _ => q
  | .phone _ => 0
def Binding.age : Binding → Nat
  | .packet _ _ _ a | .poll _ a | .transfer _ _ a => a
  | .phone _ => 0

/-- Buffers of a frame of `len` data bytes (R139). -/
def frameBuffers (len : Nat) : Nat := ceilDiv len 256
def PeService.queuedBytes (v : PeService) : Nat := (v.queue.map (·.data.length)).sum
def PeService.buffers (v : PeService) : Nat := (v.queue.map fun q => frameBuffers q.data.length).sum
/-- Free buffers of the pool: those no queued frame holds (7.2, R139). -/
def PacketEngine.poolFree (p : PacketEngine) : Nat := Config.poolBuffers - (p.svcs.map (·.buffers)).sum

/-- Offer a frame to a service's transmit queue: enqueued if quota and pool allow, otherwise tail-dropped and counted (R139).
The answer says whether it was enqueued. -/
def Node.offerFrame (n : Node) (id : Nat) (data : List Byte) : Node × Bool :=
  match n.peOf id, n.svc id with
  | some v, some sv =>
    if sv.binding.quota * 1024 < v.queuedBytes + data.length then
      (n.setPe { v with counts := { v.counts with quotaDrops := sat32 v.counts.quotaDrops } }, false)
    else if n.pe.poolFree < frameBuffers data.length then
      (n.setPe { v with counts := { v.counts with poolDrops := sat32 v.counts.poolDrops } }, false)
    else (n.setPe { v with queue := v.queue ++ [{ data := data, stamp := n.runTime }] }, true)
  | _, _ => (n, false)

/-! ## The packer (R142 to R144) -/

/-- A frame element: length, data, check over both (R143). -/
def elementBytes (data : List Byte) : List Byte :=
  be2 data.length ++ data ++ be2 (check16 (be2 data.length ++ data)).toNat

/-- A frame has waited longer than the age limit, a limit of 0 being none (R144). -/
def aged (limit : Nat) (now : BitVec 32) (q : QueuedFrame) : Bool := limit != 0 && decide (limit < (now - q.stamp).toNat)

/-- At a boundary, over-age head frames are discarded and counted (R144). -/
def PeService.discardAged (v : PeService) (limit : Nat) (now : BitVec 32) : PeService :=
  let kept := v.queue.dropWhile (aged limit now)
  { v with
    queue := kept
    counts := { v.counts with
      ageDiscards := min Config.top32 (v.counts.ageDiscards + (v.queue.length - kept.length)) } }

/-- Place bytes of the head frame's element, as many as the train has left; a frame whose last byte is placed leaves the
queue and is counted packed (R144). Answers the bytes and the packer after them. -/
def PeService.placeHead (v : PeService) (left : Nat) : List Byte × PeService :=
  match v.queue with
  | [] => ([], { v with placed := 0 })
  | h :: q =>
    let el := elementBytes h.data
    let part := (el.drop v.placed).take left
    if v.placed + part.length = el.length then
      (part, { v with queue := q, placed := 0, counts := { v.counts with packed := sat32 v.counts.packed } })
    else (part, { v with placed := v.placed + part.length })

/-- What a train's packing yields. -/
structure Packed where
  bytes : List Byte
  offset : Option Nat
  svc : PeService
  deriving DecidableEq, Repr

/-- Fill a train's payload of `left` more bytes from position `at` (R144). Every round places a byte or more, so `fuel` is
the payload's length. -/
def packLoop (limit : Nat) (now : BitVec 32) : Nat → Nat → Nat → Packed → Packed
  | 0, _, _, p => p
  | fuel + 1, pos, left, p =>
    if left = 0 then p
    else if p.svc.placed = 0 then
      let v := p.svc.discardAged limit now
      if v.queue.isEmpty then
        if left = 1 then { p with bytes := p.bytes ++ [0xFF#8], svc := v }
        else { bytes := p.bytes ++ List.replicate left 0, offset := p.offset.or (some pos), svc := v }
      else
        let r := v.placeHead left
        packLoop limit now fuel (pos + r.1.length) (left - r.1.length)
          { bytes := p.bytes ++ r.1, offset := p.offset.or (some pos), svc := r.2 }
    else
      let r := p.svc.placeHead left
      packLoop limit now fuel (pos + r.1.length) (left - r.1.length)
        { p with bytes := p.bytes ++ r.1, svc := r.2 }

/-- The train of a service for payload of `size` bytes. -/
def packTrain (limit : Nat) (now : BitVec 32) (size : Nat) (v : PeService) : Packed :=
  packLoop limit now size 0 size { bytes := [], offset := none, svc := v }

/-- The values a service gives for its live cells in a frame: its service record absent or its attached mark clear, none
(R141); otherwise the header cell and the payload on every live side (R142, R203). -/
structure Train where
  svc : PeService
  adds : Two (List (Nat × CellVal))
  deriving DecidableEq, Repr

def buildTrain (now : BitVec 32) (sv : Option Service) (v : PeService) : Train :=
  match sv with
  | none => { svc := v, adds := ⟨[], []⟩ }
  | some sv =>
    let cells := if v.live.a.isEmpty then v.live.b else v.live.a
    if !v.attached || cells.isEmpty then { svc := v, adds := ⟨[], []⟩ }
    else
      let p := packTrain sv.binding.age now (2 * (cells.length - 1)) v
      let values := cellOf (BitVec.ofNat 8 v.id) (BitVec.ofNat 8 (p.offset.getD 0xFF)) :: cellsOf p.bytes
      { svc := p.svc, adds := ⟨v.live.a.zip values, v.live.b.zip values⟩ }

/-- Every service's train of the frame that begins (R142). -/
def Node.buildTrains (n : Node) : Node × List Train :=
  let ts := n.pe.svcs.map fun v => buildTrain n.runTime (n.svc v.id) v
  ({ n with pe := { n.pe with svcs := ts.map (·.svc) } }, ts)

/-- The value that the packet engine gives for an id, a half and a cell number; without one the half carries idle fill (R52). -/
def trainCell (ts : List Train) (id : Nat) (x : Side) (c : Nat) : CellVal :=
  (((ts.find? (·.svc.id == id)).bind fun t => ((t.adds.get x.line).find? (·.1 == c)).map (·.2))).getD Config.idleFill

/-! ## The reassembler (R146 to R149) -/

/-- The receive side: of a REROUTE service its live side, of a DUAL service its selected side while it has live halves. -/
def receiveSide (prot : Protection) (v : PeService) : Option Side :=
  match prot with
  | .reroute => if !v.live.a.isEmpty then some .a else if !v.live.b.isEmpty then some .b else none
  | .dual => if v.live.a.isEmpty && v.live.b.isEmpty then none else v.selected

/-- An IN_SYNC reassembler loses sync and discards the element in progress (R148). -/
def PeService.loseSync (v : PeService) : PeService :=
  { v with inSync := false, gathered := [], counts := { v.counts with syncLosses := sat32 v.counts.syncLosses } }

/-- A change of receive side costs an IN_SYNC reassembler its sync (R148). -/
def PeService.sideChanged (v : PeService) (before after : Option Side) : PeService :=
  if v.inSync && before != after then v.loseSync else v

/-- Take the last bytes of a frame element: the check decides whether it is good (R149). -/
def PeService.endElement (v : PeService) (element : List Byte) : PeService × List (List Byte) :=
  let len := natOf (element.take 2)
  if check16 (element.take (2 + len)) = BitVec.ofNat 16 (numAt element (2 + len) 2) then
    ({ v with gathered := [], counts := { v.counts with received := sat32 v.counts.received } }, [(element.drop 2).take len])
  else ({ v with gathered := [], counts := { v.counts with checkFailures := sat32 v.counts.checkFailures } }, [])

/-- Read payload bytes in stream order (R149). Answers the good frames completed. Every round takes a byte or more. -/
def parseLoop : Nat → List Byte → PeService → List (List Byte) → PeService × List (List Byte)
  | 0, _, v, frames => (v, frames)
  | fuel + 1, bytes, v, frames =>
    match bytes with
    | [] => (v, frames)
    | x :: rest =>
      if v.gathered.isEmpty && rest.isEmpty && x == 0xFF#8 then (v, frames)
      else if v.gathered.length < 2 then
        let g := v.gathered ++ [x]
        if g.length < 2 then parseLoop fuel rest { v with gathered := g } frames
        else if natOf g = 0 then ({ v with gathered := [] }, frames)
        else if 1536 < natOf g then (v.loseSync, frames)
        else parseLoop fuel rest { v with gathered := g } frames
      else
        let need := 4 + natOf (v.gathered.take 2) - v.gathered.length
        let g := v.gathered ++ bytes.take need
        if bytes.length < need then ({ v with gathered := g }, frames)
        else
          let r := v.endElement g
          parseLoop fuel (bytes.drop need) r.1 (frames ++ r.2)

def parse (bytes : List Byte) (v : PeService) : PeService × List (List Byte) := parseLoop (bytes.length + 1) bytes v []

def PeService.misroute (v : PeService) : PeService :=
  { v with counts := { v.counts with misrouted := sat32 v.counts.misrouted } }

/-- A reassembler reads one train: header cell and payload (R147 to R149, R203; an offset beyond the payload, log 28). -/
def readTrain (header : CellVal) (payload : List Byte) (v : PeService) : PeService × List (List Byte) :=
  let id := header.toNat / 256
  let offset := header.toNat % 256
  if v.inSync then
    if header == Config.idleFill then (v.loseSync, [])
    else if id ≠ v.id then (v.misroute.loseSync, [])
    else parse payload v
  else if header == Config.idleFill then (v, [])
  else if id ≠ v.id then (v.misroute, [])
  else if offset ≤ 189 then
    parse (payload.drop offset)
      { v with inSync := true, gathered := [], counts := { v.counts with syncGains := sat32 v.counts.syncGains } }
  else (v, [])

/-! ## Live halves (R141, R145, R146) -/

/-- The live sides of a set of halves: none, A, B or both. -/
def HalfSet.sides (h : HalfSet) : SidesOwned :=
  match h.a.isEmpty, h.b.isEmpty with
  | true, true => .none
  | false, true => .a
  | true, false => .b
  | false, false => .both

/-- The element in progress is abandoned: its frame is discarded and counted (R145). -/
def PeService.abandon (v : PeService) : PeService :=
  if v.placed = 0 then v
  else { v with queue := v.queue.tail, placed := 0, counts := { v.counts with abandoned := sat32 v.counts.abandoned } }

/-- A staging record of the id is applied: the first sets the attached mark and works out a DUAL selection; a change of live
sides abandons the element in progress, a change of receive side costs the sync (R141, R145, R146, R148). The live halves kept
change at the records of this id alone, and not when another id's record takes a half directly: the model's choice, log 79. -/
def PeService.applied (v : PeService) (prot : Protection) (pick : Option Side) (h : HalfSet) : PeService :=
  let w := { v with attached := true, live := h, selected := if v.attached then v.selected else pick }
  let w := if v.live.sides = h.sides then w else w.abandon
  w.sideChanged (receiveSide prot v) (receiveSide prot w)

/-- The packet engine is told the halves that an id now holds live (R55). -/
def Node.peApplied (n : Node) (id : Nat) (h : HalfSet) : Node :=
  match n.peOf id, n.svc id with
  | some v, some sv => n.setPe (v.applied sv.prot (n.pickSide sv.primary) h)
  | _, _ => n

/-- An attached DUAL service reselects its receive side (R146). -/
def PeService.reselect (v : PeService) (prot : Protection) (pick : Option Side) : PeService :=
  if prot = .dual && v.attached then
    let w := { v with selected := pick }
    w.sideChanged (receiveSide .dual v) (receiveSide .dual w)
  else v

/-- A path signal: each attached DUAL service reselects its receive side (R146). -/
def Node.reselectDual (n : Node) : Node :=
  let each (v : PeService) : PeService :=
    match n.svc v.id with
    | some sv => v.reselect sv.prot (n.pickSide sv.primary)
    | none => v
  { n with pe := { n.pe with svcs := n.pe.svcs.map each } }

/-! ## Packet ports (R136, R150, R151) -/

/-- A port operates while it is enabled in RUNNING (R136). -/
def Node.portOperating (n : Node) (k : Fin 4) : Bool := (n.port k).enabled && n.op == .running
/-- The ready level: the ready input, or asserted when ready is not used (R136). -/
def Node.readyLevel (n : Node) (k : Fin 4) : Bool := !(n.port k).readyUsed || n.pins.ready[k]
def PacketPort.recvBytes (p : PacketPort) : Nat := (p.recv.map (·.data.length)).sum
/-- The test by which a receive queue admits a frame of `len` bytes (R150). -/
def PacketPort.admits (p : PacketPort) (len : Nat) : Bool := decide (p.recvBytes + len ≤ Config.receiveQueueBytes)
def PacketPort.join (p : PacketPort) (f : ChannelFrame) : PacketPort := { p with recv := p.recv ++ [f] }
def PacketPort.discardOne (p : PacketPort) : PacketPort :=
  { p with counts := { p.counts with discards := sat32 p.counts.discards } }

/-- A good line frame joins the receive queue of its port, or is discarded and counted (R150). -/
def Node.toReceiveQueue (n : Node) (k : Fin 4) (f : ChannelFrame) : Node :=
  n.modPort k fun p => if n.portOperating k && p.admits f.data.length then p.join f else p.discardOne

/-- The service bound to a place of the binding table (R138): packet channels 8·port + channel, the poll channel 32, the
transfer places 33..36. -/
def Binding.place : Binding → Option Nat
  | .packet port channel _ _ => some (8 * port + channel)
  | .poll _ _ => some 32
  | .transfer place _ _ => some (33 + place)
  | .phone _ => none
def Node.boundTo (n : Node) (place : Nat) : Option Nat :=
  (n.au.services.find? fun sv => sv.binding.place == some place).map (·.id)

end Sys2Proof.Machine
end

