-- ==== Sys2Proof/Machine/Transfers.lean ====
section
/-! DEFINITION. The transfer engine (chapter 8): blocks, segments, state frames, delivery, closing and aborting. -/

namespace Sys2Proof.Machine

/-! ## Blocks and page bytes (R155, R156) -/

/-- The blocks that no transfer holds, lowest first. -/
def Node.freeBlocks (n : Node) : List Nat :=
  (List.range Config.blockCount).filter fun b =>
    !(allFour.any fun t => match n.xfer t with | some r => r.blocks.contains b | none => false)

/-- The store address of byte `o` of a page. -/
def pageAddress (blocks : List Nat) (o : Nat) : Nat :=
  blocks.getD (o / Config.blockBytes) 0 * Config.blockBytes + o % Config.blockBytes
def writePage (m : Memory) (blocks : List Nat) (o : Nat) : List Byte → Memory
  | [] => m
  | b :: bs => writePage (Memory.write m (pageAddress blocks o) b) blocks (o + 1) bs
def readPage (m : Memory) (blocks : List Nat) (o size : Nat) : List Byte :=
  (List.range size).map fun i => Memory.read m (pageAddress blocks (o + i))

/-! ## State frames and events (R164, R170, R204) -/

/-- The delivery position, present in DELIVERING and DELIVERY_WAIT. -/
def Transfer.position (r : Transfer) : Option (Nat × Nat) :=
  match r.state with
  | .delivering | .deliveryWait => some (r.target, r.offset)
  | _ => none

/-- A service that can carry a state frame: ACTIVE or REDUCED (R164). -/
def Node.carries (n : Node) (id : Nat) : Bool :=
  match n.svc id with
  | some sv => sv.state != .shed
  | none => false

/-- The 11 bytes of a state frame (R204). -/
def stateFrame (t : Fin 4) (r : Transfer) : List Byte :=
  be1 t ++ be4 r.page ++ be1 r.state.code
    ++ opt1 (if r.state = .suspended then r.reason.map SuspendReason.code else none) ++ be4 r.received

/-- Offer a state frame built from the record as it stands (R164). -/
def Node.offerState (n : Node) (t : Fin 4) : Node :=
  match n.xfer t with
  | none => n
  | some r =>
    if n.carries r.service then
      let q := n.offerFrame r.service (stateFrame t r)
      q.1.setXfer t (some (if q.2 then
          { r with reported := r.received, timer := 0,
                   counts := { r.counts with framesSent := sat32 r.counts.framesSent } }
        else { r with counts := { r.counts with framesDropped := sat32 r.counts.framesDropped } }))
    else n

/-- A change of a transfer's state, with its TRANSFER_EVENT (R170). -/
def Node.transferTo (n : Node) (t : Fin 4) (old : Option TransferState) (r : Transfer) (cause : TransferCause) : Node :=
  let n := n.setXfer t (some r)
  n.report (.transferEvent t r.service r.page old r.state cause r.reason none r.received r.declared r.position
    r.blocks.length n.freeBlocks.length)

/-- Return one STORE-suspended transfer to RECEIVING, with a state frame (R162). -/
def Node.resumeOne (n : Node) (t : Fin 4) : Node :=
  match n.xfer t with
  | some r => (n.transferTo t (some r.state) { r with state := .receiving, reason := none } .storeFreed).offerState t
  | none => n

def Node.storeSuspended (n : Node) (t : Fin 4) : Bool :=
  match n.xfer t with
  | some r => r.state == .suspended && r.reason == some .store
  | none => false

/-- The first k STORE-suspended transfers resume, k being the number of free blocks (R162). -/
def Node.resumeStore (n : Node) : Node :=
  ((allFour.filter n.storeSuspended).take n.freeBlocks.length).foldl Node.resumeOne n

/-- The end of an event: STORE-suspended transfers resume, once, if the event freed blocks (R155, R162). -/
def Node.resumeIf (n : Node) (freed : Bool) : Node := if freed then n.resumeStore else n
/-- A transfer open in `n` is closed in `m`. One that delivery closes frees blocks, since its page has a byte or more (R157). -/
def Node.closedBy (n m : Node) : Bool := allFour.any fun t => (n.xfer t).isSome && (m.xfer t).isNone
/-- A transfer holds blocks, which its abort frees (R169). -/
def Node.holdsBlocks (n : Node) (t : Fin 4) : Bool := (n.xfer t).any fun r => r.blocks != []

/-- The record closes: its blocks are free and the TRANSFER_EVENT is sent (R168, R169). STORE-suspended transfers resume at the
event's end. -/
def Node.closeRecord (n : Node) (t : Fin 4) (r : Transfer) (last : TransferState) (cause : TransferCause)
    (why : Option AbortReason) : Node :=
  let n := n.setXfer t none
  n.report (.transferEvent t r.service r.page (some r.state) last cause none why r.received r.declared none 0
    n.freeBlocks.length)

/-- Delivery to the last target is complete (R168). -/
def Node.closeTransfer (n : Node) (t : Fin 4) : Node :=
  match n.xfer t with
  | none => n
  | some r =>
    let m := ((n.setXfer t (some { r with state := .done })).offerState t)
    m.closeRecord t r .done .done none

/-- Abort a transfer (R169): a state frame for reason HOST alone. -/
def Node.abortTransfer (n : Node) (t : Fin 4) (why : AbortReason) : Node :=
  match n.xfer t with
  | none => n
  | some r =>
    let m := if why = .host then (n.setXfer t (some { r with state := .aborted })).offerState t else n
    m.closeRecord t r .aborted .aborted (some why)
/-- A TRANSFER_ABORT: with no block held, none comes free and no transfer resumes (R162, R169). -/
def Node.hostAbort (n : Node) (t : Fin 4) : Node := (n.abortTransfer t .host).resumeIf (n.holdsBlocks t)

/-! ## Delivery (R166, R167) -/

/-- A port takes chunks while it operates with its ready level asserted (R166). -/
def Node.portReady (n : Node) (k : Fin 4) : Bool := n.portOperating k && n.readyLevel k

/-- The port of the current target. -/
def Transfer.currentPort (r : Transfer) : Option (Fin 4) := r.targets[r.target]?.map (·.1)

/-- One state frame at the end of an event that wants one. -/
def Node.offerIf (n : Node) (t : Fin 4) (want : Bool) : Node := if want then n.offerState t else n

/-- Enter DELIVERY_WAIT (R166). -/
def Node.waitTarget (n : Node) (t : Fin 4) (r : Transfer) : Node :=
  n.transferTo t (some r.state) { r with state := .deliveryWait } .targetNotReady

/-- Hand one chunk to the port's receive queue (R166). -/
def Node.handChunk (n : Node) (t : Fin 4) (r : Transfer) (k : Fin 4) (channel : Nat) : Node :=
  let size := min r.chunk (r.declared - r.offset)
  let n := n.modPort k fun p => p.join { channel := channel, data := readPage n.te.store r.blocks r.offset size }
  n.setXfer t (some { r with offset := r.offset + size, counts := { r.counts with chunks := sat32 r.counts.chunks } })

/-- Deliver while the port takes chunks and its queue admits them, target after target; `want` says that the event owes the
head-end a state frame, of which one is offered at its end (R164, R166). -/
def deliverLoop : Nat → Node → Fin 4 → Bool → Node
  | 0, n, t, want => n.offerIf t want
  | fuel + 1, n, t, want =>
    match n.xfer t with
    | none => n
    | some r =>
      if r.state ≠ .delivering then n.offerIf t want
      else match r.targets[r.target]? with
        | none => n.closeTransfer t
        | some (k, channel) =>
          if r.declared ≤ r.offset then
            if r.target + 1 < r.targets.length then
              deliverLoop fuel (n.setXfer t (some { r with target := r.target + 1, offset := 0 })) t want
            else n.closeTransfer t
          else if !n.portReady k then (n.waitTarget t r).offerState t
          else if (n.port k).admits (min r.chunk (r.declared - r.offset)) then
            deliverLoop fuel (n.handChunk t r k channel) t want
          else n.offerIf t want

/-- Every round hands a byte or more to one of four queues of 8,192 bytes, or passes to one of at most four targets. -/
def deliveryRounds : Nat := 4 * 8192 + 8
def Node.deliver (n : Node) (t : Fin 4) (want : Bool) : Node := deliverLoop deliveryRounds n t want

/-- A transfer waiting for room on the port delivers. -/
def Node.roomOne (k : Fin 4) (n : Node) (t : Fin 4) : Node :=
  match n.xfer t with
  | some r => if r.state = .delivering && r.currentPort == some k then n.deliver t false else n
  | none => n
/-- A frame has left a port's queue: the transfers waiting for room are served in transfer number order (R167). -/
def Node.roomOn (n : Node) (k : Fin 4) : Node :=
  let m := allFour.foldl (Node.roomOne k) n
  m.resumeIf (n.closedBy m)

/-- A transfer takes the readiness of a port: delivering to it, it waits; waiting for it, it delivers again (R166). -/
def Node.readyOne (k : Fin 4) (n : Node) (t : Fin 4) : Node :=
  match n.xfer t with
  | some r =>
    if r.currentPort == some k then
      if r.state = .delivering && !n.portReady k then (n.waitTarget t r).offerState t
      else if r.state = .deliveryWait && n.portReady k then
        (n.transferTo t (some r.state) { r with state := .delivering } .targetReady).deliver t true
      else n
    else n
  | none => n
/-- A port's readiness may have changed: the transfers take it in transfer number order (R166). -/
def Node.readyOn (n : Node) (k : Fin 4) : Node :=
  let m := allFour.foldl (Node.readyOne k) n
  m.resumeIf (n.closedBy m)

/-! ## Segments (R159 to R161) -/

def Transfer.count (r : Transfer) (f : TransferCounts → TransferCounts) : Transfer := { r with counts := f r.counts }

/-- An in-order segment: a block is taken if one is needed; none free, the transfer is suspended (R161). -/
def Node.appendSegment (n : Node) (t : Fin 4) (r : Transfer) (data : List Byte) : Node :=
  let after := r.received + data.length
  let needed := ceilDiv after Config.blockBytes - ceilDiv r.received Config.blockBytes
  let blocks : Option (List Nat) :=
    if needed = 0 then some r.blocks else n.freeBlocks.head?.map fun b => r.blocks ++ [b]
  match blocks with
  | none => (n.transferTo t (some r.state) { r with state := .suspended, reason := some .store } .storeFull).offerState t
  | some blocks =>
    let n := { n with te := { n.te with store := writePage n.te.store blocks r.received data } }
    let r := ({ r with blocks := blocks, received := after }).count fun c => { c with appended := sat32 c.appended }
    if after = r.declared then
      (n.transferTo t (some r.state) { r with state := .delivering, target := 0, offset := 0 } .pageComplete).deliver t true
    else (n.setXfer t (some r)).offerIf t (decide (r.reported + 8192 ≤ after))

/-- A matched segment in RECEIVING is judged (R160). -/
def Node.judgeSegment (n : Node) (t : Fin 4) (r : Transfer) (o : Nat) (data : List Byte) : Node :=
  if r.declared < o + data.length then
    (n.setXfer t (some (r.count fun c => { c with rejected := sat32 c.rejected }))).offerState t
  else if o < r.received then n.setXfer t (some (r.count fun c => { c with duplicates := sat32 c.duplicates }))
  else if r.received < o then
    (n.setXfer t (some (r.count fun c => { c with gaps := sat32 c.gaps }))).offerState t
  else n.appendSegment t r data

/-- The transfer engine takes a segment (R159, R204). -/
def Node.segment (n : Node) (id : Nat) (frame : List Byte) : Node :=
  if frame.length < 10 || 1033 < frame.length then { n with te := { n.te with malformed := sat32 n.te.malformed } }
  else
    let unmatched : Node := { n with te := { n.te with unmatched := sat32 n.te.unmatched } }
    if 3 < f1 frame 0 then unmatched
    else
      let t := fin4 (f1 frame 0)
      match n.xfer t with
      | none => unmatched
      | some r =>
        if r.service ≠ id ∨ r.page ≠ f4 frame 1 then unmatched
        else match r.state with
          | .receiving => n.judgeSegment t r (f4 frame 5) (frame.drop 9)
          | .delivering | .deliveryWait =>
            (n.setXfer t (some (r.count fun c => { c with outOfState := sat32 c.outOfState }))).offerState t
          | _ => n.setXfer t (some (r.count fun c => { c with outOfState := sat32 c.outOfState }))

/-! ## The service shed and placed again (R163) -/

/-- The open transfer that a service carries. -/
def Node.transferOf (n : Node) (id : Nat) : Option (Fin 4) :=
  allFour.find? fun t => match n.xfer t with | some r => r.service == id | none => false

def Node.transferShed (n : Node) (id : Nat) : Node :=
  match n.transferOf id with
  | none => n
  | some t =>
    match n.xfer t with
    | some r =>
      if r.state = .receiving || (r.state = .suspended && r.reason == some .store) then
        n.transferTo t (some r.state) { r with state := .suspended, reason := some .shed } .serviceShed
      else n
    | none => n

def Node.transferPlaced (n : Node) (id : Nat) : Node :=
  match n.transferOf id with
  | none => n
  | some t =>
    match n.xfer t with
    | some r =>
      if r.state = .suspended && r.reason == some .shed then
        (n.transferTo t (some r.state) { r with state := .receiving, reason := none } .servicePlaced).offerState t
      else n
    | none => n

/-! ## Commands -/

/-- The state frame timer stands at 4,000: a periodic state frame is offered, and the timer returns to 0 (R165). -/
def Node.stateTimerEnd (n : Node) (t : Fin 4) : Node :=
  match n.xfer t with
  | some r => if r.timer = 4000 then (n.setXfer t (some { r with timer := 0 })).offerState t else n
  | none => n

def execStateFrameTimer (t : Fin 4) (s : State) : Result := onNode s fun n => n.stateTimerEnd t

end Sys2Proof.Machine
end

