-- ==== Sys2Proof/Machine/Readings.lean ====
section
/-! DEFINITION. Readings of the poll controller and their forwarding into the weather service (9.5). The commands of the poll
line stand in Polling.lean. -/

namespace Sys2Proof.Machine

def allStations : List (Fin 8) := [0, 1, 2, 3, 4, 5, 6, 7]

/-- A weather reading frame (R204): station, address, age, length, reading. -/
def readingFrame (k : Fin 8) (address : Nat) (age : BitVec 32) (reading : List Byte) : List Byte :=
  be1 k ++ be1 address ++ be4 age.toNat ++ be1 reading.length ++ reading

/-- The weather service while it is named and ACTIVE or REDUCED. -/
def Node.weatherOpen (n : Node) : Option Nat := n.pc.service.filter n.carries

/-- Offer a station's latest reading: enqueued, it is sent; tail-dropped, it stays unsent and the drop is counted; with no
service to take it, it is unsent (R181 steps 3 and 4, R182). -/
def Node.forwardReading (n : Node) (k : Fin 8) : Node :=
  match (n.station k).reading with
  | none => n
  | some r =>
    match n.weatherOpen with
    | none => n.modStation k fun x => { x with unsent := true }
    | some id =>
      let q := n.offerFrame id (readingFrame k (n.station k).address (n.runTime - r.capture) r.bytes)
      q.1.modStation k fun x =>
        if q.2 then { x with unsent := false }
        else { x with unsent := true, counts := { x.counts with forwardDrops := sat32 x.counts.forwardDrops } }

/-- The catch-up: every unsent reading is offered, in station order (R182). -/
def Node.catchUp (n : Node) : Node :=
  allStations.foldl (fun n k => if (n.station k).unsent then n.forwardReading k else n) n

/-- The placement of a service from SHED brings the catch-up when it is the weather service (R182). -/
def Node.weatherPlaced (n : Node) (id : Nat) : Node := if n.pc.service = some id then n.catchUp else n

end Sys2Proof.Machine
end

