-- ==== Sys2Proof/Machine/CellSwitch.lean ====
section
/-! DEFINITION. The cell switch (chapter 3): staging records, their application, notices and forwarded fragments. -/

namespace Sys2Proof.Machine

/-! ## Staging (R53, R54) -/

/-- Distance of a frame count ahead of the one in force (R53). -/
def ahead (inForce e : BitVec 16) : Nat := (e - inForce).toNat

/-- The effective frame of a record made now: the later of f + lead and the latest effective frame in the list. -/
def Node.effectiveFrame (n : Node) : BitVec 16 :=
  let far := (n.cs.staging.map fun r => ahead n.clk.frame r.eff).foldl max n.cfg.lead
  n.clk.frame + BitVec.ofNat 16 far

/-- A notice takes the place of the not-started one of its id, or joins the end (R57). -/
def enqueueNotice (q : List Notice) (m : Notice) : List Notice :=
  if q.any (·.id == m.id) then q.map fun x => if x.id = m.id then m else x else q ++ [m]

/-- The distinct cells of a half set (R57). -/
def HalfSet.cells (h : HalfSet) : List Nat := if h.a.isEmpty then h.b else h.a

/-- The admission unit hands a service's new half set: its record is made, or replaced and moved to the end, and a notice
enters both queues (R53, R54, R57). -/
def Node.handHalves (n : Node) (id : Nat) (cls : Class) (h : HalfSet) : Node :=
  let e := n.effectiveFrame
  let m : Notice := { id := id, cls := cls, sides := h.sides, eff := e, cells := h.cells }
  let queue (w : SwitchLine) : SwitchLine := { w with waiting := enqueueNotice w.waiting m }
  { n with cs := { n.cs with
      staging := n.cs.staging.filter (·.id != id) ++ [{ id := id, cls := cls, set := h, eff := e }]
      line := ⟨queue n.cs.line.u, queue n.cs.line.d⟩ } }

/-! ## Application (R55) -/

/-- The serving block of the id is told its halves: the call controller for 56..63, the packet engine for 0..55 (R52, R55,
R116, R141). -/
def Node.tellServing (n : Node) (id : Nat) (h : HalfSet) : Node :=
  if id < 56 then n.peApplied id h
  else n.modPhone (fin8 (id - 56)) fun ph =>
    { ph with liveCell := if (n.svc id).isSome then h.cells.head? else none }

/-- Apply one record: dropped halves idle, the new set live-owned, the serving block told (R55). -/
def Node.applyRecord (n : Node) (r : Staging) : Node :=
  let n := { n with cs := { n.cs with
      live := setOwner n.cs.live r.id r.set
      staging := n.cs.staging.filter (·.id != r.id) } }
  n.tellServing r.id r.set

/-- The frame count of the next frame start (R44). -/
def Clock.next (c : Clock) : BitVec 16 := if c.started then c.frame + 1 else c.frame

/-- The record at the head of the list, when it falls due at the next frame start, is applied (R55). -/
def Node.stagingApply (n : Node) : Node :=
  match n.cs.staging with
  | r :: _ => if r.eff = n.clk.next then n.applyRecord r else n
  | [] => n

/-- All records due at the next frame start are applied, in list order. -/
def Node.applyDue (n : Node) : Node := n.cs.staging.foldl (fun n _ => n.stagingApply) n

/-! ## Notices (R58 to R61) -/

/-- The next fragment of a notice being sent goes out; after its last one the notice leaves the queue (R58). -/
def SwitchLine.sendFragment (w : SwitchLine) (x : NoticeSending) : List Byte × SwitchLine :=
  (x.fragment, { w with
    sending := if x.next + 1 < x.notice.fragments then some { x with next := x.next + 1 } else none })

/-- The notice field of the frame begun on a transmitting line: the forwarded field, else this node's next fragment, else
empty (R59). -/
def SwitchLine.noticeOut (w : SwitchLine) (origin : Nat) : List Byte × SwitchLine :=
  match w.forward with
  | some f => (f, { w with forward := none })
  | none =>
    match w.sending, w.waiting with
    | some x, _ => w.sendFragment x
    | none, m :: rest =>
      ({ w with waiting := rest, seq := w.seq + 1 } : SwitchLine).sendFragment
        { notice := m, origin := origin, seq := w.seq, next := 0 }
    | none, [] => (emptyNotice, w)

/-- A field that carries this node's own number: counted; reported when it is the first since START or comes 240,000 frame
starts or more after the one before (R61). -/
def Node.nodeConflict (n : Node) (l : Line) : Node :=
  let due := match n.cs.conflictAge with
    | none => true
    | some age => decide (240000 ≤ age)
  let n := { n with cs := { n.cs with conflicts := sat16 n.cs.conflicts, conflictAge := some 0 } }
  if due then n.report (.nodeConflict l n.cfg.nodeNumber n.cs.conflicts) else n

/-- A notice field confirmed on line `l` (R59, R61). -/
def Node.noticeConfirmed (n : Node) (l : Line) (f : List Byte) : Node :=
  if noticeEmpty f then n
  else if (f.headD 0).toNat = n.cfg.nodeNumber then n.nodeConflict l
  else if (n.line.get l.other).state = .disabled then n
  else
    let n := if (n.cs.line.get l.other).forward.isSome then n.modSwitch l fun w => { w with lost := sat16 w.lost } else n
    n.modSwitch l.other fun w => { w with forward := some f }

/-- A line enters DISABLED: its waiting forwarded field is lost, counted on the line that received it, and its notice being
sent goes back to not-started at the head of the queue, or is discarded when one of its id waits (R59, R60). -/
def Node.noticeDisabled (n : Node) (l : Line) : Node :=
  let w := n.cs.line.get l
  let n := if w.forward.isSome then n.modSwitch l.other fun w => { w with lost := sat16 w.lost } else n
  n.modSwitch l fun w =>
    { w with
      forward := none
      sending := none
      waiting := match w.sending with
        | some x => if w.waiting.any (·.id == x.notice.id) then w.waiting else x.notice :: w.waiting
        | none => w.waiting }

/-- A line enters SEEKING or DISABLED: the hold counter starts from 0 (R50). -/
def Node.lineFails (n : Node) (l : Line) : Node :=
  n.modSwitch l fun w => { w with hold := 0, newest := none, arrived := 0 }

/-- A receive line in SEEKING or DISABLED is failed (R50). -/
def LineState.failed : LineState → Bool
  | .disabled | .seeking => true
  | .training | .up => false

/-- The ninth frame start on a failed line: the held payload gives way to idle fill (R50). -/
def Node.lineHoldEnd (n : Node) (l : Line) : Node :=
  if (n.line.get l).state.failed && (n.cs.line.get l).hold == 8 then
    n.modSwitch l fun w => { w with presented := none }
  else n

/-! ## Commands -/

def execStagingApply (s : State) : Result := onNode s Node.stagingApply
def execLineHoldEnd (l : Line) (s : State) : Result := onNode s fun n => n.lineHoldEnd l

end Sys2Proof.Machine
end

