-- ==== Sys2Proof/Machine/CallCore.lean ====
section
/-! DEFINITION. Calls (chapter 6): what a call record shows, the reception of its cell, its events, and the opening of a call
that a placement has given its service. The commands of the call controller stand in Calls.lean. -/

namespace Sys2Proof.Machine

/-- The states in which a call holds its service (R120). -/
def CallState.holds : CallState → Bool
  | .idle | .queued => false
  | .opened | .answered | .held | .ringing | .clearing => true
/-- The states in which voice flows (R116, R117). -/
def CallState.talks : CallState → Bool
  | .opened | .answered => true
  | .idle | .queued | .held | .ringing | .clearing => false

/-- The id of a port's call service (R64). -/
def callId (p : Fin 8) : Nat := 56 + p.val
/-- A call is isolated while it holds a service and its selection is none (R118). -/
def Phone.isolated (ph : Phone) : Bool := ph.call.holds && ph.selected.isNone

/-- The tone code of a call record: SILENT 00h, RING_BACK 01h, WAIT 02h, ISOLATED 03h, CLEARING 04h (R119, R203). -/
def Phone.tone (ph : Phone) : Byte :=
  match ph.call with
  | .idle | .held | .ringing => 0x00#8
  | .queued => if (ph.cadence.map (·.onPhase)).getD false then 0x02#8 else 0x00#8
  | .opened => if ph.isolated then 0x03#8 else 0x01#8
  | .answered => if ph.isolated then 0x03#8 else 0x00#8
  | .clearing => 0x04#8

/-- A port is enabled in RUNNING (R111). -/
def Node.phoneOn (n : Node) (p : Fin 8) : Bool := (n.phone p).set.enabled && n.op == .running

/-- The ring output is active: the on-phase of a ring cadence, or a test drive (R130, R132). -/
def Phone.ringActive (ph : Phone) : Bool :=
  match ph.cadence with
  | some c => c.kind == .ring && c.onPhase
  | none => ph.testDrive
/-- The level of the ring output, by the polarity in force (R131). -/
def Phone.ringHigh (ph : Phone) : Bool := ph.ringActive == (ph.polarity == .normal)

/-- A cadence begins a period with the values in force (R130). -/
def Common.cadence (c : Common) (k : CadenceKind) : Cadence :=
  match k with
  | .ring => { kind := .ring, onPhase := true, elapsed := 0, period := c.ringPeriod, onTime := c.ringOn }
  | .wait => { kind := .wait, onPhase := true, elapsed := 0, period := c.waitPeriod, onTime := c.waitOn }
/-- The cadence stops at once; no ring cadence running, a new polarity is in force (R130, R131). -/
def Phone.stopCadence (ph : Phone) : Phone := { ph with cadence := none, polarity := ph.set.polarity }

/-- A CALL_EVENT, with the call as it stands after the change (R133). -/
def Node.callEvent (n : Node) (p : Fin 8) (old : CallState) (outcome : CallOutcome) : Node :=
  let ph := n.phone p
  n.report (.callEvent p ph.set.kilometre old ph.call outcome ph.origin
    (if ph.call.holds then some (callId p) else none) (if ph.call.holds then ph.selected else none) ph.isolated ph.hook
    ph.clearLock ph.start)

/-- The receive selection of a call: its service's primary side, the other, or none, by usability (R117). -/
def Node.callSelection (n : Node) (p : Fin 8) : Option Side := (n.svc (callId p)).bind fun v => n.pickSide v.primary

/-- A call whose service has just been made enters OPEN: from IDLE as a caller's call, or from QUEUED (R121, R122). -/
def Node.openCall (n : Node) (p : Fin 8) : Node :=
  let old := (n.phone p).call
  let pick := n.callSelection p
  let n := { n with cc := { n.cc with waiting := n.cc.waiting.filter (· != p) } }
  let n := n.modPhone p fun ph =>
    { ph.stopCadence with
      call := .opened, origin := ph.origin.or (some .caller), start := ph.start.or (some n.runTime),
      selected := pick, testDrive := false }
  n.callEvent p old .placed

end Sys2Proof.Machine
end

