-- ==== Sys2Proof/Machine/Admission.lean ====
section
/-! DEFINITION. The admission unit (chapters 4 and 5): grant arithmetic, placement, pre-emption, shedding, the restoration
pass, reroute, revert, definition and release. Its requests stand in ServiceRequests.lean. -/

namespace Sys2Proof.Machine

/-! ## The class map and the views of the service table (R65 to R69, R89) -/

def ClassMap.level (m : ClassMap) : Class → Nat
  | .e => 0 | .t => m.t | .c => m.c | .s => m.s | .w => m.w
def ClassMap.ceilingOf (m : ClassMap) (lv : Nat) : Nat := m.ceiling[fin4 lv]
/-- Level 0 always may pre-empt and is never pre-emptible (R67). -/
def ClassMap.mayPreempt (m : ClassMap) (lv : Nat) : Bool := lv == 0 || m.may.toList.getD (lv - 1) false
def ClassMap.preemptible (m : ClassMap) (lv : Nat) : Bool := lv != 0 && m.pre.toList.getD (lv - 1) false

/-- Halves that a grant needs (R73). -/
def Protection.halves (p : Protection) (g : Nat) : Nat :=
  match p with
  | .dual => 2 * g
  | .reroute => g
/-- Halves owned by a service. -/
def Service.halves (v : Service) : Nat := v.prot.halves v.cells.length
/-- Halves owned in the allotment table by services of a level (R69). -/
def Node.levelUse (n : Node) (lv : Nat) : Nat := ((n.au.services.filter (·.level == lv)).map (·.halves)).sum
/-- The halves a service owns: both halves of each cell, or the current side's (R65). -/
def Service.halfSet (v : Service) : HalfSet :=
  match v.prot, v.current with
  | .dual, _ => { a := v.cells, b := v.cells }
  | .reroute, some .a => { a := v.cells }
  | .reroute, some .b => { b := v.cells }
  | .reroute, none => {}
/-- The header cell: the lowest cell of a packet service (R75). -/
def Service.header (v : Service) : Option Nat := if v.cls = .e then none else v.cells.head?

/-- Order by a level, a number and an id, each ascending. -/
def numberedLe (x y : Nat × Nat × Nat) : Bool :=
  x.1 < y.1 || (x.1 == y.1 && (x.2.1 < y.2.1 || (x.2.1 == y.2.1 && x.2.2 ≤ y.2.2)))
def Service.admKey (v : Service) : Nat × Nat × Nat := (v.level, v.adm.getD 0, v.id)
def Service.shedKey (v : Service) : Nat × Nat × Nat := (v.level, v.shedNo.getD 0, v.id)
/-- Services in order of level, then admission order number (R98, R100). -/
def byAdmission (l : List Service) : List Service := sortBy (fun x y => numberedLe x.admKey y.admKey) l
/-- Victim order: highest level number first, then most recently admitted, then highest id (R92). -/
def byVictim (l : List Service) : List Service := sortBy (fun x y => numberedLe y.admKey x.admKey) l
/-- The shed list, in its order (R89). -/
def Node.shedServices (n : Node) : List Service :=
  sortBy (fun x y => numberedLe x.shedKey y.shedKey) (n.au.services.filter (·.state == .shed))
def Node.shedIds (n : Node) : List Nat := n.shedServices.map (·.id)
/-- The services that own halves. -/
def Node.placed (n : Node) : List Service := n.au.services.filter (·.state != .shed)

/-! ## Grant arithmetic (R70 to R72) -/

/-- A grant: its cells, its remainder, whether the class minimum raised it. -/
structure Grant where
  cells : Nat
  rem : Nat
  clamped : Bool
  deriving DecidableEq, Repr

/-- The rounded count of q and r (R70 step 3). -/
def roundCount (m : Rounding) (q r : Nat) : Nat :=
  match m with
  | .down => q
  | .up => if 0 < r then q + 1 else q
  | .nearestEven =>
    if r < 32000 then q else if 32000 < r then q + 1 else if q % 2 = 0 then q else q + 1

def Class.minimum : Class → Nat
  | .e => 1
  | .t | .c | .s | .w => 2

/-- The grant of a rate (R70, R71). -/
def grantOf (cls : Class) (m : Rounding) (rate : Nat) : Grant :=
  let x := if cls = .e then rate else rate + 64000
  let c := roundCount m (x / 64000) (x % 64000)
  { cells := max cls.minimum c, rem := x % 64000, clamped := c < cls.minimum }

/-- The granted payload rate (R71). -/
def payloadRate (cls : Class) (g : Nat) : Nat := if cls = .e then g * 64000 else (g - 1) * 64000

/-- The mode used: the service's own, or the node default at that time (R70). -/
def RequestedMode.used (m : RequestedMode) (dflt : Rounding) : Rounding :=
  match m with
  | .mode r => r
  | .nodeDefault => dflt

/-! ## Placement without pre-emption (R74, R75) -/

/-- The halves of a cell that a placement needs. -/
structure Need where
  a : Bool
  b : Bool
  deriving DecidableEq, Repr

def Protection.need (p : Protection) (x : Side) : Need :=
  match p with
  | .dual => { a := true, b := true }
  | .reroute => { a := x == .a, b := x == .b }

/-- An owner that leaves a half open: none, or one that counts as free. -/
def opens (free : Nat → Bool) (o : Option Nat) : Bool := o.all free
def HalfEntry.fits (e : HalfEntry) (need : Need) (free : Nat → Bool) : Bool :=
  (!need.a || opens free e.a) && (!need.b || opens free e.b)
/-- The allotted cells each of whose needed halves is free or has an owner that counts as free, ascending. -/
def Node.cellsFor (n : Node) (need : Need) (free : Nat → Bool) : List Nat :=
  (n.au.allot.filter fun e => e.fits need free).map (·.cell)

/-- Each cell of an ascending list with its rank in its slot (R75). -/
def ranked (slot next : Nat) : List Nat → List (Nat × Nat)
  | [] => []
  | c :: cs => if c / 12 = slot then (next, c) :: ranked slot (next + 1) cs else (0, c) :: ranked (c / 12) 1 cs
/-- The usable cells in the order in which a placement takes them (R75). -/
def Order.rank (o : Order) (cells : List Nat) : List Nat :=
  match o with
  | .linear => cells
  | .spread =>
    let rs := ranked 78 0 cells
    (List.range 12).flatMap fun r => (rs.filter (·.1 == r)).map (·.2)
/-- The cells taken, ascending. -/
def Order.take (o : Order) (g : Nat) (usable : List Nat) : List Nat :=
  let chosen := (o.rank usable).take g
  usable.filter (chosen.contains ·)

/-- An attempt without pre-emption for a grant on a side: the cells it takes, or none when it is not feasible (R74). -/
def Node.plainCells (n : Node) (v : Service) (x : Side) (g : Nat) : Option (List Nat) :=
  let usable := n.cellsFor (v.prot.need x) (· == v.id)
  if g ≤ usable.length ∧ n.levelUse v.level - v.halves + v.prot.halves g ≤ n.au.map.ceilingOf v.level then
    some (v.order.take g usable)
  else none

/-- A service, with its new state and side, owns exactly these cells; the half set goes to the cell switch (R74, R53). -/
def Node.takeCells (n : Node) (v : Service) (cells : List Nat) : Node :=
  let w := { v with cells := cells }
  let n := ({ n with au := { n.au with allot := setOwner n.au.allot w.id w.halfSet } }).putSvc w
  n.handHalves w.id w.cls w.halfSet

/-- Every half of a service becomes unowned (R88 step 1, R101 step 1). -/
def Node.freeHalves (n : Node) (v : Service) : Node :=
  ({ n with au := { n.au with allot := setOwner n.au.allot v.id {} } }).putSvc { v with cells := [] }

/-! ## Reports, counters, shedding (R66, R85, R88) -/

/-- A SERVICE_EVENT for a service as it stands (R85). -/
def Node.svcEvent (n : Node) (v : Service) (old : Option SvcState) (cause : SvcCause) : Node :=
  n.report (.serviceEvent v.id v.cls v.level v.prot old (some v.state) cause v.reason v.current v.cells.length v.header v.adm
    v.shedNo)
/-- The same for the record that the table holds for an id. -/
def Node.svcEventOf (n : Node) (id : Nat) (old : Option SvcState) (cause : SvcCause) : Node :=
  match n.svc id with
  | some v => n.svcEvent v old cause
  | none => n

/-- The admission counter advances (R66). -/
def Node.countAdmission (n : Node) : Node := { n with au := { n.au with admCounter := sat32 n.au.admCounter } }
def Node.countShed (n : Node) : Node := { n with au := { n.au with shedCounter := sat32 n.au.shedCounter } }

def ShedReason.cause : ShedReason → SvcCause
  | .preEmpted => .preEmpted
  | .pathLost => .pathLost
  | .economy => .economy
  | .noRoom => .defined

/-- Shed a service (R88); the transfer it carries is suspended (R163). -/
def Node.shed (n : Node) (v : Service) (why : ShedReason) : Node :=
  let n := (n.freeHalves v).countShed
  let w := { v with cells := [], state := .shed, reason := some why, current := none, shedNo := some n.au.shedCounter }
  let n := (n.putSvc w).handHalves v.id v.cls {}
  (n.svcEvent w (some v.state) why.cause).transferShed v.id
def Node.shedId (n : Node) (id : Nat) (why : ShedReason) : Node :=
  match n.svc id with
  | some v => n.shed v why
  | none => n

/-! ## Pre-emption (R91 to R94) -/

/-- The eligible victims of an attempt at a level, in victim order (R91, R92). -/
def Node.victims (n : Node) (lv : Nat) : List Service :=
  byVictim (n.placed.filter fun w => lv < w.level && n.au.map.preemptible w.level)
/-- The number of cells whose needed halves are unowned or owned by one of `ids`. -/
def Node.available (n : Node) (need : Need) (ids : List Nat) : Nat := (n.cellsFor need (ids.contains ·)).length
/-- Add victims in order until `g` cells are available (R92). -/
def Node.addVictims (n : Node) (need : Need) (g : Nat) : List Nat → List Nat → List Nat
  | [], chosen => chosen
  | v :: vs, chosen => if g ≤ n.available need chosen then chosen else n.addVictims need g vs (chosen ++ [v])
/-- Drop the victims not needed, the last added examined first (R93). -/
def Node.pruneVictims (n : Node) (need : Need) (g : Nat) : List Nat → List Nat → List Nat
  | [], chosen => chosen
  | v :: vs, chosen =>
    let without := chosen.filter (· != v)
    n.pruneVictims need g vs (if g ≤ n.available need without then without else chosen)

/-- An attempt with pre-emption: the node with its victims shed, and the cells taken (R91 to R94). -/
def Node.preemptCells (n : Node) (v : Service) (x : Side) (g : Nat) : Option (Node × List Nat) :=
  let need := v.prot.need x
  let eligible := (n.victims v.level).map (·.id)
  if g ≤ n.available need eligible ∧ n.levelUse v.level + v.prot.halves g ≤ n.au.map.ceilingOf v.level then
    let added := n.addVictims need g eligible []
    let chosen := n.pruneVictims need g added.reverse added
    let m := chosen.foldl (fun m id => m.shedId id .preEmpted) n
    some (m, v.order.take g (m.cellsFor need (· == v.id)))
  else none

/-- One attempt: its grant, the state it gives, whether it pre-empts. -/
structure Attempt where
  grant : Nat
  state : SvcState
  preempt : Bool
  deriving DecidableEq, Repr

/-- What a successful attempt leaves: the node, the cells, the state. -/
structure Room where
  node : Node
  cells : List Nat
  state : SvcState
  deriving DecidableEq, Repr

def Node.attempt (n : Node) (v : Service) (x : Side) (t : Attempt) : Option Room :=
  if t.preempt then
    if n.au.map.mayPreempt v.level then
      (n.preemptCells v x t.grant).map fun r => { node := r.1, cells := r.2, state := t.state }
    else none
  else (n.plainCells v x t.grant).map fun cs => { node := n, cells := cs, state := t.state }
/-- The first attempt that succeeds ends the sequence (R80). -/
def Node.attempts (n : Node) (v : Service) (x : Side) (l : List Attempt) : Option Room := l.findSome? (n.attempt v x)

def Service.fullAttempts (v : Service) : List Attempt := [⟨v.full, .active, false⟩, ⟨v.full, .active, true⟩]
def Service.floorAttempts (v : Service) : List Attempt :=
  match v.floor with
  | some f => [⟨f, .reduced, false⟩, ⟨f, .reduced, true⟩]
  | none => []

/-- The side that a placed service of this protection counts as its current side. -/
def Protection.current (p : Protection) (x : Side) : Option Side :=
  match p with
  | .dual => none
  | .reroute => some x

/-- A placement from nothing: a new admission order number, the halves, the state (R66, R81, R97). -/
def Node.placeNew (r : Room) (v : Service) (x : Side) : Node :=
  let n := r.node.countAdmission
  n.takeCells { v with
    state := r.state, reason := none, shedNo := none, adm := some n.au.admCounter, current := v.prot.current x } r.cells

/-- The side a placement of this service works on: any for DUAL, the target side for REROUTE, none without one (R76). -/
def Node.targetSide (n : Node) (v : Service) : Option Side :=
  match v.prot with
  | .dual => some v.primary
  | .reroute => n.pickSide v.primary

/-! ## Call services (R82) -/

/-- The record that a phone port's call asks for (R82). Its requested mode NEAREST_EVEN, quiet and wait clear are the model's
choice, log 50. -/
def callService (p : Fin 8) (primary : Side) : Service :=
  { id := callId p, cls := .e, level := 0, prot := .dual, primary := primary, rate := 64000, mode := .mode .nearestEven,
    modeUsed := .nearestEven, binding := .phone p, full := 1, state := .active }

/-- The admission unit makes the call service of a port, or none when both attempts fail. -/
def Node.callPlacement (n : Node) (p : Fin 8) : Option Node :=
  let v := callService p (n.phone p).set.preferred
  (n.attempts v v.primary v.fullAttempts).map fun r =>
    (Node.placeNew r v v.primary).svcEventOf v.id none .defined

/-! ## The restoration pass (R95 to R99) -/

/-- A node and a number of services placed so far. -/
structure Pass where
  node : Node
  placed : Nat := 0
  moved : Bool := false
  deriving DecidableEq, Repr

/-- Step 1: the waiting list is served from its head until a port cannot be placed (R96). -/
def passCalls : List (Fin 8) → Pass → Pass
  | [], q => q
  | p :: ps, q =>
    match q.node.callPlacement p with
    | some n => passCalls ps { q with node := n.openCall p, placed := q.placed + 1 }
    | none => q

/-- A shed-list entry is tried (R97). -/
def Pass.restore (q : Pass) (id : Nat) : Pass :=
  match q.node.svc id with
  | none => q
  | some v =>
    if q.node.au.economy && 2 ≤ v.level then q
    else match q.node.targetSide v with
      | none => q
      | some x =>
        match q.node.attempts v x ((v.fullAttempts ++ v.floorAttempts).filter fun t => !t.preempt) with
        | none => q
        | some r =>
          let n := (Node.placeNew r v x).svcEventOf id (some .shed) .restored
          { q with node := (n.transferPlaced id).weatherPlaced id, placed := q.placed + 1 }

/-- A REDUCED service is tried at its full grant (R98). -/
def Pass.grow (q : Pass) (id : Nat) : Pass :=
  match q.node.svc id with
  | none => q
  | some v =>
    match q.node.plainCells v (v.current.getD v.primary) v.full with
    | none => q
    | some cs => { q with node := (q.node.takeCells { v with state := .active } cs).svcEventOf id (some v.state) .grown }

/-- Move a REROUTE service to its primary side with its present grant, without pre-emption (R99, R103). -/
def Node.moveHome (n : Node) (v : Service) : Option Node :=
  (n.plainCells v v.primary v.cells.length).map fun cs =>
    (n.takeCells { v with current := some v.primary } cs).svcEventOf v.id (some v.state) .reverted

def Pass.home (q : Pass) (id : Nat) : Pass :=
  match (q.node.svc id).bind q.node.moveHome with
  | some n => { q with node := n, moved := true }
  | none => q

/-- The REROUTE services away from their primary side (R99, R103). -/
def Node.away (n : Node) : List Service :=
  byAdmission (n.placed.filter fun v => v.prot == .reroute && v.current == some v.primary.other)

/-- The four steps of one pass, in order. -/
def Pass.steps (q : Pass) : Pass :=
  let q := passCalls q.node.cc.waiting { q with moved := false }
  let q := q.node.shedIds.foldl Pass.restore q
  let q := ((byAdmission (q.node.au.services.filter (·.state == .reduced))).map (·.id)).foldl Pass.grow q
  ((q.node.away.filter fun v => (q.node.pathOf v.primary).state == .reachable).map (·.id)).foldl Pass.home q

/-- Passes follow one another while step 4 moves a service; each leaves fewer to move than the one before (R99), so that they end
within as many as there are services, and one. The services placed are counted over all of them, with the call services of their
first steps: the model's choice, log 55. -/
def passLoop : Nat → Pass → Pass
  | 0, q => q
  | fuel + 1, q =>
    let r := q.steps
    if r.moved then passLoop fuel r else r
def Node.passCounted (n : Node) : Pass := passLoop (n.au.services.length + 1) { node := n }
def Node.pass (n : Node) : Node := n.passCounted.node

/-! ## Reroute and revert (R100 to R103) -/

/-- One mover: it frees its halves, and is placed on the other side or shed (R101). -/
def Node.rerouteOne (n : Node) (x : Side) (id : Nat) : Node :=
  match n.svc id with
  | none => n
  | some v =>
    let m := n.freeHalves v
    let w := { v with cells := [] }
    if m.usable x.other then
      let tries := if v.state = .reduced then w.floorAttempts else w.fullAttempts ++ w.floorAttempts
      match m.attempts w x.other tries with
      | some r =>
        (r.node.takeCells { w with current := some x.other, state := r.state } r.cells).svcEventOf id (some v.state) .rerouted
      | none => m.shed w .pathLost
    else m.shed w .pathLost

/-- A path lost signal: every REROUTE service on the side is a mover; a pass follows if there was one (R100, R102). -/
def Node.reroute (n : Node) (x : Side) : Node :=
  let movers := (byAdmission (n.placed.filter fun v => v.prot == .reroute && v.current == some x)).map (·.id)
  if movers.isEmpty then n else (movers.foldl (fun n id => n.rerouteOne x id) n).pass

/-- One reverting service (R103). -/
def Node.revertOne (n : Node) (id : Nat) : Node :=
  match n.svc id with
  | none => n
  | some v => (n.moveHome v).getD (n.svcEvent v (some v.state) .revertBlocked)
/-- A path restored signal: the services whose primary side it is come home, then a pass runs (R103). -/
def Node.revert (n : Node) (x : Side) : Node :=
  (((n.away.filter (·.primary == x)).map (·.id)).foldl Node.revertOne n).pass

/-! ## Definition and release (R79 to R83) -/

/-- The packet engine opens a service's state (R81 step 4, R138). -/
def Node.openPe (n : Node) (id : Nat) : Node :=
  { n with pe := { n.pe with
      svcs := insertBy (fun x y => x.id ≤ y.id) { id := id } (n.pe.svcs.filter (·.id != id)) } }

/-- A new service is made SHED (R81 step 3). -/
def Node.defineShed (n : Node) (v : Service) (why : ShedReason) : Node :=
  let n := n.countShed
  let w := { v with state := .shed, reason := some why, shedNo := some n.au.shedCounter }
  (((n.putSvc w).openPe v.id).svcEvent w none .defined)

/-- The decision of R79 and R80 for a new record: made, placed or shed; none when it is refused with NO_CAPACITY. -/
def Node.define (n : Node) (v : Service) : Option Node :=
  if n.au.economy && 2 ≤ v.level then some (n.defineShed v .economy)
  else match n.targetSide v with
    | none => some (n.defineShed v .pathLost)
    | some x =>
      match n.attempts v x (v.fullAttempts ++ v.floorAttempts) with
      | some r => some (((Node.placeNew r v x).openPe v.id).svcEventOf v.id none .defined)
      | none => if v.wait then some (n.defineShed v .noRoom) else none

/-- The binding of a released service ends (R83 step 2). -/
def Node.unbind (n : Node) (v : Service) : Node :=
  let n := { n with pe := { n.pe with svcs := n.pe.svcs.filter (·.id != v.id) } }
  match v.binding with
  | .transfer .. =>
    match n.transferOf v.id with
    | some t => n.abortTransfer t .serviceGone
    | none => n
  | .poll .. => if n.pc.service = some v.id then { n with pc := { n.pc with service := none } } else n
  | _ => n

/-- The release of a service frees blocks: those of the open transfer it carries (R169). -/
def Node.releaseFrees (n : Node) (v : Service) : Bool :=
  match v.binding with
  | .transfer .. => (n.transferOf v.id).any n.holdsBlocks
  | .packet .. | .poll .. | .phone .. => false

/-- Remove a service: its halves, its binding, its record, its report, then a pass (R83). STORE-suspended transfers resume at
the event's end, after the pass: log 58. -/
def Node.release (n : Node) (v : Service) : Node :=
  let freed := n.releaseFrees v
  let n := if v.state = .shed then n else (n.freeHalves v).handHalves v.id v.cls {}
  let n := (n.unbind v).dropSvc v.id
  let n := (n.report (.serviceEvent v.id v.cls v.level v.prot (some v.state) none .released none none 0 none v.adm none)).pass
  n.resumeIf freed

/-! ## Commands -/

/-- The admission unit takes a path signal: the first of its side that is not yet taken (R38, log 48). -/
def Node.auTakes (n : Node) (g : PathSignal) (f : Node → Node) : Node :=
  if g.stands n.sig.au then f { n with sig := { n.sig with au := n.sig.au.erase g } } else n
def execPathLostReroute (x : Side) (s : State) : Result := onNode s fun n => n.auTakes (.lost x) fun n => n.reroute x
def execPathRestoredRevert (x : Side) (s : State) : Result := onNode s fun n => n.auTakes (.restored x) fun n => n.revert x

end Sys2Proof.Machine
end

