-- ==== Sys2Proof/Machine/Calls.lean ====
section
/-! DEFINITION. The call controller's events (chapter 6): loop-detect capture, hook changes, timers, cadences and the
reselection of the receive side. Its requests stand in PhoneRequests.lean. -/

namespace Sys2Proof.Machine

/-! ## Changes of call state (R121 to R126) -/

/-- Minutes and seconds in the 1 ms ticks that the call timers count (log 8). -/
def ticksOfMinutes (m : Nat) : Nat := 60000 * m
def ticksOfSeconds (s : Nat) : Nat := 1000 * s

/-- A caller's call asks for its service: it opens, or it is queued at the end of the waiting list (R121). -/
def Node.callerCall (n : Node) (p : Fin 8) : Node :=
  match n.callPlacement p with
  | some m => m.openCall p
  | none =>
    let n := { n with cc := { n.cc with waiting := n.cc.waiting ++ [p] } }
    let n := n.modPhone p fun ph =>
      { ph with
        call := .queued, origin := some .caller, start := some n.runTime, testDrive := false,
        cadence := some (n.cc.common.cadence .wait) }
    n.callEvent p .idle .queued

/-- An IDLE call with a lifted handset and no clear-lock starts a caller's call on an enabled port in RUNNING (R121). -/
def Node.testCaller (n : Node) (p : Fin 8) : Node :=
  let ph := n.phone p
  if ph.call = .idle && ph.hook == .offHook && !ph.clearLock && n.phoneOn p then n.callerCall p else n

/-- The call enters IDLE: its record is cleared, and the entry is tested for a new caller's call (R121, R122, R126).
That the new call is tried in the same step is the model's choice, log 77. -/
def Node.enterIdle (n : Node) (p : Fin 8) (outcome : CallOutcome) : Node :=
  let old := (n.phone p).call
  let n := { n with cc := { n.cc with waiting := n.cc.waiting.filter (· != p) } }
  let n := n.modPhone p fun ph =>
    { ph.stopCadence with
      call := .idle, origin := none, start := none, holdRequested := false, selected := none, liveCell := none,
      timer := none }
  (n.callEvent p old outcome).testCaller p

/-- The clear guard expires: the service is released with its pass, and the call enters IDLE (R126). -/
def Node.guardEnd (n : Node) (p : Fin 8) : Node :=
  let n := match n.svc (callId p) with
    | some v => n.release v
    | none => n
  n.enterIdle p .ended

/-- The call enters CLEARING; a clear guard of 0 expires in the same event (R126). -/
def Node.enterClearing (n : Node) (p : Fin 8) (outcome : CallOutcome) : Node :=
  let old := (n.phone p).call
  let guardTicks := ticksOfSeconds n.cc.common.clearGuard
  let n := n.modPhone p fun ph =>
    { ph.stopCadence with call := .clearing, timer := some (.clearGuard, guardTicks) }
  let n := n.callEvent p old outcome
  if guardTicks = 0 then n.guardEnd p else n

/-- The call enters ANSWERED; its timer and its cadence end (R123 to R125). -/
def Node.enterAnswered (n : Node) (p : Fin 8) (outcome : CallOutcome) : Node :=
  let old := (n.phone p).call
  let n := n.modPhone p fun ph => { ph.stopCadence with call := .answered, timer := none }
  n.callEvent p old outcome

/-- The handset is replaced with hold requested and permitted (R123). -/
def Node.enterHeld (n : Node) (p : Fin 8) : Node :=
  let old := (n.phone p).call
  let n := n.modPhone p fun ph =>
    { ph with
      call := .held, holdRequested := false, timer := some (.heldLimit, ticksOfMinutes n.cc.common.heldLimit) }
  n.callEvent p old .held

/-! ## Loop-detect capture (R112 to R115) -/

/-- Sampling begins (R111). -/
def Phone.beginSampling (ph : Phone) : Phone :=
  { ph with
    sampling := true, level := false, hook := .onHook, time := 0, differing := 0, acceptDue := false, hookDue := false }
/-- Sampling stops (R111). -/
def Phone.stopSampling (ph : Phone) : Phone :=
  { ph with
    sampling := false, hook := .onHook, clearLock := false, testDrive := false, acceptDue := false, hookDue := false }

/-- The time in the accepted level has reached the debounce in force (R114). -/
def Phone.confirms (ph : Phone) : Bool :=
  match ph.hook with
  | .onHook => ph.level && decide (ph.set.offDebounce ≤ ph.time)
  | .offHook => !ph.level && decide (ph.set.onDebounce ≤ ph.time)

/-- One sample: the time in the level, the filter, and whether a hook change or an accepted change is due (R112 to R114). -/
def Phone.sample (ph : Phone) (input : Bool) : Phone :=
  let differing := if input = ph.level then 0 else ph.differing + 1
  let accept := input != ph.level && (!ph.set.filter || decide (3 ≤ differing))
  let ph := { ph with time := sat16 ph.time, differing := if accept then 0 else differing, acceptDue := accept }
  { ph with hookDue := ph.confirms }

/-- The accepted level changes, and the period that ends is measured (R113). -/
def Phone.accept (ph : Phone) : Phone :=
  { ph with
    level := !ph.level, time := 0, differing := 0, acceptDue := false
    lastHigh := if ph.level then ph.time else ph.lastHigh
    lastLow := if ph.level then ph.lastLow else ph.time
    saturated := ph.time == Config.top16 }

/-- A flash: the low period that ends lasted the flash minimum or more, and less than the on-hook debounce (R115).
Both are those in force when the rise is accepted: after a PHONE_SET taken since the sample that made it due, the new ones: the
model's choice, log 65. -/
def Node.testFlash (n : Node) (p : Fin 8) : Node :=
  let ph := n.phone p
  if ph.set.flashMin ≤ ph.lastLow ∧ ph.lastLow < ph.set.onDebounce then
    let n := n.modPhone p fun ph => { ph with flashes := sat8 ph.flashes }
    match ph.call with
    | .opened | .answered | .held => n.callEvent p ph.call .flash
    | _ => n
  else n

/-- A confirmed OFF_HOOK and what it means to the call (R114, R121, R124, R125). -/
def Node.offHook (n : Node) (p : Fin 8) : Node :=
  let n := n.modPhone p fun ph => { ph with hook := .offHook, hookDue := false }
  match (n.phone p).call with
  | .idle => n.testCaller p
  | .held => n.enterAnswered p .resumed
  | .ringing => n.enterAnswered p .answered
  | _ => n

/-- A confirmed ON_HOOK: the clear-lock ends, and the call may end or be held (R114, R122, R123, R127). -/
def Node.onHook (n : Node) (p : Fin 8) : Node :=
  let n := n.modPhone p fun ph => { ph with hook := .onHook, hookDue := false, clearLock := false }
  let ph := n.phone p
  match ph.call with
  | .queued => n.enterIdle p .abandoned
  | .opened | .answered =>
    if ph.holdRequested && ph.set.holdPermitted then n.enterHeld p else n.enterClearing p .callerCleared
  | _ => n

/-- The hook change that is due, if one is. -/
def Node.hookEvent (n : Node) (p : Fin 8) : Node :=
  if (n.phone p).hookDue then
    match (n.phone p).hook with
    | .onHook => n.offHook p
    | .offHook => n.onHook p
  else n

/-- The accepted change that is due, if one is; a hook change of the same sample goes first (log 14). -/
def Node.acceptEvent (n : Node) (p : Fin 8) : Node :=
  if (n.phone p).acceptDue then
    let n := n.hookEvent p
    let rise := !(n.phone p).level
    let n := n.modPhone p Phone.accept
    if rise then n.testFlash p else n
  else n

/-! ## Cadences and call timers (R130, R124 to R126) -/

/-- The cadence edge that is due: a new period begins with the values in force, or the off-phase begins. Either is an edge
at which a new ring polarity takes effect (R130, R131). -/
def Phone.cadenceEdge (ph : Phone) (c : Common) : Phone :=
  match ph.cadence with
  | some d =>
    if d.onPhase && d.elapsed == d.onTime then
      { ph with cadence := some { d with onPhase := false }, polarity := ph.set.polarity }
    else if !d.onPhase && d.elapsed == d.period then
      { ph with cadence := some (c.cadence d.kind), polarity := ph.set.polarity }
    else ph
  | none => ph
def Node.cadenceEvent (n : Node) (p : Fin 8) : Node := n.modPhone p fun ph => ph.cadenceEdge n.cc.common

/-- The call timer that has run out. -/
def Node.timerEvent (n : Node) (p : Fin 8) : Node :=
  match (n.phone p).timer with
  | some (.heldLimit, 0) => n.enterClearing p .heldLimit
  | some (.ringTimeout, 0) => n.enterClearing p .noAnswer
  | some (.clearGuard, 0) => n.guardEnd p
  | _ => n

/-- One tick on a port: its sample, its timer, its cadence. -/
def Phone.tick (ph : Phone) (input : Bool) : Phone :=
  let ph := if ph.sampling then ph.sample input else ph
  { ph with
    timer := ph.timer.map fun t => (t.1, t.2 - 1)
    cadence := ph.cadence.map fun d => { d with elapsed := d.elapsed + 1 } }

/-- Every event of a port that the last tick made due, in this order: the model's choice, log 1 and log 14. -/
def Node.settlePhone (n : Node) (p : Fin 8) : Node :=
  (((n.hookEvent p).acceptEvent p).cadenceEvent p).timerEvent p

/-! ## Reselection (R117, R118) -/

/-- A call holding a service reselects; a change of isolation is reported. -/
def Node.reselectCall (n : Node) (p : Fin 8) : Node :=
  let ph := n.phone p
  if ph.call.holds then
    let w := { ph with selected := n.callSelection p }
    let n := n.setPhone p w
    if ph.isolated == w.isolated then n
    else n.callEvent p w.call (if w.isolated then .isolated else .reconnected)
  else n
/-- Every call reselects, ports 0 to 7 in turn: the model's choice, log 76. -/
def Node.reselectCalls (n : Node) : Node := allPhones.foldl Node.reselectCall n

/-- The call controller takes a path signal: the first of its side that is not yet taken (R38, R117, log 48). -/
def Node.ccTakes (n : Node) (g : PathSignal) : Node :=
  if g.stands n.sig.cc then ({ n with sig := { n.sig with cc := n.sig.cc.erase g } }).reselectCalls else n

/-! ## Commands -/

def execCallReselect (g : PathSignal) (s : State) : Result := onNode s fun n => n.ccTakes g
def execLoopAcceptedRise (p : Fin 8) (s : State) : Result :=
  onNode s fun n => if (n.phone p).level then n else n.acceptEvent p
def execLoopAcceptedFall (p : Fin 8) (s : State) : Result :=
  onNode s fun n => if (n.phone p).level then n.acceptEvent p else n
def execOffHookConfirmed (p : Fin 8) (s : State) : Result :=
  onNode s fun n => if (n.phone p).hookDue && (n.phone p).hook == .onHook then n.offHook p else n
def execOnHookConfirmed (p : Fin 8) (s : State) : Result :=
  onNode s fun n => if (n.phone p).hookDue && (n.phone p).hook == .offHook then n.onHook p else n
def execCadencePeriodStart (p : Fin 8) (s : State) : Result :=
  onNode s fun n =>
    match (n.phone p).cadence with
    | some d => if d.onPhase then n else n.cadenceEvent p
    | none => n
def execCadenceOffPhase (p : Fin 8) (s : State) : Result :=
  onNode s fun n =>
    match (n.phone p).cadence with
    | some d => if d.onPhase then n.cadenceEvent p else n
    | none => n
def execHeldLimitExpired (p : Fin 8) (s : State) : Result :=
  onNode s fun n => if (n.phone p).timer = some (.heldLimit, 0) then n.timerEvent p else n
def execRingTimeoutExpired (p : Fin 8) (s : State) : Result :=
  onNode s fun n => if (n.phone p).timer = some (.ringTimeout, 0) then n.timerEvent p else n
def execClearGuardExpired (p : Fin 8) (s : State) : Result :=
  onNode s fun n => if (n.phone p).timer = some (.clearGuard, 0) then n.timerEvent p else n

end Sys2Proof.Machine
end

