-- ==== Sys2Proof/Machine/PathMonitor.lean ====
section
/-! DEFINITION. The path monitor (chapter 2): reach-present, the path states with their timers and signals, and the timing
source. Its requests stand in LineRequests.lean. -/

namespace Sys2Proof.Machine

/-! ## Reach-present (R28) -/

/-- The line of a port gives reach: UP without SF, and a confirmed copy with reach, a hop count within the limit and no remote
defect. -/
def LinePort.reaches (p : LinePort) (hopLimit : Nat) : Bool :=
  p.state == .up && !p.sf && p.confirmed.any fun c => c.reach && decide (c.hop ≤ hopLimit) && !c.remoteDefect
/-- The confirmed hop count of the line of a side. -/
def Node.hopOf (n : Node) (x : Side) : Option Nat := (n.line.get x.line).confirmed.map (·.hop)

/-! ## Path states (R32 to R39) -/

/-- A side takes its new state and marks, with a PATH_EVENT (R39). -/
def Node.pathTo (n : Node) (x : Side) (p : PathSide) (cause : PathCause) : Node :=
  let old := (n.pathOf x).state
  let n := n.setPath x p
  n.report (.pathEvent x old p.state cause p.reach (n.hopOf x) p.initial p.forced)

/-- A path signal is given to its three receivers (R38). -/
def Node.giveSignal (n : Node) (g : PathSignal) : Node :=
  { n with sig := { au := n.sig.au ++ [g], cc := n.sig.cc ++ [g], pe := n.sig.pe ++ [g] } }

/-- Entry to REACHABLE; from LOST or WAIT_RESTORE path restored is given (R32, R35, R38). -/
def Node.enterReachable (n : Node) (x : Side) (p : PathSide) (cause : PathCause) : Node :=
  let wasUsable := n.usable x
  let n := n.pathTo x { p with state := .reachable, initial := false, timer := 0 } cause
  if wasUsable then n else n.giveSignal (.restored x)

/-- Entry to LOST: path lost is given, and the other side's wait to restore is cut short (R35, R38). -/
def Node.enterLost (n : Node) (x : Side) (p : PathSide) (cause : PathCause) : Node :=
  let n := (n.pathTo x { p with state := .lost, timer := 0 } cause).giveSignal (.lost x)
  let q := n.pathOf x.other
  if q.state = .waitRestore then n.enterReachable x.other q .otherSideLost else n

/-- Reach-present becomes true (R32, R34). -/
def Node.reachRises (n : Node) (x : Side) (p : PathSide) : Node :=
  match p.state with
  | .lost =>
    if p.forced then n.setPath x p
    else if p.initial then n.enterReachable x p .initial
    else n.pathTo x { p with state := .waitRestore, timer := 4000 * n.cfg.wtr } .reachReturned
  | .holdOff => n.enterReachable x p .holdOffCancelled
  | .reachable | .waitRestore => n.setPath x p

/-- Reach-present becomes false (R33, R35). -/
def Node.reachFalls (n : Node) (x : Side) (p : PathSide) : Node :=
  match p.state with
  | .reachable =>
    if n.cfg.holdOff = 0 then n.enterLost x p .reachLost
    else n.pathTo x { p with state := .holdOff, timer := 4 * n.cfg.holdOff } .reachLost
  | .waitRestore => n.enterLost x p .reachFailedInWtr
  | .holdOff | .lost => n.setPath x p

/-- Reach-present of a side is formed again, and a change acts on the side (R28). -/
def Node.formReach (n : Node) (x : Side) : Node :=
  let p := n.pathOf x
  let now := (n.line.get x.line).reaches n.cfg.hopLimit
  if now = p.reach then n
  else if now then n.reachRises x { p with reach := true }
  else n.reachFalls x { p with reach := false }

/-- The hold-off timer has run out (R34, R37). -/
def Node.holdOffEnd (n : Node) (x : Side) : Node :=
  let p := n.pathOf x
  if p.state = .holdOff ∧ p.timer = 0 then n.enterLost x p .holdOffExpired else n
/-- The WTR timer has run out (R35, R37). -/
def Node.wtrEnd (n : Node) (x : Side) : Node :=
  let p := n.pathOf x
  if p.state = .waitRestore ∧ p.timer = 0 then n.enterReachable x p .wtrExpired else n

/-- PATH_FORCE SET (R36). -/
def Node.forceOut (n : Node) (x : Side) : Node :=
  let p := n.pathOf x
  if p.forced then n
  else if p.state = .lost then n.pathTo x { p with forced := true } .forced
  else n.enterLost x { p with forced := true } .forced
/-- PATH_FORCE CLEAR (R36). -/
def Node.forceClear (n : Node) (x : Side) : Node :=
  let p := n.pathOf x
  if !p.forced then n
  else if p.reach then n.enterReachable x { p with forced := false } .forceCleared
  else n.pathTo x { p with forced := false } .forceCleared

/-! ## Timing source (R40 to R42) -/

/-- A line qualifies while it is UP with SF clear. -/
def LinePort.qualifies (p : LinePort) : Bool := p.state == .up && !p.sf
def TimingPref.line : TimingPref → Line
  | .uFirst => .u
  | .dFirst => .d
def lineSource : Line → TimingSource
  | .u => .lineU
  | .d => .lineD

/-- A switch of source, with its TIMING_EVENT (R42). -/
def Node.switchTiming (n : Node) (next : TimingSource) (cause : TimingCause) : Node :=
  let old := n.timing.source
  let n := { n with timing := { n.timing with source := next } }
  n.report (.timingEvent old next cause n.timing.clean.u n.timing.clean.d)

/-- The selected line has ceased to qualify, if it has: the other line or LOCAL is selected (R40). -/
def Node.timingFailed (n : Node) (l : Line) : Node :=
  if (n.line.get l).qualifies then n
  else if (n.line.get l.other).qualifies then n.switchTiming (lineSource l.other) .sourceFailed
  else n.switchTiming .local .sourceFailed

/-- Selection after a change of a line's qualification (R40). -/
def Node.selectTiming (n : Node) : Node :=
  let pref := n.cfg.pref.line
  match n.timing.source with
  | .local =>
    if (n.line.get pref).qualifies then n.switchTiming (lineSource pref) .lineQualified
    else if (n.line.get pref.other).qualifies then n.switchTiming (lineSource pref.other) .lineQualified
    else n
  | .lineU => n.timingFailed .u
  | .lineD => n.timingFailed .d

/-- The less preferred line is selected and the preferred line's clean time has reached 40,000 frames (R40, R41). -/
def Node.timingRevert (n : Node) : Node :=
  let pref := n.cfg.pref.line
  if n.timing.source = lineSource pref.other && (n.line.get pref).qualifies && decide (40000 ≤ n.timing.clean.get pref) then
    n.switchTiming (lineSource pref) .reverted
  else n

/-- What the path monitor makes of a change on a line: reach-present, the clean time, the timing source (R28, R40). The change's
own LINE_EVENT has been sent, and a PATH_EVENT goes before a TIMING_EVENT, as in events 1 and 5 of 2.5: log 85. -/
def Node.lineChanged (n : Node) (l : Line) : Node :=
  let n := n.formReach l.side
  let n := if (n.line.get l).qualifies then n
    else { n with timing := { n.timing with clean := n.timing.clean.set l 0 } }
  n.selectTiming

/-- One frame start: the timers, and the clean times (R37, R40). -/
def PathSide.frame (p : PathSide) : PathSide := { p with timer := p.timer - 1 }
def Node.cleanFrame (n : Node) (l : Line) : Nat :=
  if (n.line.get l).qualifies then sat32 (n.timing.clean.get l) else 0
def Node.pathFrame (n : Node) : Node :=
  { n with
    path := ⟨n.path.u.frame, n.path.d.frame⟩
    timing := { n.timing with clean := ⟨n.cleanFrame .u, n.cleanFrame .d⟩ } }

/-! ## Commands -/

/-- The packet engine takes a path signal: the first of its side that is not yet taken (R38, R146, log 48). -/
def Node.peTakes (n : Node) (g : PathSignal) : Node :=
  if g.stands n.sig.pe then ({ n with sig := { n.sig with pe := n.sig.pe.erase g } }).reselectDual else n

def execHoldOffExpired (x : Side) (s : State) : Result := onNode s fun n => n.holdOffEnd x
def execWtrExpired (x : Side) (s : State) : Result := onNode s fun n => n.wtrEnd x
def execTimingRevert (s : State) : Result := onNode s Node.timingRevert
def execDualReceiveReselect (g : PathSignal) (s : State) : Result := onNode s fun n => n.peTakes g

end Sys2Proof.Machine
end

