-- ==== Sys2Proof/Machine/LinePorts.lean ====
section
/-! DEFINITION. The line ports (chapter 1): alignment, the check and the confirmed overhead, error windows, the training
search and margin measurements. Their requests stand in LineRequests.lean. -/

namespace Sys2Proof.Machine

/-! ## Events and states (R4, R6, R9, R25) -/

/-- A LINE_EVENT for a port as it stands (R4). -/
def Node.lineEvent (n : Node) (l : Line) (old : LineState) (cause : LineCause) : Node :=
  let p := n.line.get l
  n.report (.lineEvent l old p.state cause p.sd p.sf)

/-- The abort of a running full scan is reported (R25). -/
def Node.abortScan (n : Node) (l : Line) : Node :=
  match (n.line.get l).scan with
  | some c => n.report (.marginAborted l c.origin c.meas.dwell c.meas.allowance c.meas.measured)
  | none => n

/-- What a port gives up on entry to SEEKING or DISABLED (R9, R25). -/
def LinePort.letGo (p : LinePort) (next : LineState) : LinePort :=
  { p with
    state := next, confirmed := none, pendingFrame := none, trained := none, rxTrained := false, request := none,
    training := .none, goodMarkers := 0, wrongMarkers := 0, scan := none, result := none, win := {}, sd := false,
    sf := false, periodic := none }

/-- A port falls to SEEKING or DISABLED: the aborted scan's report, the state with its LINE_EVENT, the held cells, reach and
timing (R4, R9, R25, R50). -/
def Node.dropLine (n : Node) (l : Line) (next : LineState) (cause : LineCause) : Node :=
  let old := (n.line.get l).state
  let n := (n.abortScan l).modLine l fun p => p.letGo next
  (((n.lineFails l).lineEvent l old cause).lineChanged l)

/-- DISABLED to SEEKING (R6). -/
def Node.enableLine (n : Node) (l : Line) : Node :=
  let n := n.modLine l fun p => { p with state := .seeking, goodMarkers := 0 }
  (n.lineFails l).lineEvent l .disabled .enabled
/-- Any state to DISABLED (R6, R59, R60). -/
def Node.disableLine (n : Node) (l : Line) : Node :=
  let n := (n.noticeDisabled l).modLine l fun p => { p with txCheck := none }
  n.dropLine l .disabled .disabled

/-- Both inputs of the optical module show a signal (R8). -/
def Node.hasSignal (n : Node) (l : Line) : Bool := n.pins.signalDetect.get l && n.pins.modulePresent.get l

/-! ## Error-rate windows (R13 to R15) -/

/-- One errored frame is counted; SD and SF are set when the count reaches their thresholds. -/
def Node.countErrored (n : Node) (l : Line) : Node :=
  let n := n.modLine l fun p => { p with win := { p.win with errors := p.win.errors + 1 } }
  let p := n.line.get l
  let n := if !p.sd && decide (p.win.sdThr ≤ p.win.errors) then
      (n.modLine l fun p => { p with sd := true }).lineEvent l p.state .sdSet
    else n
  if !p.sf && decide (p.win.sfThr ≤ p.win.errors) then
    ((n.modLine l fun p => { p with sf := true }).lineEvent l p.state .sfSet).lineChanged l
  else n

/-- SD is judged at a window end with that window's count (R14). -/
def Node.judgeSd (n : Node) (l : Line) (errors thr : Nat) : Node :=
  let p := n.line.get l
  if p.sd && !p.sf && decide (2 * errors < thr) then
    (n.modLine l fun p => { p with sd := false }).lineEvent l p.state .sdClear
  else n

/-- The 4,000th received frame of a window has arrived: the window ends and is judged (R13 to R15). Where it clears both SF and SD,
SD_CLEAR follows SF_CLEAR (R14), and both come before the PATH_EVENT and the TIMING_EVENT that the cleared SF brings: the model's
choice, log 81. -/
def Node.windowEnd (n : Node) (l : Line) : Node :=
  let p := n.line.get l
  if p.state = .up ∧ 4000 ≤ p.win.frames then
    let w := p.win
    let below := if w.errors < w.sdThr then min 2 (w.below + 1) else 0
    let clear := p.sf && below == 2
    let n := n.setLine l { p with
      win := { frames := 0, errors := 0, last := w.errors, below := below, sdThr := w.sdThr, sfThr := w.sfThr }
      sf := p.sf && !clear }
    let n := if clear then n.lineEvent l p.state .sfClear else n
    (n.judgeSd l w.errors w.sdThr).lineChanged l
  else n

/-! ## Margin measurement (R20) -/

/-- The results of a measurement. -/
structure MeasEnd where
  left : Nat
  right : Nat
  width : Nat
  grade : Grade
  edgeLeft : Option Nat
  edgeRight : Option Nat
  measured : Nat
  deriving DecidableEq, Repr

inductive MeasStep | go (m : Meas) | done (e : MeasEnd)
  deriving DecidableEq, Repr

def gradeOf (m : Nat) : Grade := if m ≤ 3 then .poor else if m ≤ 7 then .fair else .good

/-- A side after one of its positions: ±16 clean or an unclean position stops it. -/
def MeasSide.judge (x : MeasSide) (clean : Bool) (errors : Nat) : MeasSide :=
  if clean then { clean := x.clean + 1, stopped := x.clean + 1 == 16, edge := none }
  else { x with stopped := true, edge := some errors }

/-- The measurement moves on to a position. -/
def Meas.moveTo (m : Meas) (position : Int) : MeasStep := .go { m with position := position, frames := 0, errors := 0 }

/-- The side named first goes next while it is open, otherwise the other, otherwise the measurement ends. -/
def Meas.next (m : Meas) (negFirst : Bool) : MeasStep :=
  let negAt : Int := -(m.neg.clean + 1 : Nat)
  let posAt : Int := (m.pos.clean + 1 : Nat)
  if negFirst && !m.neg.stopped then m.moveTo negAt
  else if !m.pos.stopped then m.moveTo posAt
  else if !m.neg.stopped then m.moveTo negAt
  else .done
    { left := m.neg.clean, right := m.pos.clean, width := m.neg.clean + m.pos.clean + 1,
      grade := gradeOf (min m.neg.clean m.pos.clean), edgeLeft := m.neg.edge, edgeRight := m.pos.edge,
      measured := m.measured }

/-- The dwell at a position ends, and the position is judged. -/
def Meas.judge (m : Meas) : MeasStep :=
  let clean := decide (m.errors ≤ m.allowance)
  let m := { m with measured := m.measured + 1 }
  if m.position = 0 then
    if clean then m.next false
    else .done
      { left := 0, right := 0, width := 0, grade := .failing, edgeLeft := some m.errors, edgeRight := some m.errors,
        measured := m.measured }
  else if 0 < m.position then ({ m with pos := m.pos.judge clean m.errors }).next true
  else ({ m with neg := m.neg.judge clean m.errors }).next false

/-- A received frame is compared at the position. -/
def Meas.frame (m : Meas) (disagreements : Nat) : Meas :=
  { m with frames := m.frames + 1, errors := m.errors + disagreements }
/-- The dwell at the position has been reached. -/
def Meas.due (m : Meas) : Bool := decide (m.dwell ≤ m.frames)

/-! ## The training search (R17 to R19) -/

/-- The search turns to a preset: its request goes out from the next frame start (R17 step 1). -/
def LinePort.tryPreset (p : LinePort) (preset : Nat) (widths : List Nat) : LinePort :=
  { p with request := some preset, training := .search preset .request widths }

/-- The parameters of a quick measurement: D = 16, A = 0 (R21). -/
def quickMeas : Meas := { dwell := 16, allowance := 0 }

def distance5 (p : Nat) : Nat := if p ≤ 5 then 5 - p else p - 5
/-- Preset `x` is chosen before `y`: wider, or as wide and nearer to 5, or both and lower (R18). -/
def better (widths : List Nat) (x y : Nat) : Bool :=
  let wx := widths.getD x 0
  let wy := widths.getD y 0
  wy < wx || (wx == wy && (distance5 x < distance5 y || (distance5 x == distance5 y && x < y)))
/-- The chosen preset of eleven widths (R18). -/
def choosePreset (widths : List Nat) : Nat := (List.range 11).foldl (fun b p => if better widths p b then p else b) 0

/-- A port in TRAINING enters UP when its own flag is set and the neighbour's is confirmed (R19). -/
def Node.testTrained (n : Node) (l : Line) : Node :=
  let p := n.line.get l
  if p.state = .training && p.rxTrained && p.confirmed.any (·.rxTrained) then
    let n := n.setLine l { p with
      state := .up, win := {}
      periodic := if p.minutes = 0 then none else some (240000 * p.minutes) }
    (n.lineEvent l .training .trained).lineChanged l
  else n

/-- The search has its eleven widths (R18). -/
def Node.chooseTrained (n : Node) (l : Line) (widths : List Nat) : Node :=
  let best := choosePreset widths
  if widths.getD best 0 = 0 then
    (n.modLine l fun p => { p with trained := none, request := none, training := .pause 0 }).lineEvent l .training
      .trainingFailed
  else
    (n.modLine l fun p =>
      { p with trained := some best, request := some best, rxTrained := true, training := .trained }).testTrained l

/-- A preset has been scored (R17, R18). -/
def Node.scorePreset (n : Node) (l : Line) (preset width : Nat) (widths : List Nat) : Node :=
  if preset < 10 then n.modLine l fun p => p.tryPreset (preset + 1) (widths ++ [width])
  else n.chooseTrained l (widths ++ [width])

/-- No confirmation within 32 received frames: the preset is scored width 0 (R17 step 2). -/
def Node.confirmTimeout (n : Node) (l : Line) : Node :=
  match (n.line.get l).training with
  | .search preset (.confirm received) widths => if 32 ≤ received then n.scorePreset l preset 0 widths else n
  | _ => n
/-- Eight settle frames have been received: the quick measurement begins (R17 step 4). -/
def Node.settleEnd (n : Node) (l : Line) : Node :=
  match (n.line.get l).training with
  | .search preset (.settle received) widths =>
    if 8 ≤ received then n.modLine l fun p => { p with training := .search preset (.measure quickMeas) widths } else n
  | _ => n
/-- The pause after a failed search ends (R18). -/
def Node.retryEnd (n : Node) (l : Line) : Node :=
  match (n.line.get l).training with
  | .pause received => if 4000 ≤ received then n.modLine l fun p => p.tryPreset 0 [] else n
  | _ => n

/-! ## Full scans (R22 to R24) -/

def Node.startScan (n : Node) (l : Line) (origin : Origin) : Node :=
  n.modLine l fun p => { p with scan := some { origin := origin, meas := { dwell := p.dwell, allowance := p.allowance } } }

/-- A full scan ends: its result is stored and reported (R24). -/
def Node.scanDone (n : Node) (l : Line) (c : Scan) (e : MeasEnd) : Node :=
  let r : MarginResult :=
    { left := e.left, right := e.right, width := e.width, grade := e.grade, edgeLeft := e.edgeLeft, edgeRight := e.edgeRight,
      dwell := c.meas.dwell, allowance := c.meas.allowance, origin := c.origin, runTime := n.runTime }
  (n.modLine l fun p => { p with scan := none, result := some r }).report (.marginDone l e.measured r)

/-- The dwell at a position has ended, in the training search or in a full scan (R20). -/
def Node.positionDone (n : Node) (l : Line) : Node :=
  match (n.line.get l).training, (n.line.get l).scan with
  | .search preset (.measure m) widths, _ =>
    if m.due then
      match m.judge with
      | .go m => n.modLine l fun p => { p with training := .search preset (.measure m) widths }
      | .done e => n.scorePreset l preset e.width widths
    else n
  | _, some c =>
    if c.meas.due then
      match c.meas.judge with
      | .go m => n.modLine l fun p => { p with scan := some { c with meas := m } }
      | .done e => n.scanDone l c e
    else n
  | _, none => n

/-- The periodic scan interval has elapsed: a scan starts unless one is running; the next due moment follows (R23). -/
def Node.periodicDue (n : Node) (l : Line) : Node :=
  let p := n.line.get l
  if p.periodic = some 0 then
    let n := n.setLine l { p with periodic := some (240000 * p.minutes) }
    if p.scan.isSome then n else n.startScan l .periodic
  else n

/-! ## A received frame (R7, R8, R10, R11) -/

/-- The due events of a line that count received frames are taken before another frame is, in this order: the model's choice,
log 1. -/
def Node.settleLine (n : Node) (l : Line) : Node :=
  (((((n.confirmTimeout l).settleEnd l).positionDone l).retryEnd l).windowEnd l)

/-- The payload goes to the cell switch at once (R10, R49). -/
def Node.deliverPayload (n : Node) (l : Line) (cells : List CellVal) : Node :=
  n.modSwitch l fun w => { w with newest := some cells, arrived := w.arrived + 1 }

/-- Three consecutive good markers: the port enters TRAINING, and this frame is its first pending one (R7, R17). -/
def Node.aligned (n : Node) (l : Line) (pend : PendingFrame) (cells : List CellVal) : Node :=
  let n := n.modLine l fun p =>
    ({ p with state := .training, goodMarkers := 0, wrongMarkers := 0, pendingFrame := some pend }).tryPreset 0 []
  ((n.deliverPayload l cells).lineEvent l .seeking .aligned).lineChanged l

/-- The search at any position: a marker found makes its position the trial boundary, with a count of 1 (R7). -/
def LinePort.search (p : LinePort) (position : Nat) (good : Bool) : LinePort :=
  if good then { p with boundary := position, trialPast := 0, goodMarkers := 1 } else { p with goodMarkers := 0 }

/-- How far a position lies past the trial boundary, in bit positions; 0 at the boundary itself. -/
def LinePort.past (p : LinePort) (position : Nat) : Nat :=
  (position + Config.frameBits - p.boundary % Config.frameBits) % Config.frameBits

/-- A frame's length of signal in SEEKING, with or without the marker at `position`. A trial looks only 1,920 bytes after its
boundary: a frame before that moment is passed over, and one after it shows that the expected marker is missing (R7, log 9). -/
def Node.seek (n : Node) (l : Line) (position : Nat) (good : Bool) (pend : PendingFrame) (cells : List CellVal) : Node :=
  let p := n.line.get l
  if p.goodMarkers = 0 then n.setLine l (p.search position good)
  else if p.past position = 0 then
    if !good then n.setLine l { p with goodMarkers := 0 }
    else if p.goodMarkers + 1 = 3 then n.aligned l pend cells
    else n.setLine l { p with goodMarkers := p.goodMarkers + 1, trialPast := 0 }
  else if p.trialPast < p.past position then n.setLine l { p with trialPast := p.past position }
  else n.setLine l (p.search position good)

/-- A good frame's overhead becomes the confirmed copy; its notice field goes to the cell switch, its preset request is
followed, reach-present is formed again (R10, R16, R28). The transmit preset is changed here, before the next frame start at
which a frame is first sent with it: the model's choice, log 47. So is that the notice field goes first, so that a NODE_CONFLICT
precedes the TRAINED, PATH_EVENT or TIMING_EVENT of the same frame, log 72. -/
def Node.confirm (n : Node) (l : Line) (ov : List Byte) : Node :=
  let c := readOverhead ov
  let n := n.modLine l fun p => { p with confirmed := some c, txPreset := c.request.getD p.txPreset }
  (n.noticeConfirmed l (noticeField ov)).lineChanged l

/-- What a received frame does to the training search; `applied` is the preset applied that it confirmed (R17). -/
def Training.frame (t : Training) (applied : Option Nat) (disagreements : Nat) : Training :=
  match t with
  | .search preset (.confirm r) widths =>
    if applied = some preset then .search preset (.settle 0) widths else .search preset (.confirm (r + 1)) widths
  | .search preset (.settle r) widths => .search preset (.settle (r + 1)) widths
  | .search preset (.measure m) widths => .search preset (.measure (m.frame disagreements)) widths
  | .pause r => .pause (r + 1)
  | t => t

/-- The counts of a port that a received frame advances: wrong markers, training, window, scan. -/
def LinePort.counts (p : LinePort) (pend : PendingFrame) (applied : Option Nat) (disagreements : Nat) : LinePort :=
  { p with
    pendingFrame := some pend
    wrongMarkers := if pend.markerWrong then p.wrongMarkers + 1 else 0
    training := p.training.frame applied disagreements
    win := if pend.inUp then { p.win with frames := p.win.frames + 1 } else p.win
    scan := p.scan.map fun c => { c with meas := c.meas.frame disagreements } }

/-- The first received frame of an error-rate window in UP takes the thresholds in force from the settings (R13). -/
def LinePort.beginWindow (p : LinePort) : LinePort :=
  if p.state = .up ∧ p.win.frames = 0 then { p with win := { p.win with sdThr := p.sdThr, sfThr := p.sfThr } } else p

/-- A frame at the frame boundary in TRAINING or UP (R8, R10, R11): it begins a window where one is due, the frame before it is
confirmed or errored, then this one is taken. The fourth wrong marker in a row is counted as errored before the alignment is
lost, so that SD_SET or SF_SET may come just before ALIGNMENT_LOST: the model's choice, log 59. So is that the frame before is
confirmed before this frame's own wrong marker is counted, and may take the port to UP just before it is lost, log 71. -/
def Node.takeFrame (n : Node) (l : Line) (ov : List Byte) (pend : PendingFrame) (cells : List CellVal) (disagreements : Nat) :
    Node :=
  let before := (n.line.get l).pendingFrame
  let matched := before.any fun f => f.check == checkField ov
  let good := before.filter fun f => matched && !f.markerWrong
  let n : Node := n.modLine l LinePort.beginWindow
  let n : Node := match good with
    | some f => n.confirm l f.overhead
    | none => n
  let n : Node := if (before.any fun f => !matched && !f.markerWrong && f.inUp) then n.countErrored l else n
  let n : Node := if pend.markerWrong && pend.inUp then n.countErrored l else n
  let n : Node := n.deliverPayload l cells
  let n : Node := n.modLine l fun p => p.counts pend (good.map fun f => (readOverhead f.overhead).applied) disagreements
  let n : Node := n.testTrained l
  if (n.line.get l).wrongMarkers = 4 then n.dropLine l .seeking .alignmentLost else n

/-- A line frame's length of signal has arrived in full. -/
def Node.lineFrame (n : Node) (l : Line) (position : Nat) (f : LineFrame) (disagreements : Nat) : Node :=
  let ov := f.overhead.toList
  let cells := f.cells.toList
  let n := n.settleLine l
  let p := n.line.get l
  let pend : PendingFrame :=
    { overhead := ov, check := frameCheck ov cells, markerWrong := !markerGood ov, inUp := p.state == .up }
  if !n.hasSignal l then n
  else match p.state with
    | .disabled => n
    | .seeking => n.seek l position (markerGood ov) pend cells
    | .training | .up => if position = p.boundary then n.takeFrame l ov pend cells disagreements else n

/-! ## Loss and return of signal (R7, R8) -/

/-- An input of an optical module changes. -/
def Pins.setSignal (q : Pins) (l : Line) (pin : SignalPin) (level : Bool) : Pins :=
  match pin with
  | .signalDetect => { q with signalDetect := q.signalDetect.set l level }
  | .modulePresent => { q with modulePresent := q.modulePresent.set l level }

def Node.signalGone (n : Node) (l : Line) : Node :=
  match (n.line.get l).state with
  | .disabled => n
  | .seeking => n.modLine l fun p => { p with goodMarkers := 0 }
  | .training | .up => n.dropLine l .seeking .signalLost

/-- An input that a command changes keeps its level whatever the reset input. -/
def State.setPins (s : State) (q : Pins) : State := { s with node := { s.node with pins := q } }

/-! ## Commands -/

def execLineFrameReceived (l : Line) (position : Nat) (f : LineFrame) (disagreements : Nat) (s : State) : Result :=
  onNode s fun n => n.lineFrame l position f disagreements
def execSignalLost (l : Line) (pin : SignalPin) (s : State) : Result :=
  onNode (s.setPins (s.node.pins.setSignal l pin false)) fun n => n.signalGone l
def execSignalReturned (l : Line) (pin : SignalPin) (s : State) : Result :=
  onNode (s.setPins (s.node.pins.setSignal l pin true)) fun n => n
def execErrorWindowEnd (l : Line) (s : State) : Result := onNode s fun n => n.windowEnd l
def execPresetConfirmTimeout (l : Line) (s : State) : Result := onNode s fun n => n.confirmTimeout l
def execSettleFramesEnd (l : Line) (s : State) : Result := onNode s fun n => n.settleEnd l
def execMarginPositionDone (l : Line) (s : State) : Result := onNode s fun n => n.positionDone l
def execTrainingRetry (l : Line) (s : State) : Result := onNode s fun n => n.retryEnd l
def execPeriodicScanDue (l : Line) (s : State) : Result := onNode s fun n => n.periodicDue l

end Sys2Proof.Machine
end

