-- ==== Sys2Proof/Machine/PacketEvents.lean ====
section
/-! DEFINITION. The packet ports' events (chapter 7): input, output, ready, counting intervals. Their requests stand in
PacketRequests.lean. -/

namespace Sys2Proof.Machine

/-! ## Input (R137) -/

/-- A tributary frame as the port reads it. -/
structure Tributary where
  channel : Nat
  data : List Byte
  deriving DecidableEq, Repr

/-- The bytes received while frame-enable was asserted, as a good frame: 5 + L bytes, L in 1..1,536, a channel of 0..7, the
check of R143 over channel, length and data (R137, R203). -/
def readTributary (bs : List Byte) : Option Tributary :=
  let len := numAt bs 1 2
  if bs.length = 5 + len ∧ 1 ≤ len ∧ len ≤ 1536 ∧ f1 bs 0 ≤ 7
      ∧ check16 (bs.take (3 + len)) = BitVec.ofNat 16 (numAt bs (3 + len) 2) then
    some { channel := f1 bs 0, data := (bs.drop 3).take len }
  else none

def PacketPort.count (p : PacketPort) (f : PortCounts → PortCounts) : PacketPort := { p with counts := f p.counts }

/-- A tributary frame has arrived in full on an operating port (R137). One that was partly received when the port was disabled
is ignored (R136), and so is one that began before the port operated (the model's choice, log 53). -/
def Node.tributaryIn (n : Node) (k : Fin 4) (f : TributaryInput) : Node :=
  if n.portOperating k && f.whole then
    match readTributary f.bytes with
    | none => n.modPort k fun p => p.count fun c => { c with inputErrors := sat32 c.inputErrors }
    | some t =>
      match n.boundTo (8 * k.val + t.channel) with
      | none => n.modPort k fun p => p.count fun c => { c with unbound := sat32 c.unbound }
      | some id => (n.offerFrame id t.data).1
  else n

/-! ## Output (R151) -/

/-- The port begins to send the head of its receive queue, at the rate then set. -/
def PacketPort.begin (p : PacketPort) : PacketPort :=
  match p.sending, p.recv with
  | none, f :: _ => { p with sending := some (p.rate, f) }
  | _, _ => p
def Node.outputBegin (n : Node) (k : Fin 4) : Node := if n.portOperating k then n.modPort k PacketPort.begin else n

/-- The bytes of a tributary frame: channel, length, data, check (R203). -/
def ChannelFrame.bytes (f : ChannelFrame) : List Byte :=
  let covered := be1 f.channel ++ be2 f.data.length ++ f.data
  covered ++ be2 (check16 covered).toNat

/-- The frame being sent ends: it leaves the queue and is counted, and deliveries waiting for room are served (R151, R167). -/
def Node.outputEnd (n : Node) (k : Fin 4) : Node :=
  if (n.port k).sending.isSome then
    (n.modPort k fun p =>
      { p with recv := p.recv.tail, sending := none, counts := { p.counts with output := sat32 p.counts.output } }).roomOn k
  else n

/-! ## Counting intervals (R152) -/

def PortCounts.list (c : PortCounts) : List Nat := [c.inputErrors, c.unbound, c.discards, c.output]
def SvcCounts.list (c : SvcCounts) : List Nat :=
  [c.quotaDrops, c.poolDrops, c.ageDiscards, c.abandoned, c.packed, c.misrouted, c.syncGains, c.syncLosses, c.checkFailures,
    c.received, c.unexpected]
/-- The increases of counts since a mark. -/
def increases (now mark : List Nat) : List Nat := List.zipWith (· - ·) now mark
def PacketPort.delta (p : PacketPort) : List Nat := increases p.counts.list p.mark.list
def PeService.delta (v : PeService) : List Nat := increases v.counts.list v.mark.list
/-- Some of the counts at these places advanced. -/
def advanced (delta : List Nat) (places : List Nat) : Bool := places.any fun i => delta.getD i 0 != 0
/-- The counts whose advance brings a report: all but output frames, and all but packed frames, sync gains and received
frames. -/
def portErrors : List Nat := [0, 1, 2]
def svcErrors : List Nat := [0, 1, 2, 3, 5, 7, 8, 10]

/-- The entries of a PORT_EVENT. -/
def Node.portDeltas (n : Node) : List PortDelta :=
  (allFour.filter fun k => (n.port k).delta.any (· != 0)).map fun k => { port := k.val, counts := (n.port k).delta }
def Node.svcDeltas (n : Node) : List SvcDelta :=
  (n.pe.svcs.filter fun v => v.delta.any (· != 0)).map fun v =>
    { id := v.id, counts := v.delta, queued := v.queuedBytes, inSync := v.inSync }

/-- The 4,000th frame start of an interval closes it (R152). A service released before the interval's end is in no report, and its
counts call for none: the model's choice, log 66. -/
def Node.intervalEnd (n : Node) : Node :=
  if n.pe.interval.any fun c => decide (4000 ≤ c) then
    let wanted := allFour.any (fun k => advanced (n.port k).delta portErrors)
      || n.pe.svcs.any fun v => advanced v.delta svcErrors
    let n := if wanted then n.report (.portEvent n.runTime n.pe.poolFree n.portDeltas n.svcDeltas) else n
    { n with pe := { n.pe with
        ports := n.pe.ports.map fun p => { p with mark := p.counts }
        svcs := n.pe.svcs.map fun v => { v with mark := v.counts }
        interval := some 0 } }
  else n

/-! ## Commands -/

def execTributaryFrameReceived (k : Fin 4) (f : TributaryInput) (s : State) : Result := onNode s fun n => n.tributaryIn k f
def execTributaryFrameSent (k : Fin 4) (s : State) : Result := onNode s fun n => n.outputEnd k
def execOutputFrameBegin (k : Fin 4) (s : State) : Result := onNode s fun n => n.outputBegin k
def execReadyInputChange (k : Fin 4) (level : Bool) (s : State) : Result :=
  onNode (s.setPins { s.node.pins with ready := s.node.pins.ready.set k level }) fun n => n.readyOn k
def execCountingIntervalEnd (s : State) : Result := onNode s Node.intervalEnd

end Sys2Proof.Machine
end

