-- ==== Sys2Proof/Machine/Polling.lean ====
section
/-! DEFINITION. The poll controller (chapter 9): cycles, the poll queue, transactions, replies. Its requests stand in
PollRequests.lean. -/

namespace Sys2Proof.Machine

/-! ## Cycles and due times (R174, R176, R177) -/

/-- Polling begins; the cycle starts at the next frame start (R174). Until it does, the cycle position and length stay 0
and the stretched flag clear: the model's choice, log 70. -/
def PollController.begin (c : PollController) : PollController := { c with running := true, startWait := true }
/-- Polling stops: no cycle, no queue, no transaction (R174). The cycle position and length read 0, and the
stretched flag clear: the model's choice, log 23. -/
def PollController.stop (c : PollController) : PollController :=
  { c with
    running := false, startWait := false, cycleDue := false, pos := 0, len := 0, stretched := false, queue := [],
    txn := none, stations := c.stations.map fun x => { x with fallsDue := false } }

/-- The enabled stations whose offset equals the cycle position fall due (R176). -/
def PollController.markDue (c : PollController) : PollController :=
  { c with stations := c.stations.map fun x => { x with fallsDue := x.enabled && 400 * x.offset == c.pos } }

/-- One frame start: the cycle position advances, and at the cycle length a cycle start falls due (R176). -/
def PollController.frame (c : PollController) : PollController :=
  if !c.running then c
  else if c.startWait then { c with startWait := false, cycleDue := true }
  else if c.pos + 1 = c.len then { c with cycleDue := true }
  else ({ c with pos := c.pos + 1 }).markDue

/-- A cycle starts: position 0, its length from the interval and the economy flag (R176). -/
def Node.cycleStart (n : Node) : Node :=
  if n.pc.cycleDue then
    let economy := n.au.economy
    let len := 4000 * n.pc.interval * (if economy then 4 else 1)
    { n with pc := ({ n.pc with cycleDue := false, pos := 0, len := len, stretched := economy }).markDue }
  else n

/-- The line is free and the queue is not empty: the head's transaction begins (R177, R178). -/
def Node.beginPoll (n : Node) : Node :=
  match n.pc.txn, n.pc.queue with
  | none, q :: rest =>
    let n := { n with pc := { n.pc with
        queue := rest, txn := some { station := q.1, attempt := 1, phase := .sending, rate := n.pc.rate } } }
    n.modStation q.1 fun x => { x with counts := { x.counts with polls := sat32 x.counts.polls } }
  | _, _ => n

/-- The order of the poll queue: the longer distance back from now first, then the lower station (R177). -/
def dueBefore (now : BitVec 32) (x y : Fin 8 × BitVec 32) : Bool :=
  (now - y.2).toNat < (now - x.2).toNat || ((now - x.2) == (now - y.2) && decide (x.1 ≤ y.1))

/-- The station is queued or in transaction. -/
def PollController.engaged (c : PollController) (k : Fin 8) : Bool :=
  c.queue.any (·.1 == k) || c.txn.any (·.station == k)

/-- A station that falls due joins the queue, or counts a miss (R177). Stations due together are taken in station order. -/
def Node.stationDue (n : Node) (k : Fin 8) : Node :=
  if (n.station k).fallsDue && !(allStations.any fun j => decide (j < k) && (n.station j).fallsDue) then
    let n := n.modStation k fun x => { x with fallsDue := false }
    if n.pc.engaged k then
      n.modStation k fun x => { x with counts := { x.counts with misses := sat32 x.counts.misses } }
    else
      ({ n with pc := { n.pc with queue := insertBy (dueBefore n.runTime) (k, n.runTime) n.pc.queue } }).beginPoll
  else n

/-! ## Transactions (R178, R179) -/

/-- The poll telegram (R205). -/
def telegramBytes (address : Nat) : List Byte :=
  let covered := be1 address ++ [Config.readFunction]
  covered ++ be2 (check16 covered).toNat
/-- The telegram being sent on the poll line, if one is. -/
def Node.telegram (n : Node) : Option (List Byte) :=
  n.pc.txn.bind fun t => if t.phase = .sending then some (telegramBytes (n.station t.station).address) else none

/-- How an attempt is judged (R178). -/
inductive Verdict | valid (reading : List Byte) | timeout | badReply | wrongAddress
  deriving DecidableEq, Repr

/-- A complete reply of address, function, length, reading and check is judged (R178, R205). -/
def judgeReply (address : Nat) (bs : List Byte) : Verdict :=
  let len := f1 bs 2
  if bs.length = 5 + len ∧ 1 ≤ len ∧ len ≤ 64 ∧ bs.getD 1 0 = Config.readFunction
      ∧ check16 (bs.take (3 + len)) = BitVec.ofNat 16 (numAt bs (3 + len) 2) then
    if f1 bs 0 = address then .valid ((bs.drop 3).take len) else .wrongAddress
  else .badReply

/-- A change of a station's state, with its STATION_EVENT (R183). -/
def Node.stationTo (n : Node) (k : Fin 8) (st : StationState) (cause : StationCause) : Node :=
  let old := (n.station k).state
  let n := n.modStation k fun x => { x with state := st }
  let x := n.station k
  n.report (.stationEvent k x.address old st cause x.failures (x.reading.map (·.capture)))

/-- The transaction ends and the line is free (R179). -/
def Node.endPoll (n : Node) : Node := ({ n with pc := { n.pc with txn := none } }).beginPoll

/-- A failed second attempt (R179). -/
def Node.failedPoll (n : Node) (k : Fin 8) : Node :=
  let n := n.modStation k fun x => { x with failures := min 3 (x.failures + 1) }
  let x := n.station k
  let n := if x.failures = 3 ∧ x.state ≠ .silent then n.stationTo k .silent .silent else n
  n.endPoll

/-- A failed attempt: counted by its cause; the first is followed at once by the second (R178, R179). -/
def Node.attemptFails (n : Node) (t : Transaction) (f : StationCounts → StationCounts) : Node :=
  let n := n.modStation t.station fun x => { x with counts := f x.counts }
  if t.attempt = 1 then { n with pc := { n.pc with txn := some { t with attempt := 2, phase := .sending } } }
  else n.failedPoll t.station

/-- A valid reply gives the station a new reading, forwarded at once (R181). -/
def Node.newReading (n : Node) (k : Fin 8) (reading : List Byte) : Node :=
  let n := n.modStation k fun x =>
    { x with
      overwritten := if x.reading.isSome && x.unsent then sat8 x.overwritten else x.overwritten
      reading := some { bytes := reading, capture := n.runTime } }
  n.forwardReading k

/-- A successful attempt (R179, R181). -/
def Node.attemptSucceeds (n : Node) (t : Transaction) (reading : List Byte) : Node :=
  let k := t.station
  let n := n.modStation k fun x =>
    { x with failures := 0, counts := { x.counts with valid := sat32 x.counts.valid } }
  let n := n.newReading k reading
  let n := if (n.station k).state = .answering then n else n.stationTo k .answering .answered
  n.endPoll

/-- The attempt is judged (R178). -/
def Node.judgeAttempt (n : Node) (t : Transaction) (v : Verdict) : Node :=
  match v with
  | .valid reading => n.attemptSucceeds t reading
  | .timeout => n.attemptFails t fun c => { c with timeouts := sat32 c.timeouts }
  | .badReply => n.attemptFails t fun c => { c with badReplies := sat32 c.badReplies }
  | .wrongAddress => n.attemptFails t fun c => { c with wrongAddress := sat32 c.wrongAddress }

/-- The telegram's last stop bit ends: the window opens with the timeout in force (R178 phase 2). -/
def Node.windowOpens (n : Node) : Node :=
  match n.pc.txn with
  | some t =>
    if t.phase = .sending then { n with pc := { n.pc with txn := some { t with phase := .waiting 0 n.pc.timeout } } } else n
  | none => n

/-- The reply timeout has expired with no reply begun (R178). -/
def Node.replyTimeout (n : Node) : Node :=
  match n.pc.txn with
  | some t =>
    match t.phase with
    | .waiting ticks timeout => if timeout ≤ ticks then n.judgeAttempt t .timeout else n
    | _ => n
  | none => n

/-- A reply begins in the open window; a timeout that has expired goes first (R178 phase 3). -/
def Node.replyStart (n : Node) : Node :=
  let n := n.replyTimeout
  match n.pc.txn with
  | some t =>
    match t.phase with
    | .waiting _ _ => { n with pc := { n.pc with txn := some { t with phase := .receiving } } }
    | _ => n
  | none => n

/-- The reply being received ends, and the attempt is judged (R178 phase 4). -/
def Node.replyEnd (n : Node) (judge : Nat → Verdict) : Node :=
  match n.pc.txn with
  | some t => if t.phase = .receiving then n.judgeAttempt t (judge (n.station t.station).address) else n
  | none => n

/-- One tick of an open window (R178). -/
def PollController.tick (c : PollController) : PollController :=
  let next (t : Transaction) : Transaction :=
    match t.phase with
    | .waiting ticks timeout => { t with phase := .waiting (ticks + 1) timeout }
    | _ => t
  { c with txn := c.txn.map next }

/-! ## Commands -/

def execPollCycleStart (s : State) : Result := onNode s Node.cycleStart
def execStationDue (k : Fin 8) (s : State) : Result := onNode s fun n => n.stationDue k
def execPollTelegramSent (s : State) : Result := onNode s Node.windowOpens
def execPollReplyStart (s : State) : Result := onNode s Node.replyStart
def execPollReplyTimeout (s : State) : Result := onNode s Node.replyTimeout
def execPollReplyEnd (bs : List Byte) (s : State) : Result := onNode s fun n => n.replyEnd fun address => judgeReply address bs
/-- The bytes received so far make an incomplete reply, whatever they are: BAD_REPLY (R178, R205). -/
def execPollReplyGap (_bs : List Byte) (s : State) : Result := onNode s fun n => n.replyEnd fun _ => .badReply
/-- A run of bytes outside any window ends while polling runs: one late reply (R180). The count holds at 4,294,967,295: the
model's choice, log 57. -/
def execLateReplyRunEnd (s : State) : Result :=
  onNode s fun n => if n.pc.running then { n with pc := { n.pc with late := sat32 n.pc.late } } else n

end Sys2Proof.Machine
end

