-- ==== Sys2Proof/Machine/Link.lean ====
section
/-! DEFINITION. The management link (chapter 10): the receiver, the request buffer, the ends of replies and reports, power-on
and the reset input. Requests stand in Management.lean and its companions. -/

namespace Sys2Proof.Machine

/-! ## The receiver (R188, R189) -/

def Rejects.bump (r : Rejects) : RejectCause → Rejects
  | .tooLong => { r with tooLong := sat16 r.tooLong }
  | .gap => { r with gap := sat16 r.gap }
  | .byteError => { r with byteError := sat16 r.byteError }
  | .badCheck => { r with badCheck := sat16 r.badCheck }
  | .rateChange => { r with rateChange := sat16 r.rateChange }
  | .overrun => { r with overrun := sat16 r.overrun }

/-- Kind and tag of a frame, when the bytes at offsets 3 to 5 all arrived; `bs` are the bytes after the start marker. -/
def frameKind (bs : List Byte) : Option Byte := if 5 ≤ bs.length then bs[2]? else none
def frameTag (bs : List Byte) : Option (BitVec 16) := if 5 ≤ bs.length then some (BitVec.ofNat 16 (numAt bs 3 2)) else none

/-- A rejected frame is discarded, counted and reported; the receiver hunts again (R188). -/
def State.reject (s : State) (cause : RejectCause) (bs : List Byte) : State :=
  { s with
    node := s.node.report (.frameReject cause (frameKind bs) (frameTag bs) bs.length)
    link := { s.link with rx := .hunting, rejects := s.link.rejects.bump cause } }

/-- The gap since the last byte of a frame has reached 11 ticks: the frame is rejected (R188). -/
def State.gapEnd (s : State) : State :=
  match s.link.rx with
  | .frame bs gap => if 11 ≤ gap then s.reject .gap bs else s
  | .hunting => s

/-- A whole frame is offered to the request buffer: a place, a BUSY answer, or OVERRUN (R189). Of several free places it takes
the lowest-numbered: the model's choice, log 84. -/
def State.offerRequest (s : State) (r : Request) (bs : List Byte) : State :=
  match allFour.find? fun i => s.link.places[i].isNone with
  | some i =>
    { s with link := { s.link with
        rx := .hunting, places := s.link.places.set i (some { request := r, stage := .waiting })
        arrivals := s.link.arrivals ++ [i] } }
  | none =>
    if s.link.busy.length < Config.busyPlaces then
      { s with link := { s.link with
          rx := .hunting, busy := s.link.busy ++ [{ kind := r.kind, tag := r.tag }], formed := s.link.formed ++ [.busy]
          busyCount := sat16 s.link.busyCount } }
    else s.reject .overrun bs

/-- The request of a whole frame. -/
def frameRequest (bs : List Byte) : Request :=
  { kind := bs.getD 2 0, tag := BitVec.ofNat 16 (numAt bs 3 2), body := (bs.drop 5).take (numAt bs 0 2) }

/-- The length field is complete and shows more than 1,024 (R188). -/
def tooLong (bs : List Byte) : Bool := bs.length == 2 && decide (1024 < numAt bs 0 2)
/-- The last check byte has arrived: length, kind and tag, body, check. -/
def frameWhole (bs : List Byte) : Bool := decide (2 ≤ bs.length) && bs.length == 7 + numAt bs 0 2
/-- The check over every byte after the start marker and before the check. -/
def frameChecks (bs : List Byte) : Bool :=
  check16 (bs.take (bs.length - 2)) == BitVec.ofNat 16 (numAt bs (bs.length - 2) 2)

/-- The receiver takes a byte inside a frame (R188). -/
def State.frameByte (s : State) (bs : List Byte) : State :=
  if tooLong bs then s.reject .tooLong bs
  else if frameWhole bs then
    if frameChecks bs then s.offerRequest (frameRequest bs) bs else s.reject .badCheck bs
  else { s with link := { s.link with rx := .frame bs 0 } }

/-- The receiver takes a byte with a good stop bit (R188). -/
def State.rxByte (s : State) (b : Byte) : State :=
  let s := s.gapEnd
  match s.link.rx with
  | .hunting =>
    if b = Config.startMarker then { s with link := { s.link with rx := .frame [] 0 } }
    else { s with link := { s.link with stray := sat16 s.link.stray } }
  | .frame bs _ => s.frameByte (bs ++ [b])

/-- The receiver takes a byte with a low stop bit: outside a frame it is discarded, inside it ends the frame (R186, R188). -/
def State.rxError (s : State) : State :=
  let s := s.gapEnd
  match s.link.rx with
  | .hunting => s
  | .frame bs _ => s.reject .byteError bs

/-- The frame that a byte completes, or would complete up to its length field. -/
def Link.withByte (k : Link) (b : Byte) : Option (List Byte) :=
  match k.rx with
  | .hunting => none
  | .frame bs gap => if 11 ≤ gap then none else some (bs ++ [b])

/-! ## The ends of frames sent (R187, R189, R193, R196) -/

/-- The rate changes after the reply that carried it; a frame begun at the old rate is rejected (R187). -/
def State.changeRate (s : State) (r : LinkRate) : State :=
  if r = s.link.rate then s
  else
    let s := { s with link := { s.link with rate := r } }
    match s.link.rx with
    | .hunting => s
    | .frame bs _ => s.reject .rateChange bs

/-- Every block takes its power-on values; the link rate is kept (R196, R199). -/
def State.takeReset (s : State) : State := { s with node := s.node.powerOn, link := { rate := s.link.rate } }

/-- A place is freed. -/
def Link.free (k : Link) (i : Fin 4) : Link := { k with tx := .idle, places := k.places.set i none }

/-- What the sending of a reply brings. -/
def State.afterReply (s : State) : After → State
  | .nothing => s
  | .rate r => s.changeRate r
  | .reset => s.takeReset

/-- The last stop bit of a reply or of a BUSY answer has been sent (R189). -/
def State.replySent (s : State) : State :=
  match s.link.tx with
  | .place i =>
    let after := match s.link.places[i].map (·.stage) with
      | some (.sending _ a) => a
      | _ => .nothing
    ({ s with link := s.link.free i }).afterReply after
  | .busy => { s with link := { s.link with tx := .idle, busy := s.link.busy.tail } }
  | _ => s

/-- The last stop bit of a report has been sent (R193). -/
def State.reportSent (s : State) : State :=
  match s.link.tx with
  | .report =>
    { s with
      node := { s.node with reports := { s.node.reports with queue := s.node.reports.queue.tail } }
      link := { s.link with tx := .idle } }
  | _ => s

/-! ## Commands -/

/-- Power-on values of every block, the rate at 115,200; the inputs keep their levels (R206, R199). -/
def State.powerValues (s : State) : State := { s with node := s.node.powerOn, link := {} }
def State.setReset (s : State) (low : Bool) : State := s.setPins { s.node.pins with resetLow := low }

def execPowerOn (s : State) : Result := .next s.powerValues
def execResetInputLow (s : State) : Result := .next (s.powerValues.setReset true)
def execResetInputRise (s : State) : Result := .next (s.powerValues.setReset false)
def execLinkByteReceived (b : Byte) (stopLow : Bool) (s : State) : Result :=
  unlessHeld s fun s => if stopLow then s.rxError else s.rxByte b
/-- The byte completes a frame that is whole. -/
def execRequestFrameReceived (b : Byte) (s : State) : Result :=
  unlessHeld s fun s => if (s.link.withByte b).any frameWhole then s.rxByte b else s
/-- The byte completes a length field above 1,024. -/
def execFrameTooLong (b : Byte) (s : State) : Result :=
  unlessHeld s fun s => if (s.link.withByte b).any tooLong then s.rxByte b else s
def execFrameGap (s : State) : Result := unlessHeld s State.gapEnd
def execFrameByteError (s : State) : Result := unlessHeld s State.rxError
def execReplySent (s : State) : Result := unlessHeld s State.replySent
def execReportSent (s : State) : Result := unlessHeld s State.reportSent

end Sys2Proof.Machine
end

