-- ==== Sys2Proof/Machine/Frames.lean ====
section
/-! DEFINITION. The frame start and the 1 ms tick: the due events they take first (log 1), the frame count and every count of
frame starts, the presented payloads, the cross-connect, the frames begun, the cells dropped and the voice bus. -/

namespace Sys2Proof.Machine

/-! ## The tick (R186, R197) -/

/-- Every event that the last tick made due and no command has taken (log 1). -/
def State.settleTick (s : State) : State :=
  ({ s with node := (allPhones.foldl Node.settlePhone s.node).replyTimeout }).gapEnd

/-- One tick of the node: run time, sampling, call timers and cadences, an open reply window. -/
def Node.tick (n : Node) : Node :=
  { n with
    clk := { n.clk with tickDue := false }
    runTime := if n.op = .running then n.runTime + 1 else n.runTime
    cc := { n.cc with phones := Vector.zipWith (fun ph input => ph.tick input) n.cc.phones n.pins.loops }
    pc := n.pc.tick }
/-- One tick of the receiver. -/
def Rx.tick : Rx → Rx
  | .frame bs gap => .frame bs (gap + 1)
  | .hunting => .hunting

/-- The tick that a fourth frame start has given, if it has not been taken (R186). -/
def State.msTick (s : State) : State :=
  if s.node.clk.tickDue then
    let s := s.settleTick
    { s with node := s.node.tick, link := { s.link with rx := s.link.rx.tick } }
  else s

/-! ## Due events taken before a frame start (log 1) -/

def Node.takeAuSignal (n : Node) (g : PathSignal) : Node :=
  n.auTakes g fun n =>
    match g with
    | .lost x => n.reroute x
    | .restored x => n.revert x
/-- Every path signal not yet taken is taken by its receiver, in the order given. -/
def Node.takeSignals (n : Node) : Node :=
  let n := n.sig.au.foldl Node.takeAuSignal n
  let n := n.sig.cc.foldl Node.ccTakes n
  n.sig.pe.foldl Node.peTakes n

/-- Every due event of the node that no command has taken. -/
def Node.settle (n : Node) : Node :=
  let n := (((n.settleLine .u).settleLine .d).periodicDue .u).periodicDue .d
  let n := (((n.holdOffEnd .a).holdOffEnd .b).wtrEnd .a).wtrEnd .b
  let n := n.timingRevert.takeSignals
  let n := (allFour.foldl Node.stateTimerEnd n).intervalEnd.cycleStart
  allStations.foldl Node.stationDue n

/-- Due events are taken before the next frame start: the last tick's, the tick itself, those it made due, the node's. -/
def State.settle (s : State) : State :=
  let s := s.settleTick.msTick.settleTick
  { s with node := s.node.settle }

/-! ## Counts of frame starts -/

/-- The frame count and the tick it drives: a tick at every fourth frame start (R44, R186, log 7). -/
def Clock.advance (c : Clock) : Clock :=
  { frame := c.next, started := true, phase := if c.phase = 3 then 0 else c.phase + 1, tickDue := c.phase == 3 }

/-- The state frame timer advances while RECEIVING or SUSPENDED (R165). -/
def Transfer.frame (r : Transfer) : Transfer :=
  match r.state with
  | .receiving | .suspended => { r with timer := min 4000 (r.timer + 1) }
  | _ => r
/-- The periodic scan timer runs in UP (R23). -/
def LinePort.frame (p : LinePort) : LinePort := { p with periodic := p.periodic.map (· - 1) }

/-- Everything that counts frame starts. -/
def Node.countFrame (n : Node) : Node :=
  { n.pathFrame with
    clk := n.clk.advance
    line := ⟨n.line.u.frame, n.line.d.frame⟩
    cs := { n.cs with conflictAge := n.cs.conflictAge.map fun a => min 240000 (a + 1) }
    pe := { n.pe with interval := n.pe.interval.map (· + 1) }
    te := { n.te with recs := n.te.recs.map fun r => r.map Transfer.frame }
    pc := n.pc.frame }

/-! ## Presented payloads (R49, R50) -/

/-- A receive line presents its payload for the frame that begins. -/
def SwitchLine.present (w : SwitchLine) (failed : Bool) : SwitchLine :=
  if failed then
    let hold := sat16 w.hold
    { w with hold := hold, presented := if hold ≤ 8 then w.presented else none, newest := none, arrived := 0 }
  else match w.newest with
    | some cells =>
      { w with
        presented := some cells, newest := none, arrived := 0
        skipped := min Config.top16 (w.skipped + (w.arrived - 1)) }
    | none => { w with repeated := sat16 w.repeated, arrived := 0 }

/-- The 936 cells presented; none is idle fill. -/
def SwitchLine.cells (w : SwitchLine) : List CellVal := w.presented.getD (List.replicate Config.cellCount Config.idleFill)

/-! ## The cross-connect (R51, R52) -/

/-- What the call controller gives for a port's cell: the voice received in the latest voice bus frame while the call talks
in it, else idle fill (R116). A call whose service's record has not been applied has no live cell, even where the id still owns the
cell live from the call before: idle fill there is the model's choice, log 75. -/
def Phone.addCell (ph : Phone) (c : Nat) : CellVal :=
  if ph.call.talks && ph.liveCell == some c then ph.voiceIn else Config.idleFill

/-- The value that a half of an ALLOTTED cell adds (R52). -/
def Node.addValue (n : Node) (ts : List Train) (x : Side) (e : HalfEntry) : CellVal :=
  match e.owner x with
  | none => Config.idleFill
  | some id => if id < 56 then trainCell ts id x e.cell else (n.phone (fin8 (id - 56))).addCell e.cell

/-- The cells of a frame from cell `c` on: ALLOTTED cells carry their half's value, the others the passed cell. -/
def overlay (value : HalfEntry → CellVal) : Nat → List HalfEntry → List CellVal → List CellVal
  | _, _, [] => []
  | _, [], src => src
  | c, e :: es, v :: vs =>
    if e.cell = c then value e :: overlay value (c + 1) es vs else v :: overlay value (c + 1) (e :: es) vs

/-- The check field of a line's first frame: over 1,920 bytes of 00h (R3). -/
def emptyCheck : BitVec 16 := check16 (List.replicate 1920 0)

/-- The overhead of the frame begun on a line (R2, R12, R29). -/
def Node.txOverhead (n : Node) (l : Line) (notice : List Byte) : TxOverhead :=
  let p := n.line.get l
  let far := l.other.side
  let reach := (n.pathOf far).reach
  { node := n.cfg.nodeNumber, count := n.clk.frame, reach := reach, hop := if reach then (n.hopOf far).getD 0 + 1 else 0
    request := p.request, applied := p.txPreset, rxTrained := p.rxTrained, remoteDefect := p.state != .up || p.sf
    economy := n.au.economy, notice := notice, check := p.txCheck.getD emptyCheck }

/-- The first frame that carries a preset request has been begun (R17 step 2). -/
def Training.sent : Training → Training
  | .search preset .request widths => .search preset (.confirm 0) widths
  | t => t

/-- A line begins its frame, or is dark in DISABLED (R1, R2, R59). -/
def Node.beginFrame (n : Node) (ts : List Train) (l : Line) : Node :=
  if (n.line.get l).state = .disabled then n.modLine l fun p => { p with txFrame := none }
  else
    let q := (n.cs.line.get l).noticeOut n.cfg.nodeNumber
    let n := n.modSwitch l fun _ => q.2
    let overhead := (n.txOverhead l q.1).bytes
    let cells := overlay (n.addValue ts l.side) 0 n.cs.live (n.cs.line.get l.other).cells
    n.modLine l fun p =>
      { p with
        txCheck := some (frameCheck overhead cells), txFrame := some { overhead := overhead, cells := cells }
        training := p.training.sent }

/-! ## Drops (R52, R146 to R150) -/

/-- The cells whose half on a side is live-owned by an id, ascending. -/
def Node.liveCells (n : Node) (id : Nat) (x : Side) : List Nat := (n.cs.live.filter (·.owner x == some id)).map (·.cell)

/-- A good frame is handed on by the service's binding (R150). -/
def Node.handFrame (n : Node) (v : Service) (data : List Byte) : Node :=
  match v.binding with
  | .packet port channel _ _ => n.toReceiveQueue (fin4 port) { channel := channel, data := data }
  | .transfer .. => n.segment v.id data
  | .poll .. =>
    match n.peOf v.id with
    | some w => n.setPe { w with counts := { w.counts with unexpected := sat32 w.counts.unexpected } }
    | none => n
  | .phone _ => n

/-- A service reads the train of its receive side (R146 to R149). -/
def Node.readService (n : Node) (id : Nat) : Node :=
  match n.peOf id, n.svc id with
  | some v, some sv =>
    match (if v.attached then receiveSide sv.prot v else none) with
    | none => n
    | some x =>
      let src := (n.cs.line.get x.line).cells
      match (n.liveCells id x).map fun c => src.getD c Config.idleFill with
      | [] => n
      | header :: payload =>
        let r := readTrain header (payload.flatMap cellBytes) v
        r.2.foldl (fun n data => n.handFrame sv data) (n.setPe r.1)
  | _, _ => n
/-- Every service reads its train, in id order; pages completed in the frame close, and STORE-suspended transfers resume after
the last of them (R162). -/
def Node.readTrains (n : Node) : Node :=
  let m := (n.pe.svcs.map (·.id)).foldl Node.readService n
  m.resumeIf (n.closedBy m)

/-! ## The voice bus (R116, R117, R119) -/

/-- A voice bus channel in the frame that begins: the cell and tone code sent, the cell received. -/
def Node.voiceChannel (n : Node) (voice : Vector CellVal 8) (p : Fin 8) : Node :=
  n.modPhone p fun ph =>
    if n.phoneOn p then
      { ph with
        voiceIn := voice[p], toneOut := ph.tone
        voiceOut := match ph.call.talks, ph.liveCell, ph.selected with
          | true, some c, some x => (n.cs.line.get x.line).cells.getD c Config.idleFill
          | _, _, _ => Config.idleFill }
    else { ph with voiceIn := Config.idleFill, toneOut := 0, voiceOut := Config.idleFill }

/-! ## The frame start (R44) -/

/-- What a frame start does once every due event has been taken: records fall due, counts advance, every cell is switched. -/
def Node.frameStart (n : Node) (voice : Vector CellVal 8) : Node :=
  let n := n.applyDue.countFrame
  let n := n.modSwitch .u fun w => w.present (n.line.get .u).state.failed
  let n := n.modSwitch .d fun w => w.present (n.line.get .d).state.failed
  let t := n.buildTrains
  let n := (t.1.beginFrame t.2 .u).beginFrame t.2 .d
  allPhones.foldl (fun n p => n.voiceChannel voice p) n.readTrains

/-! ## Commands -/

def execFrameStart (voice : Vector CellVal 8) (s : State) : Result :=
  unlessHeld s fun s =>
    let s := s.settle
    { s with node := s.node.frameStart voice }
def execMsTick (loops : Vector Bool 8) (s : State) : Result :=
  unlessHeld (s.setPins { s.node.pins with loops := loops }) State.msTick

end Sys2Proof.Machine
end

