-- ==== Sys2Proof/Machine/Management.lean ====
section
/-! DEFINITION. The requests of the management link controller (chapter 10): IDENTIFY, SET_LINK, START, RESET, NODE_STATUS, and
the refusal of an unknown kind. -/

namespace Sys2Proof.Machine

/-- The request kinds are 01h..1Fh (R201). -/
def isRequestKind (k : Byte) : Bool := decide (1 ≤ k.toNat) && decide (k.toNat ≤ 31)

def ownUnknown (_ : Link) (_ : List Byte) (n : Node) : Answer := { node := n, reply := refusal .unknownKind }

def ownIdentify (k : Link) (body : List Byte) (n : Node) : Answer :=
  checked n (commonChecks n false body 0)
    { node := n
      reply := okReply ([Config.familyCode] ++ be2 Config.partNumber ++ [Config.siliconRevision] ++ be1 n.op.code
        ++ be1 k.rate.code ++ be1 n.cfg.nodeNumber) }

/-- SET_LINK (R187): a new rate takes effect when its reply has been sent. -/
def ownSetLink (k : Link) (body : List Byte) (n : Node) : Answer :=
  checked n (commonChecks n false body 1)
    (match linkRateOf (f1 body 0) with
      | none => { node := n, reply := badField 0 }
      | some r => { node := n, reply := okReply (be1 r.code), after := if r = k.rate then .nothing else .rate r })

/-! ## START (R195) -/

/-- Every order number present becomes 0 (R66, R89). -/
def Service.renumber (v : Service) : Service := { v with adm := v.adm.map fun _ => 0, shedNo := v.shedNo.map fun _ => 0 }
/-- A line whose enabled setting is yes goes to SEEKING (R6). -/
def Node.startLine (n : Node) (l : Line) : Node := if (n.line.get l).enabled then n.enableLine l else n
/-- Sampling begins on an enabled port (R111). -/
def Phone.startUp (ph : Phone) : Phone := if ph.set.enabled then ph.beginSampling else ph

/-- An accepted START, steps 1 to 6 (R195). Line U is enabled before line D, so that its LINE_EVENT of cause ENABLED comes first:
the model's choice, log 60. -/
def Node.start (n : Node) : Node :=
  let n := { n with
    op := .running, runTime := 0
    au := { n.au with admCounter := 0, shedCounter := 0, services := n.au.services.map Service.renumber }
    cs := { n.cs with conflicts := 0, conflictAge := none } }
  let n := (n.startLine .u).startLine .d
  let n := { n with
    cc := { n.cc with phones := n.cc.phones.map Phone.startUp }
    pe := { n.pe with interval := some 0 }
    pc := if n.pc.enabled then n.pc.begin else n.pc }
  n.pass

/-- The lines that START takes to SEEKING. -/
def Node.linesToStart (n : Node) : Nat := n.line.u.enabled.toNat + n.line.d.enabled.toNat

def ownStart (_ : Link) (body : List Byte) (n : Node) : Answer :=
  checked n
    (commonChecks n false body 0 ++
      [(n.op == .running, refusal .alreadyStarted), (n.cfg.nodeNumber == 0, refusal .nodeUnset)])
    { node := n.start, reply := okReply (be1 n.cfg.nodeNumber ++ be1 n.linesToStart) }

/-- RESET (R196): the values are taken when its reply has been sent. -/
def ownReset (_ : Link) (body : List Byte) (n : Node) : Answer :=
  checked n (commonChecks n false body 0) { node := n, reply := okReply [], after := .reset }

/-! ## NODE_STATUS (R198) -/

def Stage.code : Stage → Nat
  | .waiting => 1
  | .answered .. => 2
  | .sending .. => 3
/-- A place: its stage, 0 when free, with the request's kind and tag. -/
def placeFields (p : Option Place) : List Byte :=
  be1 ((p.map (·.stage.code)).getD 0) ++ opt1 (p.map (·.request.kind.toNat)) ++ opt2 (p.map (·.request.tag.toNat))

/-- The fields of NODE_STATUS (R198). The four places of the request buffer are sent without a count before them: the model's
choice, log 83. -/
def nodeStatusFields (k : Link) (n : Node) : List Byte :=
  be1 n.op.code ++ be4 n.runTime.toNat ++ be2 n.clk.frame.toNat ++ be1 k.rate.code ++ be1 n.cfg.nodeNumber
    ++ k.places.toList.flatMap placeFields ++ be1 k.busy.length ++ be1 n.reports.queue.length
    ++ codeBool n.reports.lostMark ++ be2 k.stray ++ be2 k.rejects.tooLong ++ be2 k.rejects.gap ++ be2 k.rejects.byteError
    ++ be2 k.rejects.badCheck ++ be2 k.rejects.rateChange ++ be2 k.rejects.overrun ++ be2 k.busyCount
    ++ be2 n.reports.lost ++ be1 n.path.u.state.code ++ be1 n.path.d.state.code ++ be1 n.timing.source.code
    ++ codeBool n.au.economy

def ownNodeStatus (k : Link) (body : List Byte) (n : Node) : Answer :=
  checked n (commonChecks n false body 0) { node := n, reply := okReply (nodeStatusFields k n) }

/-! ## Commands -/

def execUnknownKindRequest (s : State) : Result := handle s (fun r => !isRequestKind r.kind) ownUnknown
def execIdentify (s : State) : Result := handle s (isKind 0x01#8) ownIdentify
def execSetLink (s : State) : Result := handle s (isKind 0x02#8) ownSetLink
def execStart (s : State) : Result := handle s (isKind 0x03#8) ownStart
def execReset (s : State) : Result := handle s (isKind 0x04#8) ownReset
def execNodeStatus (s : State) : Result := handle s (isKind 0x05#8) ownNodeStatus

end Sys2Proof.Machine
end

