-- ==== Sys2Proof/Machine/LineRequests.lean ====
section
/-! DEFINITION. The requests of the line ports and the path monitor (chapters 1 and 2). -/

namespace Sys2Proof.Machine

/-! ## SET_NODE (R30) -/

/-- The settings that an accepted SET_NODE leaves; a node number of 0 leaves the number as it stands. -/
def Settings.replaced (old : Settings) (b : List Byte) : Settings :=
  { nodeNumber := if f1 b 0 = 0 then old.nodeNumber else f1 b 0
    hopLimit := f1 b 1, holdOff := f2 b 2, wtr := f2 b 4, pref := (prefOf (f1 b 6)).getD .uFirst
    rounding := (roundingOf (f1 b 7)).getD .nearestEven, lead := f1 b 8 }

/-- The new settings act at once on reach-present, and a changed timing preference on the timing source (R30, R41). -/
def Node.applySettings (n : Node) (c : Settings) : Node :=
  let m := (({ n with cfg := c }).formReach .a).formReach .b
  if c.pref = n.cfg.pref then m else m.timingRevert

def ownSetNode (_ : Link) (b : List Byte) (n : Node) : Answer :=
  checked n
    (commonChecks n false b 9 ++
      [(outside (f1 b 0) 0 250, badField 0), (outside (f1 b 1) 1 250, badField 1),
       (outside (f2 b 2) 0 10000 || f2 b 2 % 10 != 0, badField 2), (outside (f2 b 4) 10 900, badField 3),
       (bad (prefOf (f1 b 6)), badField 4), (bad (roundingOf (f1 b 7)), badField 5), (outside (f1 b 8) 4 64, badField 6),
       (n.op == .running && f1 b 0 != 0 && f1 b 0 != n.cfg.nodeNumber, refusal .wrongState)])
    { node := n.applySettings (n.cfg.replaced b), reply := okReply [] }

/-! ## LINE_SET (R5, R6, R23) -/

/-- The settings of a port replaced; in UP a changed interval restarts the periodic timer from its reply (R23), which is read as
the event that takes the request and forms the reply: log 86. -/
def LinePort.configure (p : LinePort) (b : List Byte) : LinePort :=
  let minutes := f2 b 9
  { p with
    enabled := f1 b 1 == 1, sdThr := f2 b 2, sfThr := f2 b 4, dwell := f2 b 6, allowance := f1 b 8, minutes := minutes
    periodic := if p.state = .up ∧ minutes ≠ p.minutes then (if minutes = 0 then none else some (240000 * minutes))
      else p.periodic }

/-- What the enabled field does in RUNNING (R6). -/
def Node.enableAsSet (n : Node) (l : Line) : Node :=
  let p := n.line.get l
  if n.op = .config then n
  else if p.enabled then (if p.state = .disabled then n.enableLine l else n)
  else if p.state = .disabled then n
  else n.disableLine l

def ownLineSet (_ : Link) (b : List Byte) (n : Node) : Answer :=
  checked n
    (commonChecks n false b 11 ++
      [(bad (lineOf (f1 b 0)), badField 0), (bad (boolOf (f1 b 1)), badField 1), (outside (f2 b 2) 1 4000, badField 2),
       (outside (f2 b 4) 2 4000, badField 3), (outside (f2 b 6) 100 4000, badField 4), (outside (f2 b 9) 0 1440, badField 6),
       (decide (f2 b 4 ≤ f2 b 2), badField 3)])
    (let l := (lineOf (f1 b 0)).getD .u
     { node := (n.modLine l fun p => p.configure b).enableAsSet l, reply := okReply [] })

/-! ## MARGIN_SCAN (R22)

The line is judged before the port's state: the model's choice, log 17. -/

def ownMarginScan (_ : Link) (b : List Byte) (n : Node) : Answer :=
  let l := (lineOf (f1 b 0)).getD .u
  let p := n.line.get l
  checked n
    (commonChecks n true b 1 ++
      [(bad (lineOf (f1 b 0)), badField 0), (p.state != .up, refusal .wrongState), (p.scan.isSome, refusal .busy)])
    { node := n.startScan l .requested, reply := okReply (be2 p.dwell ++ be1 p.allowance) }

/-! ## LINE_STATUS (R26) -/

/-- The confirmed overhead copy, or its fields absent (R26, log 18). -/
def overheadFields (o : Option Overhead) : List Byte :=
  be1 ((o.map (·.node.toNat)).getD 0) ++ opt2 (o.map (·.count.toNat)) ++ opt1 (o.map (·.reach.toNat)) ++ opt2 (o.map (·.hop))
    ++ opt1 (o.bind (·.request)) ++ opt1 (o.map (·.applied)) ++ opt1 (o.map (·.rxTrained.toNat))
    ++ opt1 (o.map (·.remoteDefect.toNat)) ++ opt1 (o.map (·.economy.toNat))
/-- The latest margin result, or its fields absent (R24). -/
def marginFields (r : Option MarginResult) : List Byte :=
  opt1 (r.map (·.left)) ++ opt1 (r.map (·.right)) ++ opt1 (r.map (·.width)) ++ opt1 (r.map (·.grade.code))
    ++ opt4 (r.bind (·.edgeLeft)) ++ opt4 (r.bind (·.edgeRight)) ++ opt2 (r.map (·.dwell)) ++ opt1 (r.map (·.allowance))
    ++ opt1 (r.map (·.origin.code)) ++ opt4 (r.map (·.runTime.toNat))

def lineStatusFields (p : LinePort) : List Byte :=
  be1 p.state.code ++ codeBool p.enabled ++ be1 p.txPreset ++ opt1 p.trained ++ opt1 p.request ++ codeBool p.rxTrained
    ++ codeBool p.sd ++ codeBool p.sf ++ be2 p.win.errors ++ be2 p.win.last ++ be1 p.win.below ++ be2 p.sdThr ++ be2 p.sfThr
    ++ be2 p.dwell ++ be1 p.allowance ++ be2 p.minutes ++ overheadFields p.confirmed ++ codeBool p.scan.isSome
    ++ opt1 (p.scan.map (·.origin.code)) ++ marginFields p.result

def ownLineStatus (_ : Link) (b : List Byte) (n : Node) : Answer :=
  checked n (commonChecks n false b 1 ++ [(bad (lineOf (f1 b 0)), badField 0)])
    { node := n, reply := okReply (lineStatusFields (n.line.get ((lineOf (f1 b 0)).getD .u))) }

/-! ## PATH_FORCE (R36) and PATH_STATUS (R43) -/

/-- The checks of PATH_FORCE: NOT_STARTED, length, side, action. -/
def forceChecks (n : Node) (b : List Byte) : List (Bool × Reply) :=
  commonChecks n true b 2 ++ [(bad (sideOf (f1 b 0)), badField 0), (outside (f1 b 1) 0 1, badField 1)]
/-- The reply: the side's path state after the request. -/
def forceAnswer (n : Node) (x : Side) : Answer := { node := n, reply := okReply (be1 (n.pathOf x).state.code) }

def ownPathForceSet (_ : Link) (b : List Byte) (n : Node) : Answer :=
  let x := (sideOf (f1 b 0)).getD .a
  checked n (forceChecks n b) (forceAnswer (n.forceOut x) x)
def ownPathForceClear (_ : Link) (b : List Byte) (n : Node) : Answer :=
  let x := (sideOf (f1 b 0)).getD .a
  checked n (forceChecks n b) (forceAnswer (n.forceClear x) x)

/-- The timer running on a side: hold-off, WTR or none (R43). -/
def PathSide.running (p : PathSide) : Option Nat :=
  match p.state with
  | .holdOff => some 0
  | .waitRestore => some 1
  | .reachable | .lost => none

/-- The fields of a side (R43). The forwarded reach flag and hop count are those of reach-present as it stands, whatever the
other line's state: the model's choice, log 49. -/
def pathSideFields (n : Node) (x : Side) : List Byte :=
  let p := n.pathOf x
  be1 p.state.code ++ codeBool p.initial ++ codeBool p.forced ++ opt1 p.running ++ opt4 (p.running.map fun _ => p.timer)
    ++ codeBool p.reach ++ opt2 (n.hopOf x) ++ codeBool p.reach ++ be1 (if p.reach then (n.hopOf x).getD 0 + 1 else 0)

/-- The fields of PATH_STATUS (R43). The two sides are sent without a count before them: the model's choice, log 83. -/
def pathStatusFields (n : Node) : List Byte :=
  pathSideFields n .a ++ pathSideFields n .b ++ be1 n.cfg.hopLimit ++ be2 n.cfg.holdOff ++ be2 n.cfg.wtr
    ++ be1 n.timing.source.code ++ be1 n.cfg.pref.code ++ be4 n.timing.clean.u ++ be4 n.timing.clean.d
    ++ be1 n.cfg.nodeNumber

def ownPathStatus (_ : Link) (b : List Byte) (n : Node) : Answer :=
  checked n (commonChecks n false b 0) { node := n, reply := okReply (pathStatusFields n) }

/-! ## Commands -/

def execSetNode (s : State) : Result := handle s (isKind 0x06#8) ownSetNode
def execLineSet (s : State) : Result := handle s (isKind 0x07#8) ownLineSet
def execMarginScan (s : State) : Result := handle s (isKind 0x08#8) ownMarginScan
def execLineStatus (s : State) : Result := handle s (isKind 0x09#8) ownLineStatus
def execPathForceSet (s : State) : Result := handle s (isKindBut 0x0A#8 1 [0x01#8]) ownPathForceSet
def execPathForceClear (s : State) : Result := handle s (isKindWith 0x0A#8 1 0x01#8) ownPathForceClear
def execPathStatus (s : State) : Result := handle s (isKind 0x0B#8) ownPathStatus

end Sys2Proof.Machine
end

