-- ==== Sys2Proof/Machine/SwitchRequests.lean ====
section
/-! DEFINITION. SET_ALLOTMENT and MAP_STATUS (chapter 3). -/

namespace Sys2Proof.Machine

/-! ## SET_ALLOTMENT (R46, R47) -/

/-- The cell list of the body. -/
def allotmentCells (b : List Byte) : List Nat := (List.range (f2 b 1)).map fun i => f2 b (3 + 2 * i)

/-- The position of the first cell number above 935. -/
def wrongCell (cells : List Nat) : Option Nat := cells.findIdx? fun c => decide (Config.cellCount ≤ c)

/-- A half of the cell has an owner. -/
def ownedIn (m : List HalfEntry) (c : Nat) : Bool := (entryOf m c).any fun e => e.a.isSome || e.b.isSome
/-- A cell is in use: a table owner, a live owner, or a place in a staging record's new set (R46). -/
def Node.cellInUse (n : Node) (c : Nat) : Bool :=
  ownedIn n.au.allot c || ownedIn n.cs.live c || n.cs.staging.any fun r => r.set.a.contains c || r.set.b.contains c
def Node.allotted (n : Node) (c : Nat) : Bool := (entryOf n.au.allot c).isSome

/-- The refusal of a REMOVE by its first cell, in list order, that is not allotted or is in use. -/
def Node.removeRefusal (n : Node) : List Nat → Option Reply
  | [] => none
  | c :: cs =>
    if !n.allotted c then some (refusal .notAllotted (be2 c))
    else if n.cellInUse c then some (refusal .cellInUse (be2 c))
    else n.removeRefusal cs

/-- Checks 1 to 4 of R46. A cell number above 935 is refused as the cell list with the position of the entry after it: the
model's choice, log 61. -/
def allotmentChecks (b : List Byte) : List (Bool × Reply) :=
  [(decide (b.length < 3), refusal .badLength), (outside (f1 b 0) 0 1, badField 0), (outside (f2 b 1) 1 256, badField 1),
   (b.length != 3 + 2 * f2 b 1, refusal .badLength),
   ((wrongCell (allotmentCells b)).isSome, badField 2 (be1 ((wrongCell (allotmentCells b)).getD 0)))]

/-- Allot cells: both owners none, both live halves idle (R47). -/
def Node.addCells (n : Node) (cells : List Nat) : Node :=
  { n with
    au := { n.au with allot := cells.foldl addCell n.au.allot }
    cs := { n.cs with live := cells.foldl addCell n.cs.live } }
def Node.removeCells (n : Node) (cells : List Nat) : Node :=
  { n with
    au := { n.au with allot := cells.foldl removeCell n.au.allot }
    cs := { n.cs with live := cells.foldl removeCell n.cs.live } }

def ownSetAllotmentAdd (_ : Link) (b : List Byte) (n : Node) : Answer :=
  checked n (allotmentChecks b)
    (let m := n.addCells (allotmentCells b)
     let changed := m.au.allot.length - n.au.allot.length
     { node := if changed = 0 then m else m.pass, reply := okReply (be2 changed) })

def ownSetAllotmentRemove (_ : Link) (b : List Byte) (n : Node) : Answer :=
  checked n (allotmentChecks b)
    (match n.removeRefusal (allotmentCells b) with
     | some r => { node := n, reply := r }
     | none =>
       let m := n.removeCells (allotmentCells b)
       { node := m, reply := okReply (be2 (n.au.allot.length - m.au.allot.length)) })

/-! ## MAP_STATUS (R62) -/

def stagingFields (r : Staging) : List Byte := be1 r.id ++ be2 r.eff.toNat ++ be1 (r.set.a.length + r.set.b.length)
def switchLineFields (w : SwitchLine) (failed : Bool) : List Byte :=
  be1 (w.waiting.length + w.sending.isSome.toNat) ++ opt1 (w.sending.map (·.notice.id)) ++ opt1 (w.sending.map (·.next))
    ++ [w.seq] ++ be2 w.skipped ++ be2 w.repeated ++ be2 w.lost ++ opt2 (if failed then some w.hold else none)
/-- A cell: allotted, table owners, live mode, live owners. -/
def cellFields (n : Node) (c : Nat) : List Byte :=
  let t := entryOf n.au.allot c
  let v := entryOf n.cs.live c
  codeBool t.isSome ++ opt1 (t.bind (·.a)) ++ opt1 (t.bind (·.b)) ++ codeBool v.isSome ++ opt1 (v.bind (·.a))
    ++ opt1 (v.bind (·.b))

/-- The fields of MAP_STATUS (R62). The two lines are sent without a count before them: the model's choice, log 83. -/
def mapStatusFields (n : Node) (first count : Nat) : List Byte :=
  be2 n.clk.frame.toNat ++ be1 n.cfg.lead ++ listed n.cs.staging stagingFields
    ++ switchLineFields n.cs.line.u n.line.u.state.failed ++ switchLineFields n.cs.line.d n.line.d.state.failed
    ++ be2 n.cs.conflicts ++ listed ((List.range count).map (first + ·)) (cellFields n)

def ownMapStatus (_ : Link) (b : List Byte) (n : Node) : Answer :=
  checked n
    (commonChecks n false b 3 ++
      [(decide (Config.cellCount ≤ f2 b 0), badField 0),
       (outside (f1 b 2) 1 128 || decide (Config.cellCount < f2 b 0 + f1 b 2), badField 1)])
    { node := n, reply := okReply (mapStatusFields n (f2 b 0) (f1 b 2)) }

/-! ## Commands -/

def execSetAllotmentAdd (s : State) : Result := handle s (isKindBut 0x0C#8 0 [0x01#8]) ownSetAllotmentAdd
def execSetAllotmentRemove (s : State) : Result := handle s (isKindWith 0x0C#8 0 0x01#8) ownSetAllotmentRemove
def execMapStatus (s : State) : Result := handle s (isKind 0x0D#8) ownMapStatus

end Sys2Proof.Machine
end

