-- ==== Sys2Proof/Machine/ServiceRequests.lean ====
section
/-! DEFINITION. The requests of the admission unit (chapters 4 and 5). -/

namespace Sys2Proof.Machine

/-! ## SET_LEVELS (R68) -/

def pairsOf (count : Nat) (f : Nat → Bool × Reply) : List (Bool × Reply) := (List.range count).map f

/-- Check 1: every level, ceiling and flag in range, in field order. -/
def levelFieldChecks (b : List Byte) : List (Bool × Reply) :=
  pairsOf 4 (fun i => (outside (f1 b i) 1 3, badField i))
    ++ pairsOf 4 (fun i => (decide (1872 < f2 b (4 + 2 * i)), badField (4 + i)))
    ++ pairsOf 6 (fun i => (bad (boolOf (f1 b (12 + i))), badField (8 + i)))
/-- Check 2: a class with a record keeps its level (R68). Of several, the first of T, C, S, W is named: the model's choice,
log 51. -/
def classInUseChecks (n : Node) (b : List Byte) : List (Bool × Reply) :=
  [(Class.t, 0), (.c, 1), (.s, 2), (.w, 3)].map fun c =>
    (f1 b c.2 != n.au.map.level c.1 && n.au.services.any (·.cls == c.1), refusal .classInUse (be1 c.1.code))
/-- Check 3: no ceiling below its level's use (R68). Of several, the lowest level is named: the model's choice, log 51. -/
def ceilingChecks (n : Node) (b : List Byte) : List (Bool × Reply) :=
  pairsOf 4 fun i =>
    (decide (f2 b (4 + 2 * i) < n.levelUse i), refusal .ceilingBelowUse (be1 i ++ be2 (n.levelUse i)))

def classMapOf (b : List Byte) : ClassMap :=
  { t := f1 b 0, c := f1 b 1, s := f1 b 2, w := f1 b 3
    ceiling := #v[f2 b 4, f2 b 6, f2 b 8, f2 b 10]
    pre := #v[f1 b 12 == 1, f1 b 13 == 1, f1 b 14 == 1]
    may := #v[f1 b 15 == 1, f1 b 16 == 1, f1 b 17 == 1] }

def ownSetLevels (_ : Link) (b : List Byte) (n : Node) : Answer :=
  checked n (commonChecks n false b 18 ++ levelFieldChecks b ++ classInUseChecks n b ++ ceilingChecks n b)
    (let map := classMapOf b
     let raised := (List.range 4).any fun lv => decide (n.au.map.ceilingOf lv < map.ceilingOf lv)
     let m := { n with au := { n.au with map := map } }
     { node := if raised then m.pass else m, reply := okReply [] })

/-! ## DEFINE_SERVICE (R77 to R81) -/

/-- The binding kinds of a request. -/
inductive BindKind | packet | poll | transfer
  deriving DecidableEq, Repr
def bindKindOf : Nat → Option BindKind
  | 0 => some .packet | 1 => some .poll | 2 => some .transfer | _ => none
/-- The classes a binding is for (R77). -/
def BindKind.suits (k : BindKind) (cls : Class) : Bool :=
  match k with
  | .packet => true
  | .poll => cls == .w
  | .transfer => cls == .s
/-- The protections a class allows (R78). -/
def Class.allows (cls : Class) (p : Protection) : Bool :=
  match cls, p with
  | .e, .dual | .t, _ | .c, .reroute | .s, .reroute | .w, .reroute => true
  | _, _ => false

/-- The lowest-numbered free transfer place (R138). -/
def Node.freePlace (n : Node) : Option Nat := (List.range 4).find? fun i => (n.boundTo (33 + i)).isNone

/-- The fields of a DEFINE_SERVICE body, as read. -/
structure Definition where
  id : Nat
  cls : Class
  prot : Option Protection
  primary : Option Side
  rate : Nat
  floorRate : Option Nat
  mode : Option RequestedMode
  quiet : Option Bool
  wait : Option Bool
  order : Option Order
  kind : Option BindKind
  port : Nat
  channel : Nat
  quota : Nat
  age : Nat
  deriving DecidableEq, Repr

def definitionOf (b : List Byte) : Definition :=
  let cls := (classOf (f1 b 1)).getD .w
  { id := f1 b 0, cls := cls, prot := protectionOf cls (f1 b 2), primary := sideOf (f1 b 3), rate := f4 b 4
    floorRate := if f4 b 8 = 0 then none else some (f4 b 8), mode := requestedModeOf (f1 b 12), quiet := boolOf (f1 b 13)
    wait := boolOf (f1 b 14), order := orderOf (f1 b 15), kind := bindKindOf (f1 b 16), port := f1 b 17
    channel := f1 b 18, quota := f1 b 19, age := f2 b 20 }

/-- The place that the binding asks for is bound, or no transfer place is free (R78 check 6). -/
def Node.placeTaken (n : Node) (d : Definition) : Bool :=
  match d.kind with
  | some .packet => (n.boundTo (8 * d.port + d.channel)).isSome
  | some .poll => (n.boundTo 32).isSome
  | some .transfer => n.freePlace.isNone
  | none => false

/-- The checks of R78, in order. Within its third check the fields are judged in the order in which R78 names them, and a protection
that the class does not allow last: the model's choice, log 73. -/
def defineChecks (n : Node) (b : List Byte) : List (Bool × Reply) :=
  let d := definitionOf b
  let rateWrong (r : Nat) : Bool := outside r 1000 6080000
  let packet := d.kind == some .packet
  [(f1 b 1 == 0, refusal .classReserved), (decide (55 < d.id), refusal .idReserved),
   ((n.svc d.id).isSome, refusal .idInUse),
   (bad (classOf (f1 b 1)), badField 1), (bad d.prot, badField 2), (bad d.primary, badField 3), (bad d.mode, badField 6),
   (bad d.order, badField 9), (bad d.quiet, badField 7), (bad d.wait, badField 8),
   (d.prot.any (fun p => !d.cls.allows p), badField 2),
   (rateWrong d.rate || d.floorRate.any rateWrong, refusal .rateRange),
   (d.floorRate.any (fun f => decide (d.rate < f)), refusal .floorAboveRate),
   (bad d.kind || d.kind.any (fun k => !k.suits d.cls), badField 10),
   (packet && decide (3 < d.port), badField 11), (packet && decide (7 < d.channel), badField 12),
   (outside d.quota 1 32, badField 13), (outside d.age 0 2000, badField 14),
   (packet && !(n.port (fin4 d.port)).enabled, badField 11),
   (n.placeTaken d, refusal .portInUse)]

def Node.bindingOf (n : Node) (d : Definition) : Binding :=
  match d.kind with
  | some .poll => .poll d.quota d.age
  | some .transfer => .transfer (n.freePlace.getD 0) d.quota d.age
  | _ => .packet d.port d.channel d.quota d.age

/-- The grants of a definition: full, and floor when one is named and differs from the full one (R70 to R72). -/
def Definition.fullGrant (d : Definition) (used : Rounding) : Grant := grantOf d.cls used d.rate
def Definition.floorGrant (d : Definition) (used : Rounding) : Option Grant :=
  (d.floorRate.map (grantOf d.cls used)).filter fun g => g.cells != (d.fullGrant used).cells

/-- The record that a definition makes, before its state is decided (R65, R79). The floor rate named is kept where the floor
grant is absent because it equals the full one (R72): the model's choice, log 74. -/
def Node.recordOf (n : Node) (d : Definition) : Service :=
  let mode := d.mode.getD .nodeDefault
  let used := mode.used n.cfg.rounding
  { id := d.id, cls := d.cls, level := n.au.map.level d.cls, prot := d.prot.getD .reroute, primary := d.primary.getD .a
    rate := d.rate, floorRate := d.floorRate, mode := mode, modeUsed := used, quiet := d.quiet.getD false
    wait := d.wait.getD false, order := d.order.getD .linear, binding := n.bindingOf d
    full := (d.fullGrant used).cells, floor := (d.floorGrant used).map (·.cells), state := .active }

/-- The reply fields of R81. -/
def defineFields (v : Service) : List Byte :=
  be1 v.id ++ be1 v.state.code ++ opt1 (v.reason.map ShedReason.code) ++ be1 v.level ++ be1 v.full
    ++ be4 (payloadRate v.cls v.full) ++ opt1 v.floor ++ opt4 (v.floor.map (payloadRate v.cls)) ++ be1 v.modeUsed.code
    ++ opt1 (v.current.map sideCode) ++ be1 v.cells.length ++ opt2 v.header

/-- The flags of the reply: of the grants, and of the state (R71, R81). -/
def defineFlags (v : Service) (full : Grant) (floor : Option Grant) : ReplyFlags :=
  { inexact := !v.quiet && (full.rem != 0 || floor.any (·.rem != 0)), clamped := full.clamped || floor.any (·.clamped)
    reduced := v.state == .reduced, waiting := v.state == .shed }

def ownDefineService (_ : Link) (b : List Byte) (n : Node) : Answer :=
  checked n (commonChecks n false b 22 ++ defineChecks n b)
    (let d := definitionOf b
     let v := n.recordOf d
     match n.define v with
     | none => { node := n, reply := refusal .noCapacity }
     | some m =>
       let w := (m.svc d.id).getD v
       { node := m
         reply := { flags := defineFlags w (d.fullGrant v.modeUsed) (d.floorGrant v.modeUsed), fields := defineFields w } })

/-! ## RELEASE_SERVICE (R83) -/

def ownReleaseService (_ : Link) (b : List Byte) (n : Node) : Answer :=
  let id := f1 b 0
  checked n
    (commonChecks n false b 1 ++
      [(decide (63 < id), badField 0), (decide (55 < id), refusal .idReserved), ((n.svc id).isNone, refusal .noSuchService)])
    { node := match n.svc id with
        | some v => n.release v
        | none => n
      reply := okReply [] }

/-! ## SERVICE_STATUS (R86) -/

/-- The binding of a record: kind, port, channel, quota, age limit, each absent where the kind has none (log 18). -/
def bindingFields : Binding → List Byte
  | .packet port channel quota age => be1 0 ++ be1 port ++ be1 channel ++ be1 quota ++ be2 age
  | .poll quota age => be1 1 ++ opt1 none ++ opt1 none ++ be1 quota ++ be2 age
  | .transfer _ quota age => be1 2 ++ opt1 none ++ opt1 none ++ be1 quota ++ be2 age
  | .phone port => be1 3 ++ be1 port ++ opt1 none ++ opt1 none ++ opt2 none

/-- The remainder of a grant of a rate (R70, R71). -/
def Service.remainder (v : Service) (rate : Nat) : Nat := (grantOf v.cls v.modeUsed rate).rem

def serviceFields (n : Node) (v : Service) : List Byte :=
  let stage := (n.cs.staging.find? (·.id == v.id)).map (·.eff.toNat)
  let floorRem := v.floor.bind fun _ => v.floorRate.map v.remainder
  be1 v.cls.code ++ be1 v.level ++ be1 v.prot.code ++ be1 (sideCode v.primary) ++ opt1 (v.current.map sideCode) ++ be4 v.rate
    ++ be4 (v.floorRate.getD 0) ++ be1 v.mode.code ++ be1 v.modeUsed.code ++ codeBool v.quiet ++ codeBool v.wait
    ++ be1 v.order.code ++ bindingFields v.binding ++ be1 v.full ++ opt1 v.floor ++ be1 v.state.code
    ++ opt1 (v.reason.map ShedReason.code) ++ opt4 v.adm ++ opt4 v.shedNo ++ listed v.cells be2
    ++ be2 (v.remainder v.rate) ++ opt2 floorRem ++ be4 (payloadRate v.cls v.full)
    ++ opt4 (v.floor.map (payloadRate v.cls)) ++ opt2 v.header ++ codeBool stage.isSome ++ opt2 stage

/-- The common checks of a kind with a form field: an empty body, the form, the length (R201). -/
def formChecks (b : List Byte) (size : Nat) : List (Bool × Reply) :=
  [(b.isEmpty, refusal .badLength), (outside (f1 b 0) 0 1, badField 0), (b.length != size, refusal .badLength)]

def ownServiceStatusOne (_ : Link) (b : List Byte) (n : Node) : Answer :=
  checked n (formChecks b 2 ++ [(decide (63 < f1 b 1), badField 1), ((n.svc (f1 b 1)).isNone, refusal .noSuchService)])
    { node := n
      reply := match n.svc (f1 b 1) with
        | some v => okReply (serviceFields n v)
        | none => refusal .noSuchService }

/-- The free halves of a side. -/
def Node.freeHalvesOn (n : Node) (x : Side) : Nat := (n.au.allot.filter fun e => (e.owner x).isNone).length

/-- The fields of the SUMMARY form (R86). The groups of the class map and of the level use are sent without counts before them: the
model's choice, log 83. -/
def summaryFields (n : Node) : List Byte :=
  let m := n.au.map
  be1 m.t ++ be1 m.c ++ be1 m.s ++ be1 m.w ++ m.ceiling.toList.flatMap be2 ++ m.pre.toList.flatMap codeBool
    ++ m.may.toList.flatMap codeBool ++ (List.range 4).flatMap (fun lv => be2 (n.levelUse lv)) ++ be1 n.cfg.rounding.code
    ++ codeBool n.au.economy ++ be4 n.au.admCounter ++ be4 n.au.shedCounter ++ be2 n.au.allot.length
    ++ be2 (n.freeHalvesOn .a) ++ be2 (n.freeHalvesOn .b)
    ++ listed n.au.services fun v => be1 v.id ++ be1 v.cls.code ++ be1 v.level ++ be1 v.state.code

def ownServiceStatusSummary (_ : Link) (b : List Byte) (n : Node) : Answer :=
  checked n (formChecks b 2) { node := n, reply := okReply (summaryFields n) }

/-! ## SHED_LIST (R90) -/

def shedEntry (v : Service) : List Byte :=
  be1 v.id ++ be1 v.cls.code ++ be1 v.level ++ be1 v.prot.code ++ opt1 (v.reason.map ShedReason.code) ++ opt4 v.shedNo
    ++ be1 v.full ++ opt1 v.floor ++ opt1 (if v.prot = .reroute then some (sideCode v.primary) else none)

def ownShedList (_ : Link) (b : List Byte) (n : Node) : Answer :=
  checked n (commonChecks n false b 0)
    { node := n, reply := okReply (codeBool n.au.economy ++ listed n.shedServices shedEntry) }

/-! ## ECONOMY (R104 to R106) -/

def Node.setEconomy (n : Node) (on : Bool) : Node := { n with au := { n.au with economy := on } }

/-- ENTER while economy mode is off: the services shed, and the node. -/
def Node.enterEconomy (n : Node) : Node :=
  let victims := (byVictim (n.placed.filter fun v => decide (2 ≤ v.level))).map (·.id)
  let m := victims.foldl (fun m id => m.shedId id .economy) (n.setEconomy true)
  if victims.isEmpty then m else m.pass
/-- The number that ENTER replies: the services shed with reason ECONOMY, and none that step 1 of the pass pre-empts for a queued
call (R104): the model's choice, log 62. -/
def Node.economyVictims (n : Node) : Nat := (n.placed.filter fun v => decide (2 ≤ v.level)).length

def economyChecks (n : Node) (b : List Byte) : List (Bool × Reply) :=
  commonChecks n false b 1 ++ [(outside (f1 b 0) 0 1, badField 0)]

def ownEconomyEnter (_ : Link) (b : List Byte) (n : Node) : Answer :=
  checked n (economyChecks n b)
    (if n.au.economy then { node := n, reply := okReply (be1 1 ++ be1 0) }
     else { node := n.enterEconomy, reply := okReply (be1 1 ++ be1 n.economyVictims) })

def ownEconomyLeave (_ : Link) (b : List Byte) (n : Node) : Answer :=
  checked n (economyChecks n b)
    (if n.au.economy then
       let q := (n.setEconomy false).passCounted
       { node := q.node, reply := okReply (be1 0 ++ be1 q.placed) }
     else { node := n, reply := okReply (be1 0 ++ be1 0) })

/-! ## Commands -/

def execSetLevels (s : State) : Result := handle s (isKind 0x0E#8) ownSetLevels
def execDefineService (s : State) : Result := handle s (isKind 0x0F#8) ownDefineService
def execReleaseService (s : State) : Result := handle s (isKind 0x10#8) ownReleaseService
def execServiceStatusOne (s : State) : Result := handle s (isKindBut 0x11#8 0 [0x01#8]) ownServiceStatusOne
def execServiceStatusSummary (s : State) : Result := handle s (isKindWith 0x11#8 0 0x01#8) ownServiceStatusSummary
def execShedList (s : State) : Result := handle s (isKind 0x12#8) ownShedList
def execEconomyEnter (s : State) : Result := handle s (isKindBut 0x13#8 0 [0x01#8]) ownEconomyEnter
def execEconomyLeave (s : State) : Result := handle s (isKindWith 0x13#8 0 0x01#8) ownEconomyLeave

end Sys2Proof.Machine
end

