-- ==== Sys2Proof/Machine/PhoneRequests.lean ====
section
/-! DEFINITION. The requests of the call controller (chapter 6). -/

namespace Sys2Proof.Machine

/-! ## PHONE_SET (R109 to R111, R131) -/

def phoneSettingsOf (b : List Byte) : PhoneSettings :=
  { enabled := f1 b 2 == 1, kilometre := f2 b 3, preferred := (sideOf (f1 b 5)).getD .a, offDebounce := f2 b 6
    onDebounce := f2 b 8, flashMin := f2 b 10, filter := f1 b 12 == 1, holdPermitted := f1 b 13 == 1
    polarity := (polarityOf (f1 b 14)).getD .normal }

/-- Ranges of the PORT form, in field order, then the relation of flash minimum and on-hook debounce (log 17). -/
def phonePortChecks (b : List Byte) : List (Bool × Reply) :=
  [(decide (7 < f1 b 1), badField 1), (bad (boolOf (f1 b 2)), badField 2), (bad (sideOf (f1 b 5)), badField 4),
   (outside (f2 b 6) 20 1000, badField 5), (outside (f2 b 8) 200 5000, badField 6), (outside (f2 b 10) 60 1000, badField 7),
   (bad (boolOf (f1 b 12)), badField 8), (bad (boolOf (f1 b 13)), badField 9), (bad (polarityOf (f1 b 14)), badField 10),
   (decide (f2 b 8 ≤ f2 b 10), badField 7)]

/-- A ring cadence runs on the port. -/
def Phone.ringing (ph : Phone) : Bool := ph.cadence.any (·.kind == .ring)

/-- The settings replaced: the filter count starts again, sampling begins or stops with the enabled setting in RUNNING, a new
polarity waits for a ring cadence's next edge (R109, R111, R131). That the count starts again also where the filter stays as it was
is read from R109, log 15. -/
def Phone.configure (ph : Phone) (c : PhoneSettings) (running : Bool) : Phone :=
  let w := { ph with set := c, differing := 0, polarity := if ph.ringing then ph.polarity else c.polarity }
  if running && c.enabled && !ph.set.enabled then w.beginSampling
  else if running && !c.enabled && ph.set.enabled then w.stopSampling
  else w

def ownPhoneSetPort (_ : Link) (b : List Byte) (n : Node) : Answer :=
  let p := fin8 (f1 b 1)
  let c := phoneSettingsOf b
  checked n
    (formChecks b 15 ++ phonePortChecks b ++
      [(n.op == .running && !c.enabled && (n.phone p).call != .idle, refusal .wrongState)])
    { node := n.modPhone p fun ph => ph.configure c (n.op == .running), reply := okReply [] }

def commonOf (b : List Byte) : Common :=
  { heldLimit := f1 b 1, ringTimeout := f2 b 2, clearGuard := f1 b 4, ringPeriod := f2 b 5, ringOn := f2 b 7
    waitPeriod := f2 b 9, waitOn := f2 b 11 }

/-- PHONE_SET of form COMMON (R110). Each field is judged at its place, an on-time against its period before the fields after it:
the model's choice, log 63. -/
def ownPhoneSetCommon (_ : Link) (b : List Byte) (n : Node) : Answer :=
  checked n
    (formChecks b 13 ++
      [(outside (f1 b 1) 1 60, badField 1), (outside (f2 b 2) 10 300, badField 2), (outside (f1 b 4) 0 30, badField 3),
       (outside (f2 b 5) 1000 10000, badField 4), (outside (f2 b 7) 100 (f2 b 5 - 100), badField 5),
       (outside (f2 b 9) 1000 10000, badField 6), (outside (f2 b 11) 100 (f2 b 9 - 100), badField 7)])
    { node := { n with cc := { n.cc with common := commonOf b } }, reply := okReply [] }

/-! ## CALL_CONTROL (R123 to R125, R128) -/

/-- The checks of CALL_CONTROL, with the states in which the action is taken (R128). -/
def callChecks (n : Node) (b : List Byte) (taken : Phone → Bool) : List (Bool × Reply) :=
  let p := fin8 (f1 b 0)
  commonChecks n true b 2 ++
    [(decide (7 < f1 b 0), badField 0), (decide (4 < f1 b 1), badField 1), (!n.phoneOn p, refusal .wrongState),
     (!taken (n.phone p), refusal .wrongState)]
/-- The reply: the call state after the action. -/
def callAnswer (n : Node) (p : Fin 8) : Answer := { node := n, reply := okReply (be1 (n.phone p).call.code) }

def ownCallAnswer (_ : Link) (b : List Byte) (n : Node) : Answer :=
  let p := fin8 (f1 b 0)
  checked n (callChecks n b fun ph => ph.call == .opened) (callAnswer (n.enterAnswered p .answered) p)

/-- HOLD and UNHOLD are taken in OPEN, ANSWERED and HELD (R128). -/
def CallState.holdable : CallState → Bool
  | .opened | .answered | .held => true
  | .idle | .queued | .ringing | .clearing => false
/-- The hold-requested flag is set or cleared, and no state changes (R123, R124). -/
def ownCallHold (value : Bool) (_ : Link) (b : List Byte) (n : Node) : Answer :=
  let p := fin8 (f1 b 0)
  checked n (callChecks n b fun ph => ph.call.holdable)
    (callAnswer (n.modPhone p fun ph => { ph with holdRequested := value }) p)

/-- CLEAR is taken in QUEUED, OPEN, ANSWERED, HELD and RINGING (R128). -/
def CallState.clearable : CallState → Bool
  | .queued | .opened | .answered | .held | .ringing => true
  | .idle | .clearing => false
/-- A host CLEAR: clear-lock is set for a queued call, and for a lifted handset; the call ends (R122 to R125, R127). -/
def Node.clearCall (n : Node) (p : Fin 8) : Node :=
  let ph := n.phone p
  let n := n.setPhone p { ph with clearLock := ph.clearLock || ph.call == .queued || ph.hook == .offHook }
  if ph.call = .queued then n.enterIdle p .centreCleared else n.enterClearing p .centreCleared
def ownCallClear (_ : Link) (b : List Byte) (n : Node) : Answer :=
  let p := fin8 (f1 b 0)
  checked n (callChecks n b fun ph => ph.call.clearable) (callAnswer (n.clearCall p) p)

/-- A RING that has its service: the call enters RINGING with its timeout and its cadence (R125). -/
def Node.ringPhone (n : Node) (p : Fin 8) : Node :=
  let pick := n.callSelection p
  let n := n.modPhone p fun ph =>
    { ph with
      call := .ringing, origin := some .centre, start := some n.runTime, selected := pick, testDrive := false
      timer := some (.ringTimeout, ticksOfSeconds n.cc.common.ringTimeout)
      cadence := some (n.cc.common.cadence .ring) }
  n.callEvent p .idle .ringing
def ownCallRing (_ : Link) (b : List Byte) (n : Node) : Answer :=
  let p := fin8 (f1 b 0)
  checked n (callChecks n b fun ph => ph.call == .idle && ph.hook == .onHook)
    (match n.callPlacement p with
     | some m => callAnswer (m.ringPhone p) p
     | none => { node := n, reply := refusal .noCapacity })

/-! ## CALL_STATUS (R134) -/

def phoneSettingsFields (c : PhoneSettings) : List Byte :=
  codeBool c.enabled ++ be2 c.kilometre ++ be1 (sideCode c.preferred) ++ be2 c.offDebounce ++ be2 c.onDebounce
    ++ be2 c.flashMin ++ codeBool c.filter ++ codeBool c.holdPermitted ++ be1 c.polarity.code
def commonFields (c : Common) : List Byte :=
  be1 c.heldLimit ++ be2 c.ringTimeout ++ be1 c.clearGuard ++ be2 c.ringPeriod ++ be2 c.ringOn ++ be2 c.waitPeriod
    ++ be2 c.waitOn
/-- A port's place in the waiting list, the head being 1. -/
def Node.waitingPlace (n : Node) (p : Fin 8) : Option Nat := (n.cc.waiting.findIdx? (· == p)).map (· + 1)

/-- The fields of CALL_STATUS (R134). The time left on a call timer is sent in 1 ms ticks, in four bytes: the model's choice,
log 52. The isolated flag is sent clear, 00h, when the port holds no service, and it and the selected side are sent once: the
model's choice, log 64. -/
def callStatusFields (n : Node) (p : Fin 8) : List Byte :=
  let ph := n.phone p
  phoneSettingsFields ph.set ++ commonFields n.cc.common ++ codeBool ph.sampling ++ codeBool ph.level ++ be2 ph.time
    ++ be1 ph.hook.code ++ be2 ph.lastHigh ++ be2 ph.lastLow ++ codeBool ph.saturated ++ be1 ph.flashes ++ be1 ph.call.code
    ++ opt1 (ph.origin.map CallOrigin.code) ++ opt4 (ph.start.map (·.toNat)) ++ codeBool ph.holdRequested
    ++ codeBool ph.clearLock ++ opt1 (if ph.call.holds then some (callId p) else none)
    ++ opt1 (ph.timer.map (·.1.code)) ++ opt4 (ph.timer.map (·.2)) ++ opt2 ph.liveCell ++ opt1 (ph.selected.map sideCode)
    ++ codeBool ph.isolated ++ [ph.toneOut] ++ codeBool ph.ringActive ++ opt1 (ph.cadence.map (·.kind.code))
    ++ opt1 (ph.cadence.map fun c => if c.onPhase then 0 else 1) ++ codeBool ph.testDrive ++ opt1 (n.waitingPlace p)
    ++ be1 n.cc.waiting.length

def ownCallStatus (_ : Link) (b : List Byte) (n : Node) : Answer :=
  checked n (commonChecks n false b 1 ++ [(decide (7 < f1 b 0), badField 0)])
    { node := n, reply := okReply (callStatusFields n (fin8 (f1 b 0))) }

/-! ## RING_TEST (R132) -/

def ringTestChecks (n : Node) (b : List Byte) : List (Bool × Reply) :=
  let p := fin8 (f1 b 0)
  commonChecks n false b 2 ++
    [(decide (7 < f1 b 0), badField 0), (bad (boolOf (f1 b 1)), badField 1), (!n.phoneOn p, refusal .wrongState),
     ((n.phone p).call != .idle, refusal .wrongState)]
def ownRingTest (drive : Bool) (_ : Link) (b : List Byte) (n : Node) : Answer :=
  checked n (ringTestChecks n b)
    { node := n.modPhone (fin8 (f1 b 0)) fun ph => { ph with testDrive := drive }, reply := okReply [] }

/-! ## Commands -/

def execPhoneSetPort (s : State) : Result := handle s (isKindBut 0x14#8 0 [0x01#8]) ownPhoneSetPort
def execPhoneSetCommon (s : State) : Result := handle s (isKindWith 0x14#8 0 0x01#8) ownPhoneSetCommon
def execCallControlAnswer (s : State) : Result :=
  handle s (isKindBut 0x15#8 1 [0x01#8, 0x02#8, 0x03#8, 0x04#8]) ownCallAnswer
def execCallControlHold (s : State) : Result := handle s (isKindWith 0x15#8 1 0x01#8) (ownCallHold true)
def execCallControlUnhold (s : State) : Result := handle s (isKindWith 0x15#8 1 0x02#8) (ownCallHold false)
def execCallControlClear (s : State) : Result := handle s (isKindWith 0x15#8 1 0x03#8) ownCallClear
def execCallControlRing (s : State) : Result := handle s (isKindWith 0x15#8 1 0x04#8) ownCallRing
def execCallStatus (s : State) : Result := handle s (isKind 0x16#8) ownCallStatus
def execRingTestOn (s : State) : Result := handle s (isKindBut 0x17#8 1 [0x00#8]) (ownRingTest true)
def execRingTestOff (s : State) : Result := handle s (isKindWith 0x17#8 1 0x00#8) (ownRingTest false)

end Sys2Proof.Machine
end

