-- ==== Sys2Proof/Machine/PacketRequests.lean ====
section
/-! DEFINITION. The requests of the packet engine (chapter 7). -/

namespace Sys2Proof.Machine

/-! ## PACKET_PORT_SET (R136) -/

/-- A service is PACKET-bound to a channel of the port. -/
def Node.portBound (n : Node) (k : Nat) : Bool :=
  n.au.services.any fun v => match v.binding with
    | .packet port _ _ _ => port == k
    | _ => false

/-- The settings replaced; a port that stops cuts off its output and discards its receive queue, counted. -/
def PacketPort.configure (p : PacketPort) (enabled : Bool) (rate : Nat) (readyUsed : Bool) : PacketPort :=
  let p := { p with enabled := enabled, rate := rate, readyUsed := readyUsed }
  if enabled then p
  else { p with
    recv := [], sending := none
    counts := { p.counts with discards := min Config.top32 (p.counts.discards + p.recv.length) } }

def ownPacketPortSet (_ : Link) (b : List Byte) (n : Node) : Answer :=
  let k := fin4 (f1 b 0)
  checked n
    (commonChecks n false b 5 ++
      [(decide (3 < f1 b 0), badField 0), (bad (boolOf (f1 b 1)), badField 1),
       (outside (f2 b 2) 100 10000 || f2 b 2 % 100 != 0, badField 2), (bad (boolOf (f1 b 4)), badField 3),
       (f1 b 1 == 0 && n.portBound (f1 b 0), refusal .portInUse)])
    { node := (n.modPort k fun p => p.configure (f1 b 1 == 1) (f2 b 2) (f1 b 4 == 1)).readyOn k, reply := okReply [] }

/-! ## PORT_STATUS (R153) -/

/-- The fields of the PORT form (R153). The model's choice: the eight bound ids are sent without a count before them (log 80), and
the ready input and the ready level as 01h when asserted and 00h when negated (log 82). -/
def portFields (n : Node) (k : Fin 4) : List Byte :=
  let p := n.port k
  codeBool p.enabled ++ be2 p.rate ++ codeBool p.readyUsed ++ codeBool (n.portOperating k) ++ codeBool n.pins.ready[k]
    ++ codeBool (n.readyLevel k) ++ (List.range 8).flatMap (fun c => opt1 (n.boundTo (8 * k.val + c))) ++ be2 p.recv.length
    ++ be2 p.recvBytes ++ p.counts.list.flatMap be4 ++ be2 n.pe.poolFree

def ownPortStatusPort (_ : Link) (b : List Byte) (n : Node) : Answer :=
  checked n (formChecks b 2 ++ [(decide (3 < f1 b 1), badField 1)])
    { node := n, reply := okReply (portFields n (fin4 (f1 b 1))) }

def Binding.kindCode : Binding → Nat
  | .packet .. => 0 | .poll .. => 1 | .transfer .. => 2 | .phone .. => 3

/-- The fields of the SERVICE form (R153). The model's choice: the binding's place is one byte, 8 * port + channel, 32 for the
poll channel or 33 to 36 for a transfer place (log 67), and the length of the element in progress is its length field L, beside
the bytes placed of its 4 + L (log 68). -/
def peServiceFields (sv : Service) (v : PeService) : List Byte :=
  let started := v.queue.head?.filter fun _ => v.placed != 0
  be1 sv.binding.kindCode ++ opt1 sv.binding.place ++ codeBool v.attached ++ listed v.live.a be2 ++ listed v.live.b be2
    ++ opt2 v.live.a.head? ++ opt2 v.live.b.head? ++ be2 v.queue.length ++ be2 v.queuedBytes ++ be1 sv.binding.quota
    ++ be2 sv.binding.age ++ opt2 (started.map (·.data.length)) ++ opt2 (started.map fun _ => v.placed)
    ++ opt1 ((if v.attached then receiveSide sv.prot v else none).map sideCode) ++ codeBool v.inSync
    ++ be2 v.gathered.length ++ v.counts.list.flatMap be4

def ownPortStatusService (_ : Link) (b : List Byte) (n : Node) : Answer :=
  let id := f1 b 1
  checked n
    (formChecks b 2 ++
      [(decide (63 < id), badField 1), (decide (55 < id), refusal .idReserved), ((n.svc id).isNone, refusal .noSuchService)])
    { node := n
      reply := match n.svc id, n.peOf id with
        | some sv, some v => okReply (peServiceFields sv v)
        | _, _ => refusal .noSuchService }

/-! ## Commands -/

def execPacketPortSet (s : State) : Result := handle s (isKind 0x18#8) ownPacketPortSet
def execPortStatusPort (s : State) : Result := handle s (isKindBut 0x19#8 0 [0x01#8]) ownPortStatusPort
def execPortStatusService (s : State) : Result := handle s (isKindWith 0x19#8 0 0x01#8) ownPortStatusService

end Sys2Proof.Machine
end

