-- ==== Sys2Proof/Machine/TransferRequests.lean ====
section
/-! DEFINITION. The requests of the transfer engine (chapter 8). -/

namespace Sys2Proof.Machine

/-! ## TRANSFER_OPEN (R157, R158) -/

/-- The targets of a body: port and channel pairs. -/
def targetPairs (b : List Byte) : List (Nat × Nat) := (List.range (f1 b 12)).map fun i => (f1 b (13 + 2 * i), f1 b (14 + 2 * i))

def isTransfer : Binding → Bool
  | .transfer .. => true
  | .packet .. | .poll .. | .phone .. => false

/-- The transfer that makes a TRANSFER_OPEN meet TRANSFER_BUSY: the named one if it is open, else the
service's own. That the named one is given when both hold is the model's choice, log 69. -/
def Node.busyTransfer (n : Node) (t : Fin 4) (id : Nat) : Option (Fin 4) :=
  if (n.xfer t).isSome then some t else n.transferOf id

/-- The checks of R157, in order. A target whose port is disabled is named by its position in the list (R200). One whose port or
channel is out of range is refused as the target list, and its position follows too: the model's choice, log 54. -/
def transferOpenChecks (n : Node) (b : List Byte) : List (Bool × Reply) :=
  let pairs := targetPairs b
  let wrong := pairs.findIdx? fun p => decide (3 < p.1) || decide (7 < p.2)
  let stopped := pairs.findIdx? fun p => !(n.port (fin4 p.1)).enabled
  let id := f1 b 1
  let busy := n.busyTransfer (fin4 (f1 b 0)) id
  [(n.op == .config, refusal .notStarted), (decide (b.length < 13), refusal .badLength),
   (decide (3 < f1 b 0), badField 0), (outside (f4 b 6) 1 122880, badField 3), (outside (f2 b 10) 64 1024, badField 4),
   (outside (f1 b 12) 1 4, badField 5), (b.length != 13 + 2 * f1 b 12, refusal .badLength),
   (wrong.isSome, badField 6 (be1 (wrong.getD 0))), (decide (63 < id), badField 1), (decide (55 < id), refusal .idReserved),
   ((n.svc id).isNone, refusal .noSuchService), ((n.svc id).any (fun v => !isTransfer v.binding), badField 1),
   (stopped.isSome, badField 6 (be1 (stopped.getD 0))),
   (busy.isSome, refusal .transferBusy (be1 ((busy.map (·.val)).getD 0)))]

/-- The record that an accepted TRANSFER_OPEN opens (R158). -/
def Node.newTransfer (n : Node) (b : List Byte) : Transfer :=
  let carried := n.carries (f1 b 1)
  { service := f1 b 1, page := f4 b 2, declared := f4 b 6, targets := (targetPairs b).map fun p => (fin4 p.1, p.2)
    chunk := f2 b 10, state := if carried then .receiving else .suspended, reason := if carried then none else some .shed }

def ownTransferOpen (_ : Link) (b : List Byte) (n : Node) : Answer :=
  checked n (transferOpenChecks n b)
    (let t := fin4 (f1 b 0)
     let r := n.newTransfer b
     { node := (n.transferTo t none r .opened).offerState t
       reply := okReply (be1 t ++ be1 r.state.code ++ opt1 (r.reason.map SuspendReason.code) ++ be1 n.freeBlocks.length) })

/-! ## TRANSFER_ABORT (R169) -/

def ownTransferAbort (_ : Link) (b : List Byte) (n : Node) : Answer :=
  let t := fin4 (f1 b 0)
  checked n
    (commonChecks n false b 1 ++ [(decide (3 < f1 b 0), badField 0), ((n.xfer t).isNone, refusal .noTransfer)])
    { node := n.hostAbort t
      reply := match n.xfer t with
        | some r => okReply (be4 r.received ++ opt1 (r.position.map (·.1)) ++ opt4 (r.position.map (·.2)))
        | none => refusal .noTransfer }

/-! ## TRANSFER_STATUS (R171) -/

def TransferCounts.list (c : TransferCounts) : List Nat :=
  [c.appended, c.duplicates, c.gaps, c.rejected, c.outOfState, c.framesSent, c.framesDropped, c.chunks]

def transferFields (r : Transfer) : List Byte :=
  be1 r.service ++ be4 r.page ++ be4 r.declared ++ listed r.targets (fun p => be1 p.1 ++ be1 p.2) ++ be2 r.chunk
    ++ be1 r.state.code ++ opt1 (r.reason.map SuspendReason.code) ++ be4 r.received ++ be4 r.reported
    ++ opt1 (r.position.map (·.1)) ++ opt4 (r.position.map (·.2)) ++ listed r.blocks be1 ++ be2 r.timer
    ++ r.counts.list.flatMap be4

def ownTransferStatusOne (_ : Link) (b : List Byte) (n : Node) : Answer :=
  let t := fin4 (f1 b 1)
  checked n (formChecks b 2 ++ [(decide (3 < f1 b 1), badField 1), ((n.xfer t).isNone, refusal .noTransfer)])
    { node := n
      reply := match n.xfer t with
        | some r => okReply (transferFields r)
        | none => refusal .noTransfer }

/-- A record in the ALL form: open or closed, its fields absent when closed (R171). Open is sent as 01h and closed as 00h: the
model's choice, log 82. -/
def transferSummary (o : Option Transfer) : List Byte :=
  codeBool o.isSome ++ opt1 (o.map (·.service)) ++ opt1 (o.map (·.state.code))
    ++ opt1 (o.bind fun r => r.reason.map SuspendReason.code) ++ opt4 (o.map (·.received)) ++ opt4 (o.map (·.declared))
    ++ opt1 (o.bind fun r => r.position.map (·.1)) ++ opt4 (o.bind fun r => r.position.map (·.2))

/-- TRANSFER_STATUS of form ALL (R171). The four records T0 to T3 are sent without a count before them: the model's choice,
log 83. -/
def ownTransferStatusAll (_ : Link) (b : List Byte) (n : Node) : Answer :=
  checked n (formChecks b 2)
    { node := n
      reply := okReply (be1 n.freeBlocks.length ++ be4 n.te.malformed ++ be4 n.te.unmatched
        ++ n.te.recs.toList.flatMap transferSummary) }

/-! ## Commands -/

def execTransferOpen (s : State) : Result := handle s (isKind 0x1A#8) ownTransferOpen
def execTransferAbort (s : State) : Result := handle s (isKind 0x1B#8) ownTransferAbort
def execTransferStatusOne (s : State) : Result := handle s (isKindBut 0x1C#8 0 [0x01#8]) ownTransferStatusOne
def execTransferStatusAll (s : State) : Result := handle s (isKindWith 0x1C#8 0 0x01#8) ownTransferStatusAll

end Sys2Proof.Machine
end

