-- ==== Sys2Proof/Machine/PollRequests.lean ====
section
/-! DEFINITION. The requests of the poll controller (chapter 9). -/

namespace Sys2Proof.Machine

/-! ## POLL_SET (R173, R174) -/

def isPoll : Binding → Bool
  | .poll .. => true
  | .packet .. | .transfer .. | .phone .. => false

/-- The weather service that a body names: none for FFh. -/
def namedWeather (b : List Byte) : Option Nat := if f1 b 6 = 255 then none else some (f1 b 6)

/-- The settings replaced; polling begins or stops with the enabled setting in RUNNING (R174). -/
def PollController.configure (c : PollController) (b : List Byte) (running : Bool) : PollController :=
  let enabled := f1 b 0 == 1
  let c := { c with
    enabled := enabled, rate := (pollRateOf (f1 b 1)).getD .r9600, interval := f2 b 2, timeout := f2 b 4
    service := namedWeather b }
  if running && enabled && !c.running then c.begin
  else if !enabled && c.running then c.stop
  else c

def ownPollSet (_ : Link) (b : List Byte) (n : Node) : Answer :=
  checked n
    (commonChecks n false b 7 ++
      [(bad (boolOf (f1 b 0)), badField 0), (bad (pollRateOf (f1 b 1)), badField 1), (outside (f2 b 2) 10 3600, badField 2),
       (outside (f2 b 4) 50 2000, badField 3), ((namedWeather b).any (fun id => decide (55 < id)), badField 4),
       (n.pc.stations.any (fun x => decide (10 * f2 b 2 ≤ x.offset)), badField 2),
       ((namedWeather b).any (fun id => (n.svc id).isNone), refusal .noSuchService),
       ((namedWeather b).any (fun id => (n.svc id).any fun v => !isPoll v.binding), badField 4)])
    (let m := { n with pc := n.pc.configure b (n.op == OpState.running) }
     { node := if m.weatherOpen.isSome then m.catchUp else m, reply := okReply [] })

/-! ## STATION_SET (R175) -/

/-- The settings of an entry replaced; a new address discards what belonged to another station. -/
def Station.configure (x : Station) (enabled : Bool) (address offset : Nat) : Station :=
  let x := { x with enabled := enabled, offset := offset, failures := 0, fallsDue := x.fallsDue && enabled }
  if address = x.address then x
  else { x with address := address, reading := none, unsent := false, overwritten := 0 }

/-- A station set to disabled has its poll queue entry removed. -/
def PollController.withoutDisabled (c : PollController) (k : Fin 8) (enabled : Bool) : PollController :=
  if enabled then c else { c with queue := c.queue.filter (·.1 != k) }

/-- An entry set (R175). The STATION_EVENT of cause SET shows the address and the capture time as they are after the entry was
set, a reading discarded: the model's choice, log 56. -/
def Node.setStationEntry (n : Node) (k : Fin 8) (enabled : Bool) (address offset : Nat) : Node :=
  let n := { n with pc := n.pc.withoutDisabled k enabled }
  let n := n.modStation k fun x => x.configure enabled address offset
  if (n.station k).state = .unpolled then n else n.stationTo k .unpolled .set

/-- STATION_SET. Its first check reads station, address and offset; its second is the first to read enabled, and so the first
to find a code outside the two (R175, R201). -/
def ownStationSet (_ : Link) (b : List Byte) (n : Node) : Answer :=
  let k := fin8 (f1 b 0)
  checked n
    (commonChecks n false b 5 ++
      [(decide (7 < f1 b 0), badField 0), (outside (f1 b 2) 1 247, badField 2),
       (decide (10 * n.pc.interval ≤ f2 b 3), badField 3), (bad (boolOf (f1 b 1)), badField 1),
       (f1 b 1 == 1 && allStations.any (fun j => j != k && (n.station j).enabled && (n.station j).address == f1 b 2),
         badField 2),
       (n.pc.txn.any (·.station == k), refusal .busy)])
    { node := n.setStationEntry k (f1 b 1 == 1) (f1 b 2) (f2 b 3), reply := okReply [] }

/-! ## STATION_READ (R184) -/

def StationCounts.list (c : StationCounts) : List Nat :=
  [c.polls, c.valid, c.timeouts, c.badReplies, c.wrongAddress, c.misses, c.forwardDrops]

def stationFields (n : Node) (k : Fin 8) : List Byte :=
  let x := n.station k
  let c := n.pc
  let due := (c.queue.find? (·.1 == k)).map (·.2.toNat)
  let txn := (c.txn.filter (·.station == k)).map (·.attempt)
  codeBool x.enabled ++ be1 x.address ++ be2 x.offset ++ be1 x.state.code ++ be1 x.failures
    ++ listed ((x.reading.map (·.bytes)).getD []) (fun y => [y]) ++ opt4 (x.reading.map (·.capture.toNat))
    ++ opt4 (x.reading.map fun r => (n.runTime - r.capture).toNat) ++ codeBool x.unsent ++ be1 x.overwritten
    ++ x.counts.list.flatMap be4 ++ codeBool due.isSome ++ opt4 due ++ codeBool txn.isSome ++ opt1 txn
    ++ codeBool c.enabled ++ be1 c.rate.code ++ be2 c.interval ++ be2 c.timeout ++ codeBool c.running ++ be4 c.pos
    ++ be4 c.len ++ codeBool c.stretched ++ opt1 c.service
    ++ opt1 ((c.service.bind n.svc).map (·.state.code)) ++ listed c.queue (fun q => be1 q.1) ++ be4 c.late

def ownStationRead (_ : Link) (b : List Byte) (n : Node) : Answer :=
  checked n (commonChecks n false b 1 ++ [(decide (7 < f1 b 0), badField 0)])
    { node := n, reply := okReply (stationFields n (fin8 (f1 b 0))) }

/-! ## Commands -/

def execPollSet (s : State) : Result := handle s (isKind 0x1D#8) ownPollSet
def execStationSet (s : State) : Result := handle s (isKind 0x1E#8) ownStationSet
def execStationRead (s : State) : Result := handle s (isKind 0x1F#8) ownStationRead

end Sys2Proof.Machine
end

