-- ==== Sys2Proof/Machine/Dispatch.lean ====
section
/-! DEFINITION. One arm per command of `Instr`, each a direct call of its meaning. -/

namespace Sys2Proof.Machine

/-- The effect of a command on everything but the queue. -/
def exec (i : Instr) (s : State) : Host.Outcome State Fault Refusal :=
  match i with
  | .powerOn => Sys2Proof.Machine.execPowerOn s
  | .resetInputLow => Sys2Proof.Machine.execResetInputLow s
  | .resetInputRise => Sys2Proof.Machine.execResetInputRise s
  | .frameStart voice => Sys2Proof.Machine.execFrameStart voice s
  | .msTick loops => Sys2Proof.Machine.execMsTick loops s
  | .stagingApply => Sys2Proof.Machine.execStagingApply s
  | .lineHoldEnd line => Sys2Proof.Machine.execLineHoldEnd line s
  | .lineFrameReceived line position frame disagreements => Sys2Proof.Machine.execLineFrameReceived line position frame disagreements s
  | .signalLost line pin => Sys2Proof.Machine.execSignalLost line pin s
  | .signalReturned line pin => Sys2Proof.Machine.execSignalReturned line pin s
  | .errorWindowEnd line => Sys2Proof.Machine.execErrorWindowEnd line s
  | .presetConfirmTimeout line => Sys2Proof.Machine.execPresetConfirmTimeout line s
  | .settleFramesEnd line => Sys2Proof.Machine.execSettleFramesEnd line s
  | .marginPositionDone line => Sys2Proof.Machine.execMarginPositionDone line s
  | .trainingRetry line => Sys2Proof.Machine.execTrainingRetry line s
  | .periodicScanDue line => Sys2Proof.Machine.execPeriodicScanDue line s
  | .holdOffExpired side => Sys2Proof.Machine.execHoldOffExpired side s
  | .wtrExpired side => Sys2Proof.Machine.execWtrExpired side s
  | .timingRevert => Sys2Proof.Machine.execTimingRevert s
  | .pathLostReroute side => Sys2Proof.Machine.execPathLostReroute side s
  | .pathRestoredRevert side => Sys2Proof.Machine.execPathRestoredRevert side s
  | .callReselect signal => Sys2Proof.Machine.execCallReselect signal s
  | .dualReceiveReselect signal => Sys2Proof.Machine.execDualReceiveReselect signal s
  | .loopAcceptedRise port => Sys2Proof.Machine.execLoopAcceptedRise port s
  | .loopAcceptedFall port => Sys2Proof.Machine.execLoopAcceptedFall port s
  | .offHookConfirmed port => Sys2Proof.Machine.execOffHookConfirmed port s
  | .onHookConfirmed port => Sys2Proof.Machine.execOnHookConfirmed port s
  | .cadencePeriodStart port => Sys2Proof.Machine.execCadencePeriodStart port s
  | .cadenceOffPhase port => Sys2Proof.Machine.execCadenceOffPhase port s
  | .heldLimitExpired port => Sys2Proof.Machine.execHeldLimitExpired port s
  | .ringTimeoutExpired port => Sys2Proof.Machine.execRingTimeoutExpired port s
  | .clearGuardExpired port => Sys2Proof.Machine.execClearGuardExpired port s
  | .tributaryFrameReceived port frame => Sys2Proof.Machine.execTributaryFrameReceived port frame s
  | .tributaryFrameSent port => Sys2Proof.Machine.execTributaryFrameSent port s
  | .outputFrameBegin port => Sys2Proof.Machine.execOutputFrameBegin port s
  | .readyInputChange port level => Sys2Proof.Machine.execReadyInputChange port level s
  | .stateFrameTimer transfer => Sys2Proof.Machine.execStateFrameTimer transfer s
  | .countingIntervalEnd => Sys2Proof.Machine.execCountingIntervalEnd s
  | .pollCycleStart => Sys2Proof.Machine.execPollCycleStart s
  | .stationDue station => Sys2Proof.Machine.execStationDue station s
  | .pollTelegramSent => Sys2Proof.Machine.execPollTelegramSent s
  | .pollReplyStart => Sys2Proof.Machine.execPollReplyStart s
  | .pollReplyTimeout => Sys2Proof.Machine.execPollReplyTimeout s
  | .pollReplyEnd bytes => Sys2Proof.Machine.execPollReplyEnd bytes s
  | .pollReplyGap bytes => Sys2Proof.Machine.execPollReplyGap bytes s
  | .lateReplyRunEnd => Sys2Proof.Machine.execLateReplyRunEnd s
  | .requestFrameReceived byte => Sys2Proof.Machine.execRequestFrameReceived byte s
  | .frameTooLong byte => Sys2Proof.Machine.execFrameTooLong byte s
  | .frameGap => Sys2Proof.Machine.execFrameGap s
  | .frameByteError => Sys2Proof.Machine.execFrameByteError s
  | .replySent => Sys2Proof.Machine.execReplySent s
  | .reportSent => Sys2Proof.Machine.execReportSent s
  | .unknownKindRequest => Sys2Proof.Machine.execUnknownKindRequest s
  | .identify => Sys2Proof.Machine.execIdentify s
  | .setLink => Sys2Proof.Machine.execSetLink s
  | .start => Sys2Proof.Machine.execStart s
  | .reset => Sys2Proof.Machine.execReset s
  | .nodeStatus => Sys2Proof.Machine.execNodeStatus s
  | .setNode => Sys2Proof.Machine.execSetNode s
  | .lineSet => Sys2Proof.Machine.execLineSet s
  | .marginScan => Sys2Proof.Machine.execMarginScan s
  | .lineStatus => Sys2Proof.Machine.execLineStatus s
  | .pathForceSet => Sys2Proof.Machine.execPathForceSet s
  | .pathForceClear => Sys2Proof.Machine.execPathForceClear s
  | .pathStatus => Sys2Proof.Machine.execPathStatus s
  | .setAllotmentAdd => Sys2Proof.Machine.execSetAllotmentAdd s
  | .setAllotmentRemove => Sys2Proof.Machine.execSetAllotmentRemove s
  | .mapStatus => Sys2Proof.Machine.execMapStatus s
  | .setLevels => Sys2Proof.Machine.execSetLevels s
  | .defineService => Sys2Proof.Machine.execDefineService s
  | .releaseService => Sys2Proof.Machine.execReleaseService s
  | .serviceStatusOne => Sys2Proof.Machine.execServiceStatusOne s
  | .serviceStatusSummary => Sys2Proof.Machine.execServiceStatusSummary s
  | .shedList => Sys2Proof.Machine.execShedList s
  | .economyEnter => Sys2Proof.Machine.execEconomyEnter s
  | .economyLeave => Sys2Proof.Machine.execEconomyLeave s
  | .phoneSetPort => Sys2Proof.Machine.execPhoneSetPort s
  | .phoneSetCommon => Sys2Proof.Machine.execPhoneSetCommon s
  | .callControlAnswer => Sys2Proof.Machine.execCallControlAnswer s
  | .callControlHold => Sys2Proof.Machine.execCallControlHold s
  | .callControlUnhold => Sys2Proof.Machine.execCallControlUnhold s
  | .callControlClear => Sys2Proof.Machine.execCallControlClear s
  | .callControlRing => Sys2Proof.Machine.execCallControlRing s
  | .callStatus => Sys2Proof.Machine.execCallStatus s
  | .ringTestOn => Sys2Proof.Machine.execRingTestOn s
  | .ringTestOff => Sys2Proof.Machine.execRingTestOff s
  | .packetPortSet => Sys2Proof.Machine.execPacketPortSet s
  | .portStatusPort => Sys2Proof.Machine.execPortStatusPort s
  | .portStatusService => Sys2Proof.Machine.execPortStatusService s
  | .transferOpen => Sys2Proof.Machine.execTransferOpen s
  | .transferAbort => Sys2Proof.Machine.execTransferAbort s
  | .transferStatusOne => Sys2Proof.Machine.execTransferStatusOne s
  | .transferStatusAll => Sys2Proof.Machine.execTransferStatusAll s
  | .pollSet => Sys2Proof.Machine.execPollSet s
  | .stationSet => Sys2Proof.Machine.execStationSet s
  | .stationRead => Sys2Proof.Machine.execStationRead s
  | .linkByteReceived byte stopLow => Sys2Proof.Machine.execLinkByteReceived byte stopLow s

end Sys2Proof.Machine
end

