-- ==== Sys2Proof/Safety.lean ====
section
/-! DEFINITION. The terms in which claims about the part are made: a part that is not held, the next state of an event and of
a request, the bytes of a reply, and what a safe state is. -/

namespace Sys2Proof.Machine

/-! ## What a command meets and leaves -/

/-- The reset input does not hold the part (R206). -/
abbrev State.awake (s : State) : Prop := s.node.pins.resetLow = false

/-- The oldest WAITING request stands in place `i` and is `r`, and the part may take it (R190). -/
abbrev State.asks (s : State) (i : Fin 4) (r : Request) : Prop := s.awake ∧ s.link.oldest = some (i, r)

/-- The state that an event leaves: the node `n`, the management link as it was, an idle transmitter choosing its next frame
(R192), the queue of commands as it was. -/
def State.became (s : State) (n : Node) : State := ({ s with node := n }).kick

/-- The state that a request leaves: the node `n`, the request's place ANSWERED with the reply and off the list of arrivals
(R190), an idle transmitter choosing its next frame (R192), the queue of commands as it was. -/
def State.replied (s : State) (i : Fin 4) (r : Request) (n : Node) (reply : List Byte) (after : After := .nothing) : State :=
  ({ s with node := n, link := s.link.answer i r reply after }).kick

/-- The body of an OK reply without flags: status 00h, flag byte 00h, detail byte FFh, the fields (R200). -/
def okBytes (fields : List Byte) : List Byte := 0x00#8 :: 0x00#8 :: 0xFF#8 :: fields
/-- The body of a refusal: status, flag byte 00h, detail byte FFh, what its rule gives (R200). -/
def refusedBytes (status : Byte) (fields : List Byte := []) : List Byte := status :: 0x00#8 :: 0xFF#8 :: fields
/-- The body of a BAD_FIELD refusal that names a field (R200). -/
def badFieldBytes (field : Byte) : List Byte := [0x04#8, 0x00#8, field]

/-- The rows of the table that are requests of the management link. -/
def requestRows : List Instr :=
  [.unknownKindRequest, .identify, .setLink, .start, .reset, .nodeStatus, .setNode, .lineSet, .marginScan, .lineStatus,
   .pathForceSet, .pathForceClear, .pathStatus, .setAllotmentAdd, .setAllotmentRemove, .mapStatus, .setLevels, .defineService,
   .releaseService, .serviceStatusOne, .serviceStatusSummary, .shedList, .economyEnter, .economyLeave, .phoneSetPort,
   .phoneSetCommon, .callControlAnswer, .callControlHold, .callControlUnhold, .callControlClear, .callControlRing, .callStatus,
   .ringTestOn, .ringTestOff, .packetPortSet, .portStatusPort, .portStatusService, .transferOpen, .transferAbort,
   .transferStatusOne, .transferStatusAll, .pollSet, .stationSet, .stationRead]

/-! ## A margin measurement over positions with fixed error counts (R20) -/

/-- The measurement after at most so many positions, when each position's dwell finds the errors that `err` gives it. -/
def Meas.run (err : Int → Nat) : Nat → Meas → MeasStep
  | 0, m => .go m
  | fuel + 1, m =>
    match ({ m with frames := m.dwell, errors := err m.position } : Meas).judge with
    | .go m => Meas.run err fuel m
    | .done e => .done e

/-- The positions 1 to `k` of a side are clean, and `k` is 16 or the next position is not; `edge` is its error count. -/
def CleanRun (errors : Nat → Nat) (allowance k : Nat) (edge : Option Nat) : Prop :=
  k ≤ 16 ∧ (∀ j, 1 ≤ j → j ≤ k → errors j ≤ allowance) ∧
  if k = 16 then edge = none else allowance < errors (k + 1) ∧ edge = some (errors (k + 1))

/-! ## A target port and the transfer that waits for it (R166) -/

/-- Port `k` takes chunks: it is enabled in RUNNING and its ready level is asserted (R136, R166). -/
abbrev TakesChunks (n : Node) (k : Fin 4) : Prop :=
  (n.port k).enabled = true ∧ n.op = .running ∧ ((n.port k).readyUsed = false ∨ n.pins.ready[k] = true)

/-- Port `k` as it stands in node `n` acts on the open transfer `t` with record `x`, whose target is channel `channel` of that
port, and leaves node `m`: a delivery to a port that takes no chunks waits for it where it stands; one that waits for a port that
takes chunks goes on, its next chunk joining the receive queue when it fits; any other transfer stays (R166). -/
def PortActsOn (n m : Node) (k t : Fin 4) (x : Transfer) (channel : Nat) : Prop :=
  let size := min x.chunk (x.declared - x.offset)
  let room := ((n.port k).recv.map (·.data.length)).sum + size ≤ 8192
  let kept (st : TransferState) : Prop := m.pe.ports = n.pe.ports ∧ ∃ y, m.xfer t = some y ∧ y.state = st ∧
    y.target = x.target ∧ y.offset = x.offset ∧ y.blocks = x.blocks ∧ y.received = x.received
  (x.state = .delivering → ¬ TakesChunks n k → kept .deliveryWait) ∧
  (x.state = .deliveryWait → TakesChunks n k → 0 < size → ¬ room → kept .delivering) ∧
  (x.state = .deliveryWait → TakesChunks n k → 0 < size → room →
    (n.port k).recv ++ [{ channel := channel, data := readPage n.te.store x.blocks x.offset size }] <+: (m.port k).recv) ∧
  ((x.state = .delivering ∧ TakesChunks n k) ∨ (x.state = .deliveryWait ∧ ¬ TakesChunks n k) ∨
    (x.state ≠ .delivering ∧ x.state ≠ .deliveryWait) → m = n)

/-- Transfer `t` with record `x` is open, its target is channel `channel` of port `k`, and no other open transfer's is on `k`. -/
def AloneAt (n : Node) (k t : Fin 4) (x : Transfer) (channel : Nat) : Prop :=
  n.xfer t = some x ∧ x.targets[x.target]? = some (k, channel) ∧
  ∀ u y, u ≠ t → n.xfer u = some y → y.currentPort ≠ some k

/-! ## The end of an event that freed blocks (R162) -/

/-- From node `n`, with its free blocks, to node `m` the first STORE-suspended transfers in number order, as many as there are
free blocks, have returned to RECEIVING; every other record is as it was. -/
def StoreResumed (n m : Node) : Prop :=
  let waits (t : Fin 4) : Bool := (n.xfer t).any fun x => decide (x.state = .suspended ∧ x.reason = some .store)
  ∀ t, let resumes := waits t = true ∧ (allFour.filter fun j => decide (j < t) && waits j).length < n.freeBlocks.length
    (¬ resumes → m.xfer t = n.xfer t) ∧
    (resumes → ∀ x, n.xfer t = some x → ∃ reported timer counts, m.xfer t = some { x with
      state := .receiving, reason := none, reported := reported, timer := timer, counts := counts })

/-! ## The restoration pass and the reroute (R95 to R102) -/

/-- The ids of the services of which `which` holds, each once, every one before those that are to come after it. -/
def Listed (n : Node) (which : Service → Prop) (before : Service → Service → Prop) (ids : List Nat) : Prop :=
  ids.Nodup ∧ (∀ id, id ∈ ids ↔ ∃ v, n.svc id = some v ∧ which v) ∧
  ids.Pairwise fun i j => ∀ v w, n.svc i = some v → n.svc j = some w → before v w
/-- The order of level, then of admission order number (R98, R100). -/
def EarlierAdmitted (v w : Service) : Prop := v.level < w.level ∨ (v.level = w.level ∧ v.adm.getD 0 ≤ w.adm.getD 0)
/-- The order of the shed list: level, shed order number, id (R89). -/
def EarlierShed (v w : Service) : Prop :=
  v.level < w.level ∨ (v.level = w.level ∧
    (v.shedNo.getD 0 < w.shedNo.getD 0 ∨ (v.shedNo.getD 0 = w.shedNo.getD 0 ∧ v.id < w.id)))

/-- Each id of a list is served at its turn; `act` gives the node where it succeeds. The node left, and the successes. -/
def serveEach (act : Node → Nat → Option Node) : List Nat → Node → Node × Nat
  | [], n => (n, 0)
  | id :: ids, n =>
    match act n id with
    | some m =>
      let r := serveEach act ids m
      (r.1, r.2 + 1)
    | none => serveEach act ids n

/-- A record takes the next admission order number and its cells, and is reported (R66, R74, R85). -/
def admitted (n : Node) (v : Service) (cells : List Nat) (old : Option SvcState) (cause : SvcCause) : Node :=
  let k := min 4294967295 (n.au.admCounter + 1)
  let w : Service := { v with adm := some k, cells := cells }
  (({ n with au := { n.au with admCounter := k } } : Node).takeCells w cells).svcEvent w old cause

/-- The queued call of port `p` is given its service, without pre-emption or, that failing, with it at level 0, and opens (R82,
R96). -/
def callServed (n : Node) (p : Fin 8) : Option Node :=
  let v := callService p (n.phone p).set.preferred
  match n.plainCells v v.primary 1 with
  | some cells => some ((admitted n v cells none .defined).openCall p)
  | none => (n.preemptCells v v.primary 1).map fun r => (admitted r.1 v r.2 none .defined).openCall p
/-- The waiting list is served from its head until a call fails (R96). -/
def serveCalls : List (Fin 8) → Node → Node × Nat
  | [], n => (n, 0)
  | p :: ps, n =>
    match callServed n p with
    | some m =>
      let r := serveCalls ps m
      (r.1, r.2 + 1)
    | none => (n, 0)

/-- An entry of the shed list is placed on its target side, at its full grant or else its floor grant, without pre-emption; it is
passed over in economy mode at level 2 or 3, and without a usable side (R97). Its transfer and its readings go on (R163, R182). -/
def restoredService (n : Node) (id : Nat) : Option Node :=
  match n.svc id with
  | none => none
  | some v =>
    let usable (x : Side) : Bool := (n.pathOf x).state == .reachable || (n.pathOf x).state == .holdOff
    let at' (x : Side) : Option Node :=
      let placed (st : SvcState) (cells : List Nat) : Node :=
        ((admitted n { v with
          state := st, reason := none, shedNo := none, current := if v.prot = .dual then none else some x }
          cells (some .shed) .restored).transferPlaced id).weatherPlaced id
      match n.plainCells v x v.full with
      | some cells => some (placed .active cells)
      | none => v.floor.bind fun f => (n.plainCells v x f).map (placed .reduced)
    if n.au.economy = true ∧ 2 ≤ v.level then none
    else if v.prot = .dual ∨ usable v.primary then at' v.primary
    else if usable v.primary.other then at' v.primary.other
    else none

/-- A REDUCED service takes its full grant where it stands, without pre-emption, and keeps its admission order number (R98). -/
def grownService (n : Node) (id : Nat) : Option Node :=
  match n.svc id with
  | none => none
  | some v => (n.plainCells v (v.current.getD v.primary) v.full).map fun cells =>
      let w : Service := { v with state := .active, cells := cells }
      (n.takeCells w cells).svcEvent w (some v.state) .grown

/-- A service takes its present grant on its primary side, without pre-emption, and keeps its state and number (R99). -/
def homeService (n : Node) (id : Nat) : Option Node :=
  match n.svc id with
  | none => none
  | some v => (n.plainCells v v.primary v.cells.length).map fun cells =>
      let w : Service := { v with current := some v.primary, cells := cells }
      (n.takeCells w cells).svcEvent w (some v.state) .reverted

/-- One pass of four steps, from node `n` to node `m`: the queued calls; the shed list; the REDUCED services; the REROUTE services
away from a primary side that is REACHABLE, each as they stand when its step begins. `placed` services were placed by steps 1 and
2, and `moved` by step 4 (R96 to R99). -/
def PassRound (n m : Node) (placed moved : Nat) : Prop :=
  ∃ shed reduced away : List Nat,
    let n1 := serveCalls n.cc.waiting n
    let n2 := serveEach restoredService shed n1.1
    let n3 := serveEach grownService reduced n2.1
    let n4 := serveEach homeService away n3.1
    Listed n1.1 (fun v => v.state = .shed) EarlierShed shed ∧
    Listed n2.1 (fun v => v.state = .reduced) EarlierAdmitted reduced ∧
    Listed n3.1 (fun v => v.prot = .reroute ∧ v.state ≠ .shed ∧ v.current = some v.primary.other ∧
      (n3.1.pathOf v.primary).state = .reachable) EarlierAdmitted away ∧
    m = n4.1 ∧ placed = n1.2 + n2.2 ∧ moved = n4.2
/-- Passes from node `n` to node `m`: another follows each that moved a service in its step 4, and the last moved none (R99);
`placed` counts what all of them placed. -/
inductive PassRuns : Node → Node → Nat → Prop
  | last {n m : Node} {placed : Nat} : PassRound n m placed 0 → PassRuns n m placed
  | again {n m k : Node} {placed moved more : Nat} : PassRound n m placed (moved + 1) → PassRuns m k more →
      PassRuns n k (placed + more)

/-- The mover of a reroute from side `x`: its halves are freed, and on the other side, if that is usable, it takes its full grant
(not when it was REDUCED) or else its floor grant, each without pre-emption and then, if its level may pre-empt, with it. It
keeps its admission order number; where every attempt fails it is SHED with PATH_LOST (R101). -/
def moverServed (x : Side) (n : Node) (id : Nat) : Node :=
  match n.svc id with
  | none => n
  | some v =>
    let bare : Service := { v with cells := [] }
    let freed : Node := ({ n with au := { n.au with allot := n.au.allot.map fun e => { e with
      a := if e.a = some id then none else e.a, b := if e.b = some id then none else e.b } } } : Node).putSvc bare
    let room (g : Nat) : Option (Node × List Nat) :=
      match freed.plainCells bare x.other g with
      | some cells => some (freed, cells)
      | none => if freed.au.map.mayPreempt v.level then freed.preemptCells bare x.other g else none
    let moved (st : SvcState) (r : Node × List Nat) : Node :=
      let w : Service := { v with current := some x.other, state := st, cells := r.2 }
      (r.1.takeCells w r.2).svcEvent w (some v.state) .rerouted
    let shed : Node := freed.shed bare .pathLost
    if (n.pathOf x.other).state ≠ .reachable ∧ (n.pathOf x.other).state ≠ .holdOff then shed
    else match (if v.state = .reduced then none else room v.full) with
      | some r => moved .active r
      | none => match v.floor.bind room with
        | some r => moved .reduced r
        | none => shed

/-! ## The end of a clear guard (R126) -/

/-- The clear guard of port `p`'s call expires in node `n` and leaves node `m`: the service is released, the call is IDLE with its
record cleared; a handset lifted without clear-lock on an enabled port in RUNNING then starts a caller's call, which opens or is
queued (R121, R126). -/
def GuardEnded (n m : Node) (p : Fin 8) : Prop :=
  let ph := n.phone p
  let idle : Phone := { ph with
    call := .idle, origin := none, start := none, holdRequested := false, selected := none, liveCell := none, timer := none
    cadence := none, polarity := ph.set.polarity }
  let rests := ph.hook = .onHook ∨ ph.clearLock = true ∨ ph.set.enabled = false ∨ n.op = .config
  (rests → m.phone p = idle ∧ m.svc (56 + p.val) = none) ∧
  (¬ rests →
    ((m.phone p).call = .opened ∧ (m.phone p).origin = some .caller ∧ (m.phone p).start = some n.runTime ∧
      (m.svc (56 + p.val)).isSome = true) ∨
    (m.phone p = { idle with
        call := .queued, origin := some .caller, start := some n.runTime, testDrive := false
        cadence := some ⟨.wait, true, 0, n.cc.common.waitPeriod, n.cc.common.waitOn⟩ } ∧
      m.cc.waiting.getLast? = some p ∧ m.svc (56 + p.val) = none)) ∧
  n.reports.queue <+: m.reports.queue ∧ m.line = n.line ∧ m.path = n.path ∧ m.cfg = n.cfg ∧ m.clk = n.clk ∧ m.op = n.op ∧
  m.runTime = n.runTime ∧ m.pins = n.pins

/-! ## The end of a training search (R18, R19) -/

/-- What the end of the search on a line with these eleven widths leaves: the pause after a failed search when the chosen width is
0, and otherwise the chosen preset requested and the receive-trained flag set, with the entry to UP when the neighbour's flag is
confirmed too. -/
def SearchEnds (s : State) (l : Line) (widths : List Nat) (outcome : Result) : Prop :=
  let n := s.node
  let p := n.line.get l
  let best := choosePreset widths
  let both := p.state = .training ∧ p.confirmed.any (·.rxTrained) = true
  let trained : LinePort := { p with trained := some best, request := some best, rxTrained := true, training := .trained }
  (widths.getD best 0 = 0 → outcome = .next (s.became
    ((n.setLine l { p with trained := none, request := none, training := .pause 0 }).report
      (.lineEvent l .training p.state .trainingFailed p.sd p.sf)))) ∧
  (0 < widths.getD best 0 → ¬ both → outcome = .next (s.became (n.setLine l trained))) ∧
  (0 < widths.getD best 0 → both → ∃ m : Node, outcome = .next (s.became m) ∧
    m.line.get l = { trained with
      state := .up, periodic := if p.minutes = 0 then none else some (240000 * p.minutes)
      win := { frames := 0, errors := 0, last := 0, below := 0, sdThr := 0, sfThr := 0 } } ∧
    m.line.get l.other = n.line.get l.other ∧
    (n.report (.lineEvent l .training .up .trained p.sd p.sf)).reports.queue <+: m.reports.queue ∧
    m.pins = n.pins ∧ m.clk = n.clk ∧ m.op = n.op ∧ m.runTime = n.runTime ∧ m.cfg = n.cfg ∧ m.cs = n.cs ∧ m.au = n.au ∧
    m.cc = n.cc ∧ m.pe = n.pe ∧ m.te = n.te ∧ m.pc = n.pc)

/-! ## Trains from a packer to the far reassembler (R142 to R149) -/

/-- A packer, the far reassembler, and the good frames that have come out of it. -/
structure Carried where
  tx : PeService
  rx : PeService
  frames : List (List Byte)
  deriving DecidableEq, Repr

/-- So many trains of `size` payload bytes, with no age limit, packed and read one after the other. -/
def carryTrains (now : BitVec 32) (size : Nat) : Nat → PeService → PeService → Carried
  | 0, tx, rx => { tx := tx, rx := rx, frames := [] }
  | k + 1, tx, rx =>
    let c := carryTrains now size k tx rx
    let p := packTrain 0 now size c.tx
    let r := readTrain (cellOf (BitVec.ofNat 8 tx.id) (BitVec.ofNat 8 (p.offset.getD 0xFF))) p.bytes c.rx
    { tx := p.svc, rx := r.1, frames := c.frames ++ r.2 }

/-! ## Safe states -/

/-- The stage of a held place. -/
def Link.stageOf (k : Link) (i : Fin 4) : Option Stage := k.places[i].map (·.stage)
def Stage.isWaiting : Stage → Bool
  | .waiting => true
  | .answered .. | .sending .. => false
def Stage.isAnswered : Stage → Bool
  | .answered .. => true
  | .waiting | .sending .. => false
def Stage.isSending : Stage → Bool
  | .sending .. => true
  | .waiting | .answered .. => false

/-- The management link is in order: no request is lost or answered twice, at most 8 BUSY answers wait, and the transmitter is
idle only while nothing waits for it (R189, R190, R192). -/
structure LinkInOrder (s : State) : Prop where
  busyPlaces : s.link.busy.length ≤ 8
  arrivalsOnce : s.link.arrivals.Nodup
  waiting : ∀ i, i ∈ s.link.arrivals ↔ (s.link.stageOf i).any Stage.isWaiting = true
  formedOnce : ∀ i, s.link.formed.count (.place i) ≤ 1
  answered : ∀ i, Formed.place i ∈ s.link.formed ↔ (s.link.stageOf i).any Stage.isAnswered = true
  sending : ∀ i, s.link.tx = .place i ↔ (s.link.stageOf i).any Stage.isSending = true
  busyAnswers : s.link.formed.count .busy + (if s.link.tx = .busy then 1 else 0) = s.link.busy.length
  idle : s.link.tx = .idle → s.link.formed = [] ∧ s.node.reports.queue = []

/-- The stores are in order: the report queue holds at most 32 reports and is not empty while a report is sent (R193), the bulk
store keeps its canonical form, and the run time stays 0 in CONFIG (R197). -/
structure StoresInOrder (s : State) : Prop where
  reports : s.node.reports.queue.length ≤ 32
  sent : s.link.tx = .report → s.node.reports.queue ≠ []
  store : Memory.wf s.node.te.store = true
  runTime : s.node.op = .config → s.node.runTime = 0

/-- The tables are in order: the allotment lists each cell 0..935 at most once, ascending, the live map lists the same cells as
ALLOTTED (R45, R47, R48), and the service table holds at most one record for an id, in id order (R64). -/
structure TablesInOrder (n : Node) : Prop where
  allotment : n.au.allot.Pairwise (·.cell < ·.cell)
  cells : ∀ e ∈ n.au.allot, e.cell < 936
  live : n.cs.live.map (·.cell) = n.au.allot.map (·.cell)
  services : n.au.services.Pairwise (·.id < ·.id)

/-- Economy mode holds: a SHED service has no cell, and while the economy flag is set every service of level 2 or 3 is SHED, so
that none of them owns a half (R88, R105). -/
structure EconomyHolds (n : Node) : Prop where
  shed : ∀ v ∈ n.au.services, v.state = .shed → v.cells = []
  economy : n.au.economy = true → ∀ v ∈ n.au.services, 2 ≤ v.level → v.state = .shed

/-- No level's use exceeds its ceiling (R69). -/
def CeilingsHold (n : Node) : Prop := ∀ lv < 4, n.levelUse lv ≤ n.au.map.ceilingOf lv

/-- The call state in which a call timer runs (R123, R125, R126). -/
def CallTimer.runsIn : CallTimer → CallState
  | .heldLimit => .held
  | .ringTimeout => .ringing
  | .clearGuard => .clearing
/-- The call state in which a cadence runs (R119, R125, R130). -/
def CadenceKind.runsIn : CadenceKind → CallState
  | .ring => .ringing
  | .wait => .queued

/-- The calls are in order: the waiting list holds exactly the QUEUED ports, each once; the service of id 56 + p exists exactly
while port p's call holds it, and is then ACTIVE (R120), DUAL and of level 0 (R82); a timer and a cadence run only in their call
states (R123, R125, R126, R130). -/
structure CallsInOrder (n : Node) : Prop where
  once : n.cc.waiting.Nodup
  waiting : ∀ p, p ∈ n.cc.waiting ↔ (n.phone p).call = .queued
  service : ∀ p, (n.phone p).call.holds = (n.svc (callId p)).isSome
  active : ∀ v ∈ n.au.services, 56 ≤ v.id → v.state = .active ∧ v.level = 0 ∧ v.prot = .dual
  timer : ∀ p, ∀ t ∈ (n.phone p).timer, (n.phone p).call = t.1.runsIn
  cadence : ∀ p, ∀ c ∈ (n.phone p).cadence, (n.phone p).call = c.kind.runsIn

/-- The staging list is in order: one record for an id, the effective frames non-decreasing in list order, none more than 64
frames ahead, and after the first frame start none behind or in force (R30, R53 to R55). -/
structure StagingInOrder (n : Node) : Prop where
  lead : 4 ≤ n.cfg.lead ∧ n.cfg.lead ≤ 64
  once : n.cs.staging.Pairwise (·.id ≠ ·.id)
  order : n.cs.staging.Pairwise fun x y => ahead n.clk.frame x.eff ≤ ahead n.clk.frame y.eff
  far : ∀ r ∈ n.cs.staging, ahead n.clk.frame r.eff ≤ 64
  due : n.clk.started = true → ∀ r ∈ n.cs.staging, 1 ≤ ahead n.clk.frame r.eff

/-- The blocks of the bulk store are in order: every open transfer holds as many blocks as the bytes it has received need, each
one of the 64 and once, no block is held by two transfers, and what has been received lies within the page (R155, R156, R161). -/
structure BlocksInOrder (n : Node) : Prop where
  held : ∀ t, ∀ x ∈ n.xfer t, x.blocks.Nodup ∧ (∀ b ∈ x.blocks, b < 64) ∧
    x.blocks.length = (x.received + 2047) / 2048 ∧ x.received ≤ x.declared
  apart : ∀ t u, t ≠ u → ∀ x ∈ n.xfer t, ∀ y ∈ n.xfer u, ∀ b ∈ x.blocks, b ∉ y.blocks

/-- The transmit queues are in order: one queue for an id, of ids below 56; no queue holds more bytes than its service's quota,
and all of them together no more than the pool's 384 buffers (R139). -/
structure QueuesInOrder (n : Node) : Prop where
  once : n.pe.svcs.Pairwise (·.id < ·.id)
  ids : ∀ v ∈ n.pe.svcs, v.id < 56
  quota : ∀ v ∈ n.pe.svcs, ∀ sv ∈ n.svc v.id, v.queuedBytes ≤ 1024 * sv.binding.quota
  pool : (n.pe.svcs.map (·.buffers)).sum ≤ 384

end Sys2Proof.Machine
end

