-- ==== Sys2Proof/Certificates/Slice0/Obligations.lean ====
section
/-! DEFINITION. The statements for the provers. Every statement of a command's result is an equation for `exec`, or names the
node that it leaves; `State.became`, `State.replied` and the other terms stand in Safety.lean. -/

open Sys2Proof Sys2Proof.Machine

/-! ## The machine -/

/-- A step takes the command at the front of the queue and runs it with the queue's rest; on an empty queue the part idles (the
model's choice, log 2). -/
def Obligations.StepTakesTheFrontCommand : Prop :=
  (∀ (c : Instr) (q : List Instr) (s : State), step (s.withPending (c :: q)) = exec c (s.withPending q)) ∧
  ∀ s : State, step (s.withPending []) = .next (s.withPending [])

/-- Every command completes from every state, with no fault and no refusal, and leaves the queue of commands as it is. -/
def Obligations.EveryCommandCompletes : Prop :=
  ∀ (c : Instr) (s : State), ∃ t, exec c s = .next t ∧ t.pending = s.pending

/-- R206: the reset input going low gives every block its power-on values; while it is low, every command but those of the
supply and the reset input leaves the part as it is, and the transmitter is idle; the input rising gives the power-on values
once more, the link at 115,200 bit/s. That the levels of the other inputs are kept (log 6), and that a held part still takes the
new level from a command that changes one (log 34: signal-detect, module-present, loop-detect and ready), is the model's choice.
-/
def Obligations.ResetInputHoldsThePart : Prop :=
  ∀ s : State,
    let pins := s.node.pins
    let start (low : Bool) : State :=
      { node := { State.reset.node with pins := { pins with resetLow := low } }, link := State.reset.link
        pending := s.pending }
    let levels (c : Instr) : Pins :=
      match c with
      | .signalLost l pin => pins.setSignal l pin false
      | .signalReturned l pin => pins.setSignal l pin true
      | .msTick loops => { pins with loops := loops }
      | .readyInputChange k level => { pins with ready := pins.ready.set k level }
      | _ => pins
    exec .resetInputLow s = .next (start true) ∧ (start true).link.tx = .idle ∧
    (pins.resetLow = true → ∀ c : Instr, c ≠ .powerOn → c ≠ .resetInputLow → c ≠ .resetInputRise →
      exec c s = .next (s.setPins (levels c))) ∧
    exec .resetInputRise s = .next (start false) ∧ (start false).link.rate = .r115200

/-- The invariants of the link, the stores, the tables, economy mode, the ceilings, the calls, the staging list, the blocks and
the transmit queues hold at reset. -/
def Obligations.ResetStateIsInOrder : Prop :=
  let n := State.reset.node
  LinkInOrder State.reset ∧ StoresInOrder State.reset ∧ TablesInOrder n ∧ EconomyHolds n ∧ CeilingsHold n ∧ CallsInOrder n ∧
    StagingInOrder n ∧ BlocksInOrder n ∧ QueuesInOrder n

/-- Every step keeps the management link in order: the WAITING places are those listed in order of arrival, each once; the
ANSWERED places and the BUSY answers are those that wait for the transmitter, each once; the SENDING place is the one being
sent; the busy list holds at most 8 answers; the transmitter is idle only while no reply and no report waits. -/
def Obligations.StepKeepsLinkInOrder : Prop :=
  ∀ s t : State, LinkInOrder s → step s = .next t → LinkInOrder t

/-- Every step keeps the stores in order: at most 32 reports, one of them at the head while a report is sent (R193); the run
time at 0 in CONFIG (R194, R195, R197); the bulk store in its canonical form, which is the model's own form of memory (log 26).
-/
def Obligations.StepKeepsStoresInOrder : Prop :=
  ∀ s t : State, StoresInOrder s → step s = .next t → StoresInOrder t

/-- Every step keeps the tables in order: the allotment lists each cell once, all below 936 (R45); the live map lists the same
cells as the allotment, an added cell entering both and a removed one leaving both (R47, R48); the service table holds one
record at most for an id (R64). -/
def Obligations.StepKeepsTablesInOrder : Prop :=
  ∀ s t : State, TablesInOrder s.node → step s = .next t → TablesInOrder t.node

/-- R105, R88: every step keeps economy mode: a SHED service has no cell, and while the economy flag is set no service of level
2 or 3 is placed, whatever places, grows, moves or pre-empts. -/
def Obligations.StepKeepsEconomyMode : Prop :=
  ∀ s t : State, TablesInOrder s.node → EconomyHolds s.node → step s = .next t → EconomyHolds t.node

/-- R69: every step keeps the halves owned by the services of each level within that level's ceiling, whatever placement,
growth, move, pre-emption or SET_LEVELS it makes. -/
def Obligations.StepKeepsTheCeilings : Prop :=
  ∀ s t : State, TablesInOrder s.node → CeilingsHold s.node → step s = .next t → CeilingsHold t.node

/-- R120, R82: every step keeps the calls in order: the waiting list holds exactly the QUEUED ports, each once; the service of
id 56 + p exists exactly while the call of port p is OPEN, ANSWERED, HELD, RINGING or CLEARING, and it is then ACTIVE, DUAL and
of level 0; each call timer and cadence runs only in its call state (R123, R125, R126, R130). -/
def Obligations.StepKeepsCallsInOrder : Prop :=
  ∀ s t : State, TablesInOrder s.node → CallsInOrder s.node → step s = .next t → CallsInOrder t.node

/-- R53 to R55, R30: every step keeps the staging list in order: one record for an id, the effective frames non-decreasing in
list order, none more than 64 frames ahead, the largest staging lead, and none reached without having been applied. -/
def Obligations.StepKeepsStagingInOrder : Prop :=
  ∀ s t : State, StagingInOrder s.node → step s = .next t → StagingInOrder t.node

/-- R155, R156, R161: every step keeps the blocks of the bulk store in order: each open transfer holds the blocks that the bytes
it has received need, within its page; each block is one of the 64, held once and by one transfer. -/
def Obligations.StepKeepsBlocksInOrder : Prop :=
  ∀ s t : State, BlocksInOrder s.node → step s = .next t → BlocksInOrder t.node

/-- R139: every step keeps the transmit queues in order: one queue for an id, no queue above its service's quota in bytes, all
of them together within the 384 buffers of the pool. -/
def Obligations.StepKeepsQueuesInOrder : Prop :=
  ∀ s t : State, TablesInOrder s.node → QueuesInOrder s.node → step s = .next t → QueuesInOrder t.node

/-! ## The management link -/

/-- R192: while a frame is sent nothing is chosen; when the transmitter is idle, the oldest waiting reply is begun; a report is
begun only when no reply waits; with nothing waiting the transmitter stays idle. R193: a report joins the end of a queue of
fewer than 32, carrying the lost mark, which it clears; at 32 it is discarded, the mark is set and the lost-report count
increases, held at 65,535. R189, R193: the end of a frame frees what was sent: a reply's place, the first BUSY answer, or the
report at the head of the queue; nothing else changes but the transmitter's next choice. Of a reply and a report that become
ready together R192 lets either be begun; that the reply is begun is the model's choice, log 21. -/
def Obligations.TransmitterSendsRepliesBeforeReports : Prop :=
  (∀ s : State,
    (s.link.tx ≠ .idle → s.kick = s) ∧
    (∀ i rest r reply after, s.link.tx = .idle → s.link.formed = .place i :: rest →
      s.link.places[i] = some { request := r, stage := .answered reply after } →
      s.kick = { s with link := { s.link with
        tx := .place i, formed := rest,
        places := s.link.places.set i (some { request := r, stage := .sending reply after }) } }) ∧
    (∀ rest, s.link.tx = .idle → s.link.formed = .busy :: rest →
      s.kick = { s with link := { s.link with tx := .busy, formed := rest } }) ∧
    (s.link.tx = .idle → s.link.formed = [] → s.node.reports.queue ≠ [] →
      s.kick = { s with link := { s.link with tx := .report } }) ∧
    (s.link.tx = .idle → s.link.formed = [] → s.node.reports.queue = [] → s.kick = s)) ∧
  (∀ (n : Node) (b : ReportBody),
    (n.reports.queue.length < 32 → n.report b = { n with reports := {
      queue := n.reports.queue ++ [{ body := b, runTime := n.runTime, lost := n.reports.lostMark }]
      lostMark := false, lost := n.reports.lost } }) ∧
    (32 ≤ n.reports.queue.length → n.report b = { n with reports := {
      queue := n.reports.queue, lostMark := true, lost := min 65535 (n.reports.lost + 1) } })) ∧
  ∀ s : State, s.awake →
    (∀ i r reply, s.link.tx = .place i → s.link.places[i] = some { request := r, stage := .sending reply .nothing } →
      exec .replySent s =
        .next (State.kick { s with link := { s.link with tx := .idle, places := s.link.places.set i none } })) ∧
    (∀ a rest, s.link.tx = .busy → s.link.busy = a :: rest →
      exec .replySent s = .next (State.kick { s with link := { s.link with tx := .idle, busy := rest } })) ∧
    (∀ r rest, s.link.tx = .report → s.node.reports.queue = r :: rest →
      exec .reportSent s = .next (State.kick { s with
        node := { s.node with reports := { s.node.reports with queue := rest } }, link := { s.link with tx := .idle } }))

/-- R187: SET_LINK is answered OK with the rate named; a code of no rate is refused with BAD_FIELD, another length with
BAD_LENGTH. When the reply to one that named another rate has been sent, the place is free and the link runs at the new rate; a
frame that the receiver had begun is rejected with RATE_CHANGE, counted and reported. R196: RESET is answered OK and no further
request is taken; when its reply has been sent every block holds its power-on values, the link rate alone being kept. That the
input levels are kept too (log 6) is the model's choice; the queue of commands stays. -/
def Obligations.LinkRateAndResetActAfterTheirReplies : Prop :=
  (∀ (s : State) (i : Fin 4) (r : Request), s.asks i r → r.kind = 0x02#8 →
    (∀ b q, r.body = [b] → linkRateOf b.toNat = some q →
      exec .setLink s = .next (s.replied i r s.node (okBytes [b]) (if q = s.link.rate then .nothing else .rate q))) ∧
    (∀ b, r.body = [b] → 4 < b.toNat → exec .setLink s = .next (s.replied i r s.node (badFieldBytes 0))) ∧
    (r.body.length ≠ 1 → exec .setLink s = .next (s.replied i r s.node (refusedBytes 0x02#8)))) ∧
  (∀ (s : State) (i : Fin 4) (r : Request) (reply : List Byte) (q : LinkRate), s.awake → s.link.tx = .place i →
    s.link.places[i] = some { request := r, stage := .sending reply (.rate q) } → q ≠ s.link.rate →
    let freed := { s.link with tx := .idle, places := s.link.places.set i none, rate := q }
    (s.link.rx = .hunting → exec .replySent s = .next (State.kick { s with link := freed })) ∧
    (∀ bs gap, s.link.rx = .frame bs gap → exec .replySent s = .next (State.kick { s with
      node := s.node.report (.frameReject .rateChange (frameKind bs) (frameTag bs) bs.length)
      link := { freed with
        rx := .hunting, rejects := { s.link.rejects with rateChange := min 65535 (s.link.rejects.rateChange + 1) } } }))) ∧
  ∀ s : State,
    (∀ i r, s.asks i r → r.kind = 0x04#8 → r.body = [] →
      exec .reset s = .next (s.replied i r s.node (okBytes []) .reset) ∧
      (s.replied i r s.node (okBytes []) .reset).link.oldest = none) ∧
    (s.awake → s.link.resetTaken = true → ∀ c ∈ requestRows, exec c s = .next s.kick) ∧
    (∀ i r reply, s.awake → s.link.tx = .place i → s.link.places[i] = some { request := r, stage := .sending reply .reset } →
      exec .replySent s = .next { node := { State.reset.node with pins := s.node.pins }
                                  link := { State.reset.link with rate := s.link.rate }, pending := s.pending })

/-- Power-on gives every block its power-on values; that the inputs keep their levels (log 6) is the model's choice, and the
queue of commands stays. Of those values, the ones that the spec states: in the tables of R27, R43, R63, R87, R135, R154, R172,
R185 and R199, with the node settings of R30, the class map of R67, the phone settings and common settings of R109 and R110, the
economy flag of R108, the poll settings and station entries of R173 and R175. -/
def Obligations.PowerOnLeavesTheStatedValues : Prop :=
  ∀ s : State, ∃ t, exec .powerOn s = .next t ∧
    t = { node := { State.reset.node with pins := s.node.pins }, link := State.reset.link, pending := s.pending } ∧
    t.link.rate = .r115200 ∧ t.link.rx = .hunting ∧ (∀ i : Fin 4, t.link.places[i] = none) ∧ t.link.busy = [] ∧
    t.link.stray = 0 ∧ t.link.rejects = ⟨0, 0, 0, 0, 0, 0⟩ ∧ t.link.busyCount = 0 ∧
    t.node.op = .config ∧ t.node.runTime = 0 ∧ t.node.reports.queue = [] ∧ t.node.reports.lostMark = false ∧
    t.node.reports.lost = 0 ∧ t.node.cfg = ⟨0, 250, 50, 300, .uFirst, .nearestEven, 8⟩ ∧
    (∀ l, let p := t.node.line.get l
      p.state = .disabled ∧ p.enabled = false ∧ p.sdThr = 40 ∧ p.sfThr = 400 ∧ p.dwell = 400 ∧ p.allowance = 0 ∧
      p.minutes = 0 ∧ p.txPreset = 5 ∧ p.trained = none ∧ p.request = none ∧ p.rxTrained = false ∧ p.confirmed = none ∧
      p.sd = false ∧ p.sf = false ∧ p.result = none) ∧
    (∀ x, let p := t.node.pathOf x
      p.state = .lost ∧ p.initial = true ∧ p.forced = false ∧ p.reach = false) ∧
    t.node.timing = ⟨.local, ⟨0, 0⟩⟩ ∧ t.node.cs.live = [] ∧ t.node.cs.staging = [] ∧ t.node.cs.conflicts = 0 ∧
    (∀ l, let w := t.node.cs.line.get l
      w.sending = none ∧ w.waiting = [] ∧ w.seq = 0 ∧ w.forward = none ∧ w.skipped = 0 ∧ w.repeated = 0 ∧ w.lost = 0) ∧
    t.node.au = ⟨[], [], ⟨1, 2, 3, 3, #v[1872, 1872, 1872, 1872], #v[false, true, true], #v[true, false, false]⟩, 0, 0, false⟩ ∧
    t.node.cc.common = ⟨15, 60, 3, 5000, 1000, 3000, 500⟩ ∧ t.node.cc.waiting = [] ∧
    (∀ p, let ph := t.node.phone p
      ph.set = ⟨false, 0, .a, 100, 600, 60, true, true, .normal⟩ ∧ ph.call = .idle ∧ ph.hook = .onHook ∧ ph.lastHigh = 0 ∧
      ph.lastLow = 0 ∧ ph.saturated = false ∧ ph.flashes = 0 ∧ ph.clearLock = false ∧ ph.holdRequested = false) ∧
    (∀ k, let p := t.node.port k
      p.enabled = false ∧ p.rate = 2000 ∧ p.readyUsed = false ∧ p.recv = [] ∧ p.counts = ⟨0, 0, 0, 0⟩) ∧
    t.node.pe.poolFree = 384 ∧ (∀ place, t.node.boundTo place = none) ∧ (∀ x, t.node.xfer x = none) ∧
    t.node.freeBlocks.length = 64 ∧ t.node.te.malformed = 0 ∧ t.node.te.unmatched = 0 ∧ t.node.pc.enabled = false ∧
    t.node.pc.rate = .r9600 ∧ t.node.pc.interval = 60 ∧ t.node.pc.timeout = 500 ∧ t.node.pc.service = none ∧
    t.node.pc.running = false ∧ t.node.pc.queue = [] ∧ t.node.pc.txn = none ∧ t.node.pc.late = 0 ∧
    (∀ k, let x := t.node.station k
      x.enabled = false ∧ x.address = 1 ∧ x.offset = 0 ∧ x.state = .unpolled ∧ x.failures = 0 ∧ x.reading = none ∧
      x.unsent = false ∧ x.overwritten = 0 ∧ x.counts = ⟨0, 0, 0, 0, 0, 0, 0⟩)

/-- R189, R188: the last check byte of a frame whose check matches brings its request a free place, in stage WAITING behind
those before it; with no place free, a BUSY answer, counted; with 8 answers waiting, rejection as OVERRUN; a check that does not
match rejects the frame as BAD_CHECK. That the lowest-numbered free place is taken is the model's choice, log 84. -/
def Obligations.WholeFrameIsOfferedToTheBuffer : Prop :=
  ∀ (s : State) (b : Byte) (bs : List Byte) (gap : Nat), s.awake → s.link.rx = .frame bs gap → gap < 11 →
    let f := bs ++ [b]
    let r : Request :=
      { kind := f.getD 2 0, tag := BitVec.ofNat 16 (numAt f 3 2), body := (f.drop 5).take (numAt f 0 2) }
    let event (cause : RejectCause) := s.node.report (.frameReject cause (frameKind f) (frameTag f) f.length)
    tooLong f = false → frameWhole f = true →
    (check16 (f.take (f.length - 2)) = BitVec.ofNat 16 (numAt f (f.length - 2) 2) →
      (∀ i : Fin 4, s.link.places[i] = none → (∀ j : Fin 4, j < i → s.link.places[j] ≠ none) →
        exec (.requestFrameReceived b) s = .next (State.kick { s with link := { s.link with
          rx := .hunting, places := s.link.places.set i (some { request := r, stage := .waiting })
          arrivals := s.link.arrivals ++ [i] } })) ∧
      ((∀ j : Fin 4, s.link.places[j] ≠ none) → s.link.busy.length < 8 →
        exec (.requestFrameReceived b) s = .next (State.kick { s with link := { s.link with
          rx := .hunting, busy := s.link.busy ++ [{ kind := r.kind, tag := r.tag }], formed := s.link.formed ++ [.busy]
          busyCount := min 65535 (s.link.busyCount + 1) } })) ∧
      ((∀ j : Fin 4, s.link.places[j] ≠ none) → 8 ≤ s.link.busy.length →
        exec (.requestFrameReceived b) s = .next (State.kick { s with
          node := event .overrun
          link := { s.link with
            rx := .hunting, rejects := { s.link.rejects with overrun := min 65535 (s.link.rejects.overrun + 1) } } }))) ∧
    (check16 (f.take (f.length - 2)) ≠ BitVec.ofNat 16 (numAt f (f.length - 2) 2) →
      exec (.requestFrameReceived b) s = .next (State.kick { s with
        node := event .badCheck
        link := { s.link with
          rx := .hunting, rejects := { s.link.rejects with badCheck := min 65535 (s.link.rejects.badCheck + 1) } } }))

/-- R188: hunting, a start marker begins a frame, any other byte is discarded and counted as stray, and a byte with a byte error
is discarded; in a frame whose gap has not passed, a byte that completes neither a length above 1,024 nor the frame is taken
into it. A length field above 1,024, a gap of 11 ticks and a byte error each end the frame: it is discarded, counted by its
cause and reported with its kind and tag, when all of bytes 3 to 5 had arrived, and the number of bytes taken; the receiver
hunts again. That a bad byte is not among the bytes taken is the model's choice, log 22. -/
def Obligations.ReceivedBytesAreTakenOrRejected : Prop :=
  (∀ (s : State) (b : Byte), s.awake →
    (s.link.rx = .hunting →
      exec (.linkByteReceived b true) s = .next s.kick ∧
      (b = 0x7E#8 → exec (.linkByteReceived b false) s =
        .next (State.kick { s with link := { s.link with rx := .frame [] 0 } })) ∧
      (b ≠ 0x7E#8 → exec (.linkByteReceived b false) s =
        .next (State.kick { s with link := { s.link with stray := min 65535 (s.link.stray + 1) } }))) ∧
    (∀ bs gap, s.link.rx = .frame bs gap → gap < 11 → tooLong (bs ++ [b]) = false → frameWhole (bs ++ [b]) = false →
      exec (.linkByteReceived b false) s = .next (State.kick { s with link := { s.link with rx := .frame (bs ++ [b]) 0 } }))) ∧
  ∀ (s : State) (bs : List Byte) (gap : Nat), s.awake → s.link.rx = .frame bs gap →
    let event (cause : RejectCause) (f : List Byte) := s.node.report (.frameReject cause
      (if 5 ≤ f.length then f[2]? else none) (if 5 ≤ f.length then some (BitVec.ofNat 16 (numAt f 3 2)) else none) f.length)
    (∀ b, gap < 11 → bs.length = 1 → 1024 < numAt (bs ++ [b]) 0 2 →
      exec (.frameTooLong b) s = .next (State.kick { s with
        node := event .tooLong (bs ++ [b])
        link := { s.link with
          rx := .hunting, rejects := { s.link.rejects with tooLong := min 65535 (s.link.rejects.tooLong + 1) } } })) ∧
    (11 ≤ gap → exec .frameGap s = .next (State.kick { s with
      node := event .gap bs
      link := { s.link with
        rx := .hunting, rejects := { s.link.rejects with gap := min 65535 (s.link.rejects.gap + 1) } } })) ∧
    (gap < 11 → exec .frameByteError s = .next (State.kick { s with
      node := event .byteError bs
      link := { s.link with
        rx := .hunting, rejects := { s.link.rejects with byteError := min 65535 (s.link.rejects.byteError + 1) } } }))

/-- R198 and the status rules of the blocks (R26, R43, R62, R86, R90, R134, R153, R171, R184): a status request whose fields are
in range is answered OK with its items, in the layouts of R201, and changes nothing but its place. The layouts are named by the
model's field functions; the order of the items, which chapter 11 leaves open, and their open sizes are the model's choice, log
18 (the forwarded reach of PATH_STATUS log 49, the unit of a call timer log 52, the isolated flag of CALL_STATUS log 64, the
place and the element of PORT_STATUS logs 67, 68 and 80, the cycle of STATION_READ logs 23 and 70, the codes of an open record
and of a ready level log 82, the groups without a count log 83). -/
def Obligations.StatusRequestsAnswerAndChangeNothing : Prop :=
  ∀ (s : State) (i : Fin 4) (r : Request), s.asks i r →
    let n := s.node
    let b := r.body
    let answers (c : Instr) (fields : List Byte) : Prop := exec c s = .next (s.replied i r n (okBytes fields))
    (r.kind = 0x01#8 → b = [] → answers .identify ([0x45#8, 0x09#8, 0x70#8, 0x01#8] ++ be1 n.op.code
      ++ be1 s.link.rate.code ++ be1 n.cfg.nodeNumber)) ∧
    (r.kind = 0x05#8 → b = [] → answers .nodeStatus (nodeStatusFields s.link n)) ∧
    (∀ l, r.kind = 0x09#8 → b.length = 1 → lineOf (f1 b 0) = some l →
      answers .lineStatus (lineStatusFields (n.line.get l))) ∧
    (r.kind = 0x0B#8 → b = [] → answers .pathStatus (pathStatusFields n)) ∧
    (r.kind = 0x0D#8 → b.length = 3 → 1 ≤ f1 b 2 → f1 b 2 ≤ 128 → f2 b 0 + f1 b 2 ≤ 936 →
      answers .mapStatus (mapStatusFields n (f2 b 0) (f1 b 2))) ∧
    (∀ v, r.kind = 0x11#8 → b.length = 2 → f1 b 0 = 0 → f1 b 1 ≤ 63 → n.svc (f1 b 1) = some v →
      answers .serviceStatusOne (serviceFields n v)) ∧
    (r.kind = 0x11#8 → b.length = 2 → b[0]? = some 0x01#8 → answers .serviceStatusSummary (summaryFields n)) ∧
    (r.kind = 0x12#8 → b = [] →
      answers .shedList (codeBool n.au.economy ++ listed n.shedServices shedEntry)) ∧
    (r.kind = 0x16#8 → b.length = 1 → f1 b 0 ≤ 7 → answers .callStatus (callStatusFields n (fin8 (f1 b 0)))) ∧
    (r.kind = 0x19#8 → b.length = 2 → f1 b 0 = 0 → f1 b 1 ≤ 3 →
      answers .portStatusPort (portFields n (fin4 (f1 b 1)))) ∧
    (∀ v w, r.kind = 0x19#8 → b.length = 2 → b[0]? = some 0x01#8 → f1 b 1 ≤ 55 → n.svc (f1 b 1) = some v →
      n.peOf (f1 b 1) = some w → answers .portStatusService (peServiceFields v w)) ∧
    (∀ x, r.kind = 0x1C#8 → b.length = 2 → f1 b 0 = 0 → f1 b 1 ≤ 3 → n.xfer (fin4 (f1 b 1)) = some x →
      answers .transferStatusOne (transferFields x)) ∧
    (r.kind = 0x1C#8 → b.length = 2 → b[0]? = some 0x01#8 →
      answers .transferStatusAll (be1 n.freeBlocks.length ++ be4 n.te.malformed ++ be4 n.te.unmatched
        ++ n.te.recs.toList.flatMap transferSummary)) ∧
    (r.kind = 0x1F#8 → b.length = 1 → f1 b 0 ≤ 7 → answers .stationRead (stationFields n (fin8 (f1 b 0))))

/-- R195: an accepted START makes the part RUNNING with run time 0, clears the node conflicts, takes every line whose enabled
setting is yes to SEEKING, starts sampling on every enabled phone port and the counting interval, and polling if it is enabled;
the paths and the timing source stay. It is refused in RUNNING and without a node number, changing nothing. -/
def Obligations.StartTakesThePartToRunning : Prop :=
  ∀ (s : State) (i : Fin 4) (r : Request), s.asks i r → r.kind = 0x03#8 → r.body = [] →
    (s.node.op = .config → s.node.cfg.nodeNumber ≠ 0 → ∃ m : Node,
      exec .start s = .next (s.replied i r m (okBytes (be1 s.node.cfg.nodeNumber
        ++ be1 (s.node.line.u.enabled.toNat + s.node.line.d.enabled.toNat)))) ∧
      m.op = .running ∧ m.runTime = 0 ∧ m.cs.conflicts = 0 ∧ m.cs.conflictAge = none ∧
      (∀ l, m.line.get l = if (s.node.line.get l).enabled
        then { s.node.line.get l with state := .seeking, goodMarkers := 0 } else s.node.line.get l) ∧
      (∀ p, (m.phone p).set = (s.node.phone p).set ∧
        ((s.node.phone p).set.enabled = true → (m.phone p).sampling = true ∧ (m.phone p).hook = .onHook)) ∧
      m.pe.interval = some 0 ∧ (s.node.pc.enabled = true → m.pc.running = true ∧ m.pc.startWait = true) ∧
      m.path = s.node.path ∧ m.timing = s.node.timing ∧ m.sig = s.node.sig ∧ m.cfg = s.node.cfg ∧ m.clk = s.node.clk ∧
      m.pins = s.node.pins) ∧
    (s.node.op = .running → exec .start s = .next (s.replied i r s.node (refusedBytes 0x06#8))) ∧
    (s.node.op = .config → s.node.cfg.nodeNumber = 0 →
      exec .start s = .next (s.replied i r s.node (refusedBytes 0x07#8)))

/-- R190, R201: a request of kind 00h or of a kind above 1Fh is refused with UNKNOWN_KIND. R194: the four requests that need
RUNNING are refused with NOT_STARTED in CONFIG, whatever their bodies: each row of CALL_CONTROL and PATH_FORCE, MARGIN_SCAN and
TRANSFER_OPEN. Neither refusal changes the node. R191: whatever command takes a WAITING request, if the reply's status is not OK
then the node is as it was. -/
def Obligations.RefusedRequestsChangeNothing : Prop :=
  (∀ (s : State) (i : Fin 4) (r : Request), s.asks i r →
    (r.kind = 0x00#8 ∨ 32 ≤ r.kind.toNat → exec .unknownKindRequest s = .next (s.replied i r s.node (refusedBytes 0x03#8))) ∧
    (s.node.op = .config →
      let refused (c : Instr) : Prop := exec c s = .next (s.replied i r s.node (refusedBytes 0x05#8))
      (r.kind = 0x08#8 → refused .marginScan) ∧ (r.kind = 0x1A#8 → refused .transferOpen) ∧
      (r.kind = 0x0A#8 → (r.body[1]? = some 0x01#8 → refused .pathForceClear) ∧
        (r.body[1]? ≠ some 0x01#8 → refused .pathForceSet)) ∧
      (r.kind = 0x15#8 → (r.body[1]? = some 0x00#8 → refused .callControlAnswer) ∧
        (r.body[1]? = some 0x01#8 → refused .callControlHold) ∧ (r.body[1]? = some 0x02#8 → refused .callControlUnhold) ∧
        (r.body[1]? = some 0x03#8 → refused .callControlClear) ∧ (r.body[1]? = some 0x04#8 → refused .callControlRing)))) ∧
  ∀ (c : Instr) (s t : State) (i : Fin 4) (r : Request) (reply : List Byte) (after : After), s.asks i r →
    s.link.stageOf i = some .waiting → exec c s = .next t →
    t.link.stageOf i = some (.answered reply after) ∨ t.link.stageOf i = some (.sending reply after) →
    reply.head? ≠ some 0x00#8 → t.node = s.node


/-! ## Line ports and paths -/

/-- R30, R41: an accepted SET_NODE replaces the settings (a node number of 0 leaves the number), forms reach-present again with
the new hop limit and, when the preference is another than before, reverts the timing source as the new one asks; the lines, the
clean times and the blocks behind them stay. A new number while RUNNING is refused with WRONG_STATE. -/
def Obligations.SetNodeReplacesTheSettings : Prop :=
  ∀ (s : State) (i : Fin 4) (r : Request) (pref : TimingPref) (mode : Rounding), s.asks i r → r.kind = 0x06#8 →
    let n := s.node
    let b := r.body
    b.length = 9 → f1 b 0 ≤ 250 → 1 ≤ f1 b 1 → f1 b 1 ≤ 250 → f2 b 2 ≤ 10000 → f2 b 2 % 10 = 0 → 10 ≤ f2 b 4 →
    f2 b 4 ≤ 900 → prefOf (f1 b 6) = some pref → roundingOf (f1 b 7) = some mode → 4 ≤ f1 b 8 → f1 b 8 ≤ 64 →
    (n.op = .config ∨ f1 b 0 = 0 ∨ f1 b 0 = n.cfg.nodeNumber →
      ∃ m : Node, exec .setNode s = .next (s.replied i r m (okBytes [])) ∧
        m.cfg = ⟨if f1 b 0 = 0 then n.cfg.nodeNumber else f1 b 0, f1 b 1, f2 b 2, f2 b 4, pref, mode, f1 b 8⟩ ∧
        (∀ x, (m.pathOf x).reach = (n.line.get x.line).reaches (f1 b 1)) ∧
        m.timing = (if pref ≠ n.cfg.pref ∧ n.timing.source = lineSource pref.line.other ∧
            (n.line.get pref.line).qualifies = true ∧ 40000 ≤ n.timing.clean.get pref.line then { n.timing with source := lineSource pref.line } else n.timing) ∧
        m.line = n.line ∧ m.pins = n.pins ∧ m.clk = n.clk ∧ m.op = n.op ∧ m.runTime = n.runTime ∧ m.cs = n.cs ∧
        m.au = n.au ∧ m.cc = n.cc ∧ m.pe = n.pe ∧ m.te = n.te ∧ m.pc = n.pc) ∧
    (n.op = .running → f1 b 0 ≠ 0 → f1 b 0 ≠ n.cfg.nodeNumber →
      exec .setNode s = .next (s.replied i r n (refusedBytes 0x08#8)))

/-- R5, R6: an accepted LINE_SET replaces the settings of its port; in CONFIG that is all, in RUNNING a DISABLED port set to yes
enters SEEKING and a port set to no enters DISABLED, giving up its confirmed copy, its training and its scan (R9, R25), its hold
count (R50) and its notices under way (R59, R60), a forwarded one counted as lost and its own one going back to the queue; an SF
threshold not above the SD threshold is refused with BAD_FIELD. The other line, the admission unit, the calls and the packet,
transfer and poll blocks stay. That a changed interval runs for 240,000 frame starts a minute (log 12) from the event that forms the
reply (log 86), and that a DISABLED port set to no again is left without an event (log 43), is the model's choice. -/
def Obligations.LineSetConfiguresItsPort : Prop :=
  ∀ (s : State) (i : Fin 4) (r : Request) (l : Line) (on : Bool), s.asks i r → r.kind = 0x07#8 →
    let n := s.node
    let b := r.body
    let p := n.line.get l
    let q : LinePort := { p with
      enabled := on, sdThr := f2 b 2, sfThr := f2 b 4, dwell := f2 b 6, allowance := f1 b 8, minutes := f2 b 9
      periodic := if p.state = .up ∧ f2 b 9 ≠ p.minutes then (if f2 b 9 = 0 then none else some (240000 * f2 b 9))
        else p.periodic }
    b.length = 11 → lineOf (f1 b 0) = some l → boolOf (f1 b 1) = some on → 1 ≤ f2 b 2 → f2 b 2 ≤ 4000 → 2 ≤ f2 b 4 →
    f2 b 4 ≤ 4000 → 100 ≤ f2 b 6 → f2 b 6 ≤ 4000 → f2 b 9 ≤ 1440 →
    (f2 b 2 < f2 b 4 →
      (n.op = .config ∨ (on = true ∧ p.state ≠ .disabled) ∨ (on = false ∧ p.state = .disabled) →
        exec .lineSet s = .next (s.replied i r (n.setLine l q) (okBytes []))) ∧
      (n.op = .running → on = true → p.state = .disabled →
        exec .lineSet s = .next (s.replied i r
          (((n.setLine l { q with state := .seeking, goodMarkers := 0 }).modSwitch l fun w =>
            { w with hold := 0, newest := none, arrived := 0 }).report (.lineEvent l .disabled .seeking .enabled p.sd p.sf))
          (okBytes []))) ∧
      (n.op = .running → on = false → p.state ≠ .disabled →
        ∃ m : Node, exec .lineSet s = .next (s.replied i r m (okBytes [])) ∧
          m.line.get l = { q with
            state := .disabled, confirmed := none, pendingFrame := none, trained := none, rxTrained := false, request := none
            training := .none, goodMarkers := 0, wrongMarkers := 0, scan := none, result := none, win := {}, sd := false
            sf := false, periodic := none, txCheck := none } ∧
          m.line.get l.other = n.line.get l.other ∧ (m.pathOf l.side).reach = false ∧
          (m.cs.line.get l).forward = none ∧ (m.cs.line.get l).sending = none ∧ (m.cs.line.get l).hold = 0 ∧
          (let w := n.cs.line.get l
           let far := n.cs.line.get l.other
           (m.cs.line.get l.other).lost = (if w.forward.isSome then min 65535 (far.lost + 1) else far.lost) ∧
           (w.sending = none → (m.cs.line.get l).waiting = w.waiting) ∧
           (∀ x, w.sending = some x → (m.cs.line.get l).waiting =
             if (∃ y ∈ w.waiting, y.id = x.notice.id) then w.waiting else x.notice :: w.waiting)) ∧
          m.pins = n.pins ∧ m.clk = n.clk ∧ m.op = n.op ∧ m.runTime = n.runTime ∧ m.cfg = n.cfg ∧ m.au = n.au ∧
          m.cc = n.cc ∧ m.pe = n.pe ∧ m.te = n.te ∧ m.pc = n.pc ∧ m.cs.live = n.cs.live ∧ m.cs.staging = n.cs.staging)) ∧
    (f2 b 4 ≤ f2 b 2 → exec .lineSet s = .next (s.replied i r n (badFieldBytes 3)))

/-- R22, R23: an accepted MARGIN_SCAN starts a full scan with the port's dwell and allowance on an UP line that runs none; it is
refused with WRONG_STATE on a line not UP, with BUSY while a scan runs. The elapsed periodic interval starts a periodic scan
unless one runs, and counts again. R20, R24, R17: when the dwell at a position has been reached, a full scan moves on as the
measurement says, or stores and reports its result; a quick measurement of the training search moves on, or scores its preset
and turns to the next. R18, R19: the measurement of preset 10 ends the search: failed, when every width is 0, and otherwise with
the preset chosen, into UP when the neighbour's receive-trained flag is confirmed. That a command that comes before its position
or period is due does nothing (log 1), and that a minute is 240,000 frame starts (log 12), is the model's choice. -/
def Obligations.ScansStartAndMoveOnByPosition : Prop :=
  ∀ (s : State) (l : Line), s.awake →
    let n := s.node
    let p := n.line.get l
    let started (o : Origin) : Scan :=
      { origin := o, meas := { dwell := p.dwell, allowance := p.allowance, position := 0, frames := 0, errors := 0,
                               measured := 0, neg := {}, pos := {} } }
    (∀ i r, s.asks i r → r.kind = 0x08#8 → n.op = .running → r.body.length = 1 → lineOf (f1 r.body 0) = some l →
      (p.state = .up → p.scan = none → exec .marginScan s =
        .next (s.replied i r (n.setLine l { p with scan := some (started .requested) })
          (okBytes (be2 p.dwell ++ be1 p.allowance)))) ∧
      (p.state ≠ .up → exec .marginScan s = .next (s.replied i r n (refusedBytes 0x08#8))) ∧
      (p.state = .up → p.scan.isSome = true → exec .marginScan s = .next (s.replied i r n (refusedBytes 0x01#8)))) ∧
    (p.periodic = some 0 → exec (.periodicScanDue l) s = .next (s.became (n.setLine l { p with
      periodic := some (240000 * p.minutes), scan := p.scan.or (some (started .periodic)) }))) ∧
    (p.periodic ≠ some 0 → exec (.periodicScanDue l) s = .next (s.became n)) ∧
    (∀ c, p.training = .none ∨ p.training = .trained → p.scan = some c → c.meas.dwell ≤ c.meas.frames →
      (∀ m, c.meas.judge = .go m → exec (.marginPositionDone l) s =
        .next (s.became (n.setLine l { p with scan := some { c with meas := m } }))) ∧
      (∀ e, c.meas.judge = .done e →
        let res : MarginResult := ⟨e.left, e.right, e.width, e.grade, e.edgeLeft, e.edgeRight, c.meas.dwell,
          c.meas.allowance, c.origin, n.runTime⟩
        exec (.marginPositionDone l) s =
          .next (s.became ((n.setLine l { p with scan := none, result := some res }).report
            (.marginDone l e.measured res))))) ∧
    (∀ preset q widths, p.training = .search preset (.measure q) widths → q.dwell ≤ q.frames →
      (∀ m, q.judge = .go m → exec (.marginPositionDone l) s =
        .next (s.became (n.setLine l { p with training := .search preset (.measure m) widths }))) ∧
      (∀ e, q.judge = .done e → preset < 10 → exec (.marginPositionDone l) s =
        .next (s.became (n.setLine l { p with
          request := some (preset + 1), training := .search (preset + 1) .request (widths ++ [e.width]) }))) ∧
      (∀ e, q.judge = .done e → 10 ≤ preset →
        SearchEnds s l (widths ++ [e.width]) (exec (.marginPositionDone l) s))) ∧
    (∀ preset q widths, p.training = .search preset (.measure q) widths → q.frames < q.dwell →
      exec (.marginPositionDone l) s = .next (s.became n)) ∧
    (∀ c, p.training = .none ∨ p.training = .trained → p.scan = some c → c.meas.frames < c.meas.dwell →
      exec (.marginPositionDone l) s = .next (s.became n))

/-- R20: a measurement over positions that give fixed error counts comes to its end. With position 0 unclean it is FAILING, of
width 0. Otherwise each side holds its run of consecutive clean positions, at most 16, and the error count of the unclean
position that stopped it; the width is both runs and one; POOR up to 3, FAIR up to 7 and GOOD above, by the shorter run; the
positions measured are those of both runs, position 0 and the positions that stopped them. -/
def Obligations.MeasurementFindsTheMargins : Prop :=
  ∀ (err : Int → Nat) (dwell allowance : Nat),
    let start : Meas := { dwell := dwell, allowance := allowance }
    (allowance < err 0 → start.run err 1 = .done
      { left := 0, right := 0, width := 0, grade := .failing, edgeLeft := some (err 0), edgeRight := some (err 0),
        measured := 1 }) ∧
    (err 0 ≤ allowance → ∃ e, start.run err 33 = .done e ∧
      CleanRun (fun k : Nat => err (-k)) allowance e.left e.edgeLeft ∧
      CleanRun (fun k : Nat => err k) allowance e.right e.edgeRight ∧
      e.width = e.left + e.right + 1 ∧
      e.grade = (if min e.left e.right ≤ 3 then .poor else if min e.left e.right ≤ 7 then .fair else .good) ∧
      e.measured = e.width + e.edgeLeft.toList.length + e.edgeRight.toList.length)

/-- R17: 32 frames without the confirmation score the preset 0 and turn to the next; eight settle frames begin the quick
measurement of dwell 16 and allowance 0; R18: 4,000 frames of pause begin the search again at preset 0; with the eleven widths
the search ends: failed, when every width is 0, and otherwise with the preset chosen requested and the receive-trained flag set,
and R19: with the entry to UP when the neighbour's flag is confirmed. R18: the preset chosen from eleven widths is one of 0 to
10; every other is narrower, or as wide and farther from preset 5, or as wide and as far and higher. That a command that comes
before its count of frames does nothing (log 1), and that a periodic interval is 240,000 frame starts a minute (log 12), is the
model's choice. -/
def Obligations.TrainingSearchTurnsOnItsCounts : Prop :=
  (∀ widths : List Nat, widths.length = 11 →
    let c := choosePreset widths
    let far (p : Nat) : Nat := max (p - 5) (5 - p)
    c ≤ 10 ∧ ∀ p, p ≤ 10 → p ≠ c →
      widths.getD p 0 < widths.getD c 0 ∨
      (widths.getD p 0 = widths.getD c 0 ∧ (far c < far p ∨ (far c = far p ∧ c < p)))) ∧
  ∀ (s : State) (l : Line), s.awake →
    let n := s.node
    let p := n.line.get l
    let turned (t : Training) (request : Option Nat) : Node := n.setLine l { p with training := t, request := request }
    (∀ preset k widths, p.training = .search preset (.confirm k) widths →
      (k < 32 → exec (.presetConfirmTimeout l) s = .next (s.became n)) ∧
      (32 ≤ k → preset < 10 → exec (.presetConfirmTimeout l) s =
        .next (s.became (turned (.search (preset + 1) .request (widths ++ [0])) (some (preset + 1))))) ∧
      (32 ≤ k → 10 ≤ preset → SearchEnds s l (widths ++ [0]) (exec (.presetConfirmTimeout l) s))) ∧
    (∀ preset k widths, p.training = .search preset (.settle k) widths →
      (k < 8 → exec (.settleFramesEnd l) s = .next (s.became n)) ∧
      (8 ≤ k → exec (.settleFramesEnd l) s = .next (s.became
        (turned (.search preset (.measure { dwell := 16, allowance := 0 }) widths) p.request)))) ∧
    (∀ k, p.training = .pause k →
      (k < 4000 → exec (.trainingRetry l) s = .next (s.became n)) ∧
      (4000 ≤ k → exec (.trainingRetry l) s = .next (s.became (turned (.search 0 .request []) (some 0)))))

/-- R7: in SEEKING, with no trial running, a marker takes its position as the trial boundary with a count of 1. While a trial
runs, a marker at the boundary adds one to the count, the third aligning the port: it enters TRAINING with the frame as its
pending one, its payload delivered and the search at preset 0 (R17); a missing marker there sets the count to 0. A frame
elsewhere is passed over, marker or not, until it comes more than 1,920 bytes after the boundary: then the expected marker is
missing, and the search begins again at any position with that frame. That a frame at a phase already passed shows the missing
marker (log 9), and that the payload of the aligning frame is delivered (log 11), is the model's choice. R8: when a signal input
falls, a port in TRAINING or UP enters SEEKING at once and gives up its confirmed copy, its training and its scan (R9, R25), its
reach (R28) and its hold count (R50); in SEEKING the marker count becomes 0; in DISABLED the input alone changes. A return
changes the input alone. That the LINE_EVENT of a change goes before its path and timing events is the model's reading of 2.5, log
85. -/
def Obligations.AlignmentIsFoundAndLost : Prop :=
  (∀ (s : State) (l : Line) (position d : Nat) (f : LineFrame), s.awake →
    let n := s.node
    let p := n.line.get l
    let frame := Instr.lineFrameReceived l position f d
    let good := f.overhead.toList.take 4 = [0xF6#8, 0x28#8, 0x5A#8, 0xC3#8]
    let past := (position + 15360 - p.boundary) % 15360
    let searched : LinePort :=
      if good then { p with boundary := position, trialPast := 0, goodMarkers := 1 } else { p with goodMarkers := 0 }
    n.hasSignal l = true → p.state = .seeking → p.training = .none → p.scan = none → p.boundary < 15360 →
    (p.goodMarkers = 0 → exec frame s = .next (s.became (n.setLine l searched))) ∧
    (p.goodMarkers ≠ 0 → past ≠ 0 →
      exec frame s =
        .next (s.became (n.setLine l (if p.trialPast < past then { p with trialPast := past } else searched)))) ∧
    (p.goodMarkers ≠ 0 → past = 0 → ¬ good →
      exec frame s = .next (s.became (n.setLine l { p with goodMarkers := 0 }))) ∧
    (p.goodMarkers = 1 → past = 0 → good →
      exec frame s = .next (s.became (n.setLine l { p with goodMarkers := 2, trialPast := 0 }))) ∧
    (p.goodMarkers = 2 → past = 0 → good →
      ∃ m : Node, exec frame s = .next (s.became m) ∧
        m.line.get l = { p with
          state := .training, goodMarkers := 0, wrongMarkers := 0, request := some 0, training := .search 0 .request []
          pendingFrame := some ⟨f.overhead.toList, frameCheck f.overhead.toList f.cells.toList, false, false⟩ } ∧
        m.line.get l.other = n.line.get l.other ∧
        (m.cs.line.get l).newest = some f.cells.toList ∧ (m.cs.line.get l).arrived = (n.cs.line.get l).arrived + 1 ∧
        (n.report (.lineEvent l .seeking .training .aligned p.sd p.sf)).reports.queue <+: m.reports.queue ∧
        m.pins = n.pins ∧ m.clk = n.clk ∧ m.op = n.op ∧ m.runTime = n.runTime ∧ m.cfg = n.cfg ∧ m.au = n.au ∧
        m.cc = n.cc ∧ m.pe = n.pe ∧ m.te = n.te ∧ m.pc = n.pc ∧ m.cs.live = n.cs.live ∧ m.cs.staging = n.cs.staging)) ∧
  ∀ (s : State) (l : Line) (pin : SignalPin), s.awake →
    let lost := s.setPins (s.node.pins.setSignal l pin false)
    let n := lost.node
    let p := n.line.get l
    exec (.signalReturned l pin) s =
      .next (s.became { s.node with pins := s.node.pins.setSignal l pin true }) ∧
    n.hasSignal l = false ∧
    (p.state = .disabled → exec (.signalLost l pin) s = .next (s.became n)) ∧
    (p.state = .seeking → exec (.signalLost l pin) s = .next (s.became (n.setLine l { p with goodMarkers := 0 }))) ∧
    (p.state = .training ∨ p.state = .up →
      ∃ m : Node, exec (.signalLost l pin) s = .next (s.became m) ∧
        m.line.get l = { p with
          state := .seeking, confirmed := none, pendingFrame := none, trained := none, rxTrained := false, request := none
          training := .none, goodMarkers := 0, wrongMarkers := 0, scan := none, result := none, win := {}, sd := false
          sf := false, periodic := none } ∧
        m.line.get l.other = n.line.get l.other ∧ (m.pathOf l.side).reach = false ∧ (m.cs.line.get l).hold = 0 ∧
        (p.scan = none →
          (n.report (.lineEvent l p.state .seeking .signalLost false false)).reports.queue <+: m.reports.queue) ∧
        m.pins = n.pins ∧ m.clk = n.clk ∧ m.op = n.op ∧ m.runTime = n.runTime ∧ m.cfg = n.cfg ∧ m.au = n.au ∧
        m.cc = n.cc ∧ m.pe = n.pe ∧ m.te = n.te ∧ m.pc = n.pc ∧ m.cs.live = n.cs.live ∧ m.cs.staging = n.cs.staging)

/-- R8, R10, R11, R13 to R16: in UP a frame at the boundary confirms the frame before it when its check field matches that
frame's check, following its preset request and handing on its notice field, and counts it as errored when it does not, setting
SD and SF at their thresholds; the new frame is pending and its payload goes on. The first frame of a window takes the
thresholds in force from the settings. A fourth wrong marker in a row takes the port to SEEKING. Without signal no frame is
taken. That a frame elsewhere is not taken (log 9), that an errored frame counts in the window in progress when it is found (log
10), and that the transmit preset changes at the confirmation (log 47), is the model's choice. -/
def Obligations.FrameConfirmsOrFailsTheOneBefore : Prop :=
  ∀ (s : State) (l : Line) (position d : Nat) (f : LineFrame), s.awake →
    let n := s.node
    let p := n.line.get l
    let frame := Instr.lineFrameReceived l position f d
    let ov := f.overhead.toList
    let wrong := !markerGood ov
    let win : Window := if p.win.frames = 0 then { p.win with sdThr := p.sdThr, sfThr := p.sfThr } else p.win
    let taken : LinePort := { p with
      pendingFrame := some ⟨ov, frameCheck ov f.cells.toList, wrong, true⟩
      win := { win with frames := p.win.frames + 1 }
      scan := p.scan.map fun c =>
        { c with meas := { c.meas with frames := c.meas.frames + 1, errors := c.meas.errors + d } } }
    p.state = .up → p.training = .trained → p.win.frames < 4000 → (∀ c, p.scan = some c → c.meas.frames < c.meas.dwell) →
    (n.hasSignal l = false ∨ position ≠ p.boundary → exec frame s = .next (s.became n)) ∧
    (n.hasSignal l = true → position = p.boundary →
      ∃ m : Node, exec frame s = .next (s.became m) ∧ m.line.get l.other = n.line.get l.other ∧
        m.pins = n.pins ∧ m.clk = n.clk ∧ m.op = n.op ∧ m.runTime = n.runTime ∧ m.cfg = n.cfg ∧ m.au = n.au ∧
        m.cc = n.cc ∧ m.pe = n.pe ∧ m.te = n.te ∧ m.pc = n.pc ∧ m.cs.live = n.cs.live ∧ m.cs.staging = n.cs.staging ∧
        (∀ before, p.pendingFrame = some before → before.markerWrong = false → wrong = false →
          (m.cs.line.get l).newest = some f.cells.toList ∧
          (before.check = checkField ov → m.line.get l = { taken with
            wrongMarkers := 0, confirmed := some (readOverhead before.overhead)
            txPreset := (readOverhead before.overhead).request.getD p.txPreset } ∧
            (let c := (n.noticeConfirmed l ((before.overhead.drop 13).take 33)).cs
             (m.cs.line.get l.other).forward = (c.line.get l.other).forward ∧
             (m.cs.line.get l).lost = (c.line.get l).lost ∧ m.cs.conflicts = c.conflicts)) ∧
          (before.check ≠ checkField ov → before.inUp = true → m.line.get l = { taken with
            wrongMarkers := 0, win := { taken.win with errors := p.win.errors + 1 }
            sd := p.sd || decide (win.sdThr ≤ p.win.errors + 1)
            sf := p.sf || decide (win.sfThr ≤ p.win.errors + 1) })) ∧
        (wrong = true → p.wrongMarkers = 3 →
          (m.line.get l).state = .seeking ∧ (m.line.get l).confirmed = none ∧ (m.pathOf l.side).reach = false))

/-- R13 to R15: the 4,000th frame of a window ends it. SF clears when two windows in a row, this one the second, stayed below
the SD threshold in force; SD clears when the count is below half that threshold, SF being clear. Each is reported, SD_CLEAR
after SF_CLEAR (R14); that both go before the path and timing events of the cleared SF is the model's choice, log 81. So is that
ERROR_WINDOW_END does nothing before the 4,000th frame, log 1, and that the ended window's thresholds stand until the next window's
first frame, log 10. -/
def Obligations.WindowEndJudgesSdAndSf : Prop :=
  ∀ (s : State) (l : Line), s.awake →
    let n := s.node
    let p := n.line.get l
    let w := p.win
    let below := if w.errors < w.sdThr then min 2 (w.below + 1) else 0
    let sf := p.sf && !decide (below = 2)
    (p.state = .up → 4000 ≤ w.frames → ∃ m : Node, exec (.errorWindowEnd l) s = .next (s.became m) ∧
      m.line.get l = { p with
        win := { frames := 0, errors := 0, last := w.errors, below := below, sdThr := w.sdThr, sfThr := w.sfThr }
        sf := sf, sd := p.sd && (sf || decide (w.sdThr ≤ 2 * w.errors)) } ∧
      (let one := if p.sf && !sf then n.report (.lineEvent l .up .up .sfClear p.sd false) else n
       let two := if p.sd && !(sf || decide (w.sdThr ≤ 2 * w.errors))
         then one.report (.lineEvent l .up .up .sdClear false false) else one
       two.reports.queue <+: m.reports.queue) ∧
      m.line.get l.other = n.line.get l.other ∧ m.pins = n.pins ∧ m.clk = n.clk ∧ m.op = n.op ∧ m.runTime = n.runTime ∧
      m.cfg = n.cfg ∧ m.cs = n.cs ∧ m.au = n.au ∧ m.cc = n.cc ∧ m.pe = n.pe ∧ m.te = n.te ∧ m.pc = n.pc) ∧
    (p.state ≠ .up ∨ w.frames < 4000 → exec (.errorWindowEnd l) s = .next (s.became n))

/-- R34, R35, R37, R38: a hold-off timer that has run out takes its side to LOST and gives path lost; when the other side waits
to restore, that one becomes REACHABLE at once and gives path restored. A WTR timer that has run out takes its side to REACHABLE
and gives path restored. Reach that returns in HOLD_OFF cancels it; reach that fails in WAIT_RESTORE takes the side to LOST,
giving path lost. That HOLD_OFF_EXPIRED and WTR_EXPIRED do nothing before their timer has run out is the model's choice, log 1.
R36: SET sets the forced-out flag and takes a side that is not LOST to LOST, giving path lost; CLEAR clears it and takes a side
with reach to REACHABLE, giving path restored, or leaves it LOST; a flag already so changes nothing. The reply is the path state
after the request. -/
def Obligations.TimersAndForcingMoveTheirSides : Prop :=
  (∀ (s : State) (x : Side), s.awake →
    let n := s.node
    let p := n.pathOf x
    let q := n.pathOf x.other
    let given (m : Node) (gs : List PathSignal) : Prop := m.sig = ⟨n.sig.au ++ gs, n.sig.cc ++ gs, n.sig.pe ++ gs⟩
    let others (m : Node) : Prop := m.line = n.line ∧ m.timing = n.timing ∧ m.pins = n.pins ∧ m.clk = n.clk ∧ m.op = n.op ∧
      m.runTime = n.runTime ∧ m.cfg = n.cfg ∧ m.cs = n.cs ∧ m.au = n.au ∧ m.cc = n.cc ∧ m.pe = n.pe ∧ m.te = n.te ∧
      m.pc = n.pc
    (p.state = .holdOff → p.timer = 0 → ∃ m : Node, exec (.holdOffExpired x) s = .next (s.became m) ∧ others m ∧
      m.pathOf x = { p with state := .lost } ∧
      (q.state ≠ .waitRestore → m.pathOf x.other = q ∧ given m [.lost x] ∧ m.reports =
        (n.report (.pathEvent x .holdOff .lost .holdOffExpired p.reach (n.hopOf x) p.initial p.forced)).reports) ∧
      (q.state = .waitRestore →
        m.pathOf x.other = { q with state := .reachable, initial := false, timer := 0 } ∧
        given m [.lost x, .restored x.other])) ∧
    (p.state = .waitRestore → p.timer = 0 → ∃ m : Node, exec (.wtrExpired x) s = .next (s.became m) ∧ others m ∧
      m.pathOf x = { p with state := .reachable, initial := false } ∧ m.pathOf x.other = q ∧ given m [.restored x] ∧
      m.reports = (n.report (.pathEvent x .waitRestore .reachable .wtrExpired p.reach (n.hopOf x) false p.forced)).reports) ∧
    (p.state ≠ .holdOff ∨ p.timer ≠ 0 → exec (.holdOffExpired x) s = .next (s.became n)) ∧
    (p.state ≠ .waitRestore ∨ p.timer ≠ 0 → exec (.wtrExpired x) s = .next (s.became n))) ∧
  (∀ (n : Node) (x : Side),
    let p := n.pathOf x
    let now := (n.line.get x.line).reaches n.cfg.hopLimit
    let m := n.formReach x
    (p.state = .holdOff → now = true → p.reach = false →
      m.pathOf x = { p with reach := true, state := .reachable, initial := false, timer := 0 } ∧ m.sig = n.sig ∧
      m.pathOf x.other = n.pathOf x.other ∧
      m.reports = (n.report (.pathEvent x .holdOff .reachable .holdOffCancelled true (n.hopOf x) false p.forced)).reports) ∧
    (p.state = .waitRestore → now = false → p.reach = true →
      m.pathOf x = { p with reach := false, state := .lost, timer := 0 } ∧
      (n.report (.pathEvent x .waitRestore .lost .reachFailedInWtr false (n.hopOf x) p.initial p.forced)).reports.queue
        <+: m.reports.queue ∧
      PathSignal.lost x ∈ m.sig.au ∧ PathSignal.lost x ∈ m.sig.cc ∧ PathSignal.lost x ∈ m.sig.pe) ∧
    (p.state = .holdOff → now = false → p.reach = true → m = n.setPath x { p with reach := false }) ∧
    (p.state = .waitRestore → now = true → p.reach = false → m = n.setPath x { p with reach := true })) ∧
  ∀ (s : State) (i : Fin 4) (r : Request) (x : Side), s.asks i r → r.kind = 0x0A#8 → s.node.op = .running →
    r.body.length = 2 → sideOf (f1 r.body 0) = some x →
    let n := s.node
    let p := n.pathOf x
    let reply (m : Node) : List Byte := okBytes (be1 (m.pathOf x).state.code)
    let others (m : Node) : Prop := m.line = n.line ∧ m.timing = n.timing ∧ m.pins = n.pins ∧ m.clk = n.clk ∧ m.op = n.op ∧
      m.runTime = n.runTime ∧ m.cfg = n.cfg ∧ m.cs = n.cs ∧ m.au = n.au ∧ m.cc = n.cc ∧ m.pe = n.pe ∧ m.te = n.te ∧
      m.pc = n.pc
    (f1 r.body 1 = 0 → ∃ m : Node, exec .pathForceSet s = .next (s.replied i r m (reply m)) ∧ others m ∧
      (p.forced = true → m = n) ∧
      (p.forced = false → p.state = .lost →
        m.pathOf x = { p with forced := true } ∧ m.pathOf x.other = n.pathOf x.other ∧ m.sig = n.sig) ∧
      (p.forced = false → p.state ≠ .lost →
        m.pathOf x = { p with forced := true, state := .lost, timer := 0 } ∧ PathSignal.lost x ∈ m.sig.au)) ∧
    (r.body[1]? = some 0x01#8 → ∃ m : Node, exec .pathForceClear s = .next (s.replied i r m (reply m)) ∧ others m ∧
      m.pathOf x.other = n.pathOf x.other ∧
      (p.forced = false → m = n) ∧
      (p.forced = true → p.reach = false → m.pathOf x = { p with forced := false } ∧ m.sig = n.sig) ∧
      (p.forced = true → p.reach = true →
        m.pathOf x = { p with forced := false, state := .reachable, initial := false, timer := 0 } ∧
        (p.state = .lost → PathSignal.restored x ∈ m.sig.au)))

/-- R32: a side in LOST with forced-out clear, when reach-present becomes true, enters REACHABLE with its initial mark cleared
(cause INITIAL) when the mark is set, and WAIT_RESTORE with the WTR time (cause REACH_RETURNED) when it is not; while forced
out, no change moves it; reach-present that is true already does not become true. R33: a side in REACHABLE, when reach-present
becomes false, enters LOST at once when the hold-off time is 0, and else HOLD_OFF with the hold-off time, both with cause
REACH_LOST; a change of hop count that keeps reach-present true has no effect. In HOLD_OFF the side stays usable. -/
def Obligations.ReachMovesLostAndReachableSides : Prop :=
  ∀ (n : Node) (x : Side),
    let p := n.pathOf x
    let now := (n.line.get x.line).reaches n.cfg.hopLimit
    let m := n.formReach x
    let told (next : PathSide) (cause : PathCause) : Prop := m.pathOf x = next ∧
      (n.report (.pathEvent x p.state next.state cause next.reach (n.hopOf x) next.initial next.forced)).reports.queue
        <+: m.reports.queue
    (now = p.reach → m = n) ∧
    (p.state = .lost → now ≠ p.reach → now = false ∨ p.forced = true →
      m = n.setPath x { p with reach := now }) ∧
    (p.state = .lost → now = true → p.reach = false → p.forced = false →
      (p.initial = true → told { p with reach := true, state := .reachable, initial := false, timer := 0 } .initial ∧
        m.sig = ⟨n.sig.au ++ [.restored x], n.sig.cc ++ [.restored x], n.sig.pe ++ [.restored x]⟩) ∧
      (p.initial = false →
        told { p with reach := true, state := .waitRestore, timer := 4000 * n.cfg.wtr } .reachReturned ∧ m.sig = n.sig)) ∧
    (p.state = .reachable → now = false → p.reach = true →
      (n.cfg.holdOff = 0 → told { p with reach := false, state := .lost, timer := 0 } .reachLost ∧
        PathSignal.lost x ∈ m.sig.au ∧ PathSignal.lost x ∈ m.sig.cc ∧ PathSignal.lost x ∈ m.sig.pe) ∧
      (n.cfg.holdOff ≠ 0 →
        told { p with reach := false, state := .holdOff, timer := 4 * n.cfg.holdOff } .reachLost ∧ m.sig = n.sig ∧
        m.usable x = true)) ∧
    (m.cfg = n.cfg ∧ m.line = n.line ∧ m.au = n.au ∧ m.cc = n.cc ∧ m.pe = n.pe ∧ m.timing = n.timing ∧ m.cs = n.cs)

/-- R40 to R42: the source reverts to the preferred line when it is the less preferred one and the preferred line, qualifying,
has been clean for 40,000 frames; that TIMING_REVERT does nothing otherwise is the model's choice, log 1. A change on a line
keeps a qualifying source; a source that has ceased to qualify gives way to the other line if that qualifies, else to LOCAL. -/
def Obligations.TimingFollowsTheQualifyingLine : Prop :=
  ∀ s : State, s.awake →
    let n := s.node
    let pref := n.cfg.pref.line
    let clean := n.timing.clean
    let switched (next : TimingSource) (c : TimingCause) : Node :=
      ({ n with timing := { n.timing with source := next } } : Node).report (.timingEvent n.timing.source next c clean.u clean.d)
    let reverts := n.timing.source = lineSource pref.other ∧ (n.line.get pref).qualifies = true ∧ 40000 ≤ clean.get pref
    (reverts → exec .timingRevert s = .next (s.became (switched (lineSource pref) .reverted))) ∧
    (¬ reverts → exec .timingRevert s = .next (s.became n)) ∧
    (∀ l, n.timing.source = lineSource l →
      ((n.line.get l).qualifies = true → n.selectTiming = n) ∧
      ((n.line.get l).qualifies = false → (n.line.get l.other).qualifies = true →
        n.selectTiming = switched (lineSource l.other) .sourceFailed) ∧
      ((n.line.get l).qualifies = false → (n.line.get l.other).qualifies = false →
        n.selectTiming = switched .local .sourceFailed)) ∧
    (n.timing.source = .local →
      ((n.line.get pref).qualifies = true → n.selectTiming = switched (lineSource pref) .lineQualified) ∧
      ((n.line.get pref).qualifies = false → (n.line.get pref.other).qualifies = true →
        n.selectTiming = switched (lineSource pref.other) .lineQualified) ∧
      ((n.line.get .u).qualifies = false → (n.line.get .d).qualifies = false → n.selectTiming = n))


/-! ## The cell switch -/

/-- R44, R186, R1 to R3: a frame start sets the frame count one up, at the first one leaves it at 0, and every fourth makes a
tick due; every line not DISABLED begins a frame whose overhead opens with the marker, the node number and the frame count and
whose check is kept for its next frame, a DISABLED line sends none; with nothing due before it, path timers and clean times
count the frame and the line states stay. R116, R117: on the voice bus a port enabled in RUNNING takes the cell received, and
sends the cell dropped from its selected side while its call is OPEN or ANSWERED, else idle fill; any other port sends idle fill
with tone 00h and discards what it receives. -/
def Obligations.FrameStartCountsAndBeginsFrames : Prop :=
  ∀ (s : State) (voice : Vector CellVal 8), s.awake →
    let c := s.node.clk
    ∃ t : State, exec (.frameStart voice) s = .next t ∧ t.pending = s.pending ∧
      t.node.clk = { frame := if c.started then c.frame + 1 else c.frame, started := true
                     phase := if c.phase = 3 then 0 else c.phase + 1, tickDue := decide (c.phase = 3) } ∧
      t.node.op = s.node.op ∧ t.node.cfg = s.node.cfg ∧ t.node.pins = s.node.pins ∧
      (∀ l, let p := t.node.line.get l
        (p.state = .disabled → p.txFrame = none) ∧
        (p.state ≠ .disabled → ∃ tx, p.txFrame = some tx ∧ p.txCheck = some (frameCheck tx.overhead tx.cells) ∧
          tx.overhead.take 7 = [0xF6#8, 0x28#8, 0x5A#8, 0xC3#8] ++ be1 s.node.cfg.nodeNumber
            ++ be2 t.node.clk.frame.toNat)) ∧
      (∀ p : Fin 8, let ph := t.node.phone p
        (t.node.op = .running ∧ ph.set.enabled = true → ph.voiceIn = voice[p] ∧
          (∀ c x, ph.call = .opened ∨ ph.call = .answered → ph.liveCell = some c → ph.selected = some x →
            ph.voiceOut = (t.node.cs.line.get x.line).cells.getD c 0xD5D5#16) ∧
          ((ph.call ≠ .opened ∧ ph.call ≠ .answered) ∨ ph.liveCell = none ∨ ph.selected = none → ph.voiceOut = 0xD5D5#16)) ∧
        (t.node.op = .config ∨ ph.set.enabled = false →
          ph.voiceIn = 0xD5D5#16 ∧ ph.voiceOut = 0xD5D5#16 ∧ ph.toneOut = 0x00#8)) ∧
      (s.settle = s →
        (∀ l, (t.node.line.get l).state = (s.node.line.get l).state ∧ t.node.timing.clean.get l =
          if (s.node.line.get l).qualifies then min 4294967295 (s.node.timing.clean.get l + 1) else 0) ∧
        (∀ x, t.node.pathOf x = { s.node.pathOf x with timer := (s.node.pathOf x).timer - 1 }) ∧
        t.node.runTime = s.node.runTime ∧ t = s.became t.node)

/-- R49 to R52: a line presents the newest payload received, skipping those before it, or repeats the last; on a failed line the
last is held for eight frame starts and then gives way to idle fill D5D5h. The frame begun on the other line carries, in each
cell not ALLOTTED, the cell presented; in an ALLOTTED cell idle fill for an idle half, the packet engine's value for a half of
an id below 56 and the call's value for one above (R116). The model's choice is: that a repeat before any payload is counted
(log 36), that skipped payloads are counted at the presentation (log 39), that LINE_HOLD_END acts before the ninth frame start
(log 3) and does nothing when that is not next (log 1), that the voice added is that of the voice bus frame before (log 27),
that a call whose service's record is not yet applied adds none (log 75). -/
def Obligations.CellsPassOrCarryTheirHalves : Prop :=
  (∀ w : SwitchLine,
    (∀ cells, w.newest = some cells → w.present false = { w with
      presented := some cells, newest := none, arrived := 0, skipped := min 65535 (w.skipped + (w.arrived - 1)) }) ∧
    (w.newest = none → w.present false = { w with repeated := min 65535 (w.repeated + 1), arrived := 0 }) ∧
    (w.hold < 8 → (w.present true).presented = w.presented ∧ (w.present true).hold = w.hold + 1) ∧
    (8 ≤ w.hold → (w.present true).cells = List.replicate 936 0xD5D5#16)) ∧
  (∀ (s : State) (l : Line), s.awake →
    let w := s.node.cs.line.get l
    let failed := (s.node.line.get l).state = .disabled ∨ (s.node.line.get l).state = .seeking
    (failed → w.hold = 8 → exec (.lineHoldEnd l) s =
      .next (s.became { s.node with cs := { s.node.cs with line := s.node.cs.line.set l { w with presented := none } } })) ∧
    (¬ failed ∨ w.hold ≠ 8 → exec (.lineHoldEnd l) s = .next (s.became s.node))) ∧
  ∀ (n : Node) (ts : List Train) (l : Line), n.cs.live.Pairwise (·.cell < ·.cell) → (n.line.get l).state ≠ .disabled →
    let src := (n.cs.line.get l.other).cells
    ∃ tx, ((n.beginFrame ts l).line.get l).txFrame = some tx ∧ tx.cells.length = src.length ∧
      ∀ c, c < src.length →
        (entryOf n.cs.live c = none → tx.cells[c]? = src[c]?) ∧
        (∀ e, entryOf n.cs.live c = some e →
          (e.owner l.side = none → tx.cells[c]? = some 0xD5D5#16) ∧
          (∀ id, e.owner l.side = some id → id < 56 → tx.cells[c]? = some (trainCell ts id l.side c)) ∧
          (∀ p : Fin 8, e.owner l.side = some (56 + p.val) →
            let ph := n.phone p
            tx.cells[c]? = some (if (ph.call = .opened ∨ ph.call = .answered) ∧ ph.liveCell = some c then ph.voiceIn
              else 0xD5D5#16)))

/-- R53, R54, R57: a half set handed over makes the one staging record of its id, last in the list, with an effective frame the
staging lead ahead, or as far ahead as the farthest record if that is farther; its notice takes the place of a waiting one of
its id, or joins the end, on both lines. R55: the head record, when the next frame start is its effective frame, leaves the
list; its id's halves are exactly its set, no other owner gains or loses one but to it, and the serving block is told. That
STAGING_APPLY acts when the NEXT frame start is the effective frame (log 3), and does nothing otherwise (log 1), is the model's
choice. -/
def Obligations.StagingRecordsAreMadeAndApplied : Prop :=
  (∀ (n : Node) (id : Nat) (cls : Machine.Class) (h : HalfSet), n.cfg.lead ≤ 65535 →
    let m := n.handHalves id cls h
    let far (e : BitVec 16) : Nat := (e - n.clk.frame).toNat
    ∃ e : BitVec 16,
      m.cs.staging = n.cs.staging.filter (·.id != id) ++ [{ id := id, cls := cls, set := h, eff := e }] ∧
      n.cfg.lead ≤ far e ∧ (∀ r ∈ n.cs.staging, far r.eff ≤ far e) ∧
      (far e = n.cfg.lead ∨ ∃ r ∈ n.cs.staging, r.eff = e) ∧
      (∀ l, let q := (n.cs.line.get l).waiting
        let notice : Notice := { id := id, cls := cls, sides := h.sides, eff := e, cells := if h.a = [] then h.b else h.a }
        (m.cs.line.get l).waiting =
          if (∃ x ∈ q, x.id = id) then q.map fun x => if x.id = id then notice else x else q ++ [notice]) ∧
      m.cs.live = n.cs.live ∧ m.au = n.au ∧ m.reports = n.reports) ∧
  ∀ s : State, s.awake →
    let n := s.node
    let next := if n.clk.started then n.clk.frame + 1 else n.clk.frame
    (n.cs.staging = [] → exec .stagingApply s = .next (s.became n)) ∧
    ∀ r rest, n.cs.staging = r :: rest →
      (r.eff ≠ next → exec .stagingApply s = .next (s.became n)) ∧
      (r.eff = next → ∃ m : Node, exec .stagingApply s = .next (s.became m) ∧
        m.cs.staging = rest.filter (·.id != r.id) ∧
        (∀ c, entryOf m.cs.live c = (entryOf n.cs.live c).map fun e => { e with
          a := if c ∈ r.set.a then some r.id else if e.a = some r.id then none else e.a
          b := if c ∈ r.set.b then some r.id else if e.b = some r.id then none else e.b }) ∧
        (∀ p : Fin 8, r.id = 56 + p.val → m.pe = n.pe ∧
          (m.phone p).liveCell = if (n.svc r.id).isSome then (if r.set.a = [] then r.set.b else r.set.a).head? else none) ∧
        (r.id < 56 → m.cc = n.cc ∧ ∀ v sv, n.peOf r.id = some v → n.svc r.id = some sv →
          ∃ w, m.peOf r.id = some w ∧ w.live = r.set ∧ w.attached = true) ∧
        m.au = n.au ∧ m.line = n.line ∧ m.path = n.path ∧ m.clk = n.clk ∧ m.cfg = n.cfg ∧ m.reports = n.reports ∧
        m.te = n.te ∧ m.pc = n.pc)

/-- R58, R59: at a frame start with nothing due before it, a transmitting line sends the field that waits to be forwarded,
unchanged; else the next fragment of its notice being sent: origin, sequence number, index, count and data length, up to 28 data
bytes, zeros; else it begins the first notice waiting, with the node number and the line's sequence number, which advances; else
the empty field. A notice leaves after its last fragment. R59, R61: a confirmed field that is not empty waits for the other line
unless that is DISABLED, one that it replaces being counted as lost on the line that received it; a field that carries this
node's number is counted and not forwarded, and reported when it is the first since START or comes 240,000 frame starts after
the last. -/
def Obligations.NoticesGoOutAndAreForwarded : Prop :=
  (∀ (s : State) (voice : Vector CellVal 8) (l : Line), s.awake → s.settle = s → (s.node.line.get l).state ≠ .disabled →
    let w := s.node.cs.line.get l
    let count (x : NoticeSending) : Nat := (x.notice.bytes.length + 27) / 28
    let field (x : NoticeSending) : List Byte :=
      let data := (x.notice.bytes.drop (28 * x.next)).take 28
      be1 x.origin ++ [x.seq] ++ be1 x.next ++ be1 (count x) ++ be1 data.length ++ data ++ List.replicate (28 - data.length) 0
    ∃ (t : State) (tx : TxFrame), exec (.frameStart voice) s = .next t ∧ (t.node.line.get l).txFrame = some tx ∧
      let q := t.node.cs.line.get l
      let sent := (tx.overhead.drop 13).take 33
      let begins (x : NoticeSending) : Prop := sent = field x ∧
        q.sending = if x.next + 1 < count x then some { x with next := x.next + 1 } else none
      q.forward = none ∧
      (∀ f, w.forward = some f → f.length = 33 →
        sent = f ∧ q.sending = w.sending ∧ q.waiting = w.waiting ∧ q.seq = w.seq) ∧
      (w.forward = none →
        (∀ x, w.sending = some x → begins x ∧ q.waiting = w.waiting ∧ q.seq = w.seq) ∧
        (∀ m rest, w.sending = none → w.waiting = m :: rest →
          begins ⟨m, s.node.cfg.nodeNumber, w.seq, 0⟩ ∧ q.waiting = rest ∧ q.seq = w.seq + 1) ∧
        (w.sending = none → w.waiting = [] →
          sent = List.replicate 33 0x00#8 ∧ q.sending = none ∧ q.waiting = [] ∧ q.seq = w.seq))) ∧
  ∀ (n : Node) (l : Line) (f : List Byte),
    let m := n.noticeConfirmed l f
    let far := n.cs.line.get l.other
    let own := n.cs.line.get l
    let origin := (f.headD 0).toNat
    (origin = 0 ∨ (origin ≠ n.cfg.nodeNumber ∧ (n.line.get l.other).state = .disabled) → m = n) ∧
    (origin ≠ 0 → origin ≠ n.cfg.nodeNumber → (n.line.get l.other).state ≠ .disabled →
      m = { n with cs := { n.cs with line := m.cs.line } } ∧ m.cs.line.get l.other = { far with forward := some f } ∧
      m.cs.line.get l = { own with lost := if far.forward.isSome then min 65535 (own.lost + 1) else own.lost }) ∧
    (origin ≠ 0 → origin = n.cfg.nodeNumber →
      let k := min 65535 (n.cs.conflicts + 1)
      let counted : Node := { n with cs := { n.cs with conflicts := k, conflictAge := some 0 } }
      (n.cs.conflictAge = none → m = counted.report (.nodeConflict l n.cfg.nodeNumber k)) ∧
      (∀ age, n.cs.conflictAge = some age →
        m = if 240000 ≤ age then counted.report (.nodeConflict l n.cfg.nodeNumber k) else counted))

/-- R46, R47: an accepted ADD leaves the cells it names allotted, a new one with no owner and idle in both live halves, and
tells how many are new; the node is the restoration pass over the node with the cells added, or the node as it was when none is
new; an accepted REMOVE takes its cells out of both maps and changes nothing else; a cell not allotted or in use refuses it, the
first such cell in list order named. -/
def Obligations.AllotmentGainsAndLosesCells : Prop :=
  ∀ (s : State) (i : Fin 4) (r : Request), s.asks i r → r.kind = 0x0C#8 →
    let n := s.node
    let b := r.body
    let cells := allotmentCells b
    b.length = 3 + 2 * f2 b 1 → 1 ≤ f2 b 1 → f2 b 1 ≤ 256 → (∀ c ∈ cells, c < 936) → TablesInOrder n →
    (f1 b 0 = 0 → ∃ allot live : List HalfEntry,
      let added := cells.dedup.filter fun c => !n.allotted c
      let fresh (c : Nat) : Option HalfEntry := some { cell := c, a := none, b := none }
      let grown : Node := { n with au := { n.au with allot := allot }, cs := { n.cs with live := live } }
      let m := if added = [] then n else grown.pass
      exec .setAllotmentAdd s = .next (s.replied i r m (okBytes (be2 added.length))) ∧
      (∀ c, entryOf allot c = if c ∈ added then fresh c else entryOf n.au.allot c) ∧
      (∀ c, entryOf live c = if c ∈ added then fresh c else entryOf n.cs.live c) ∧
      (∀ c, m.allotted c = true ↔ n.allotted c = true ∨ c ∈ cells) ∧ m.cs.live = live ∧
      m.line = n.line ∧ m.path = n.path ∧ m.cfg = n.cfg ∧ m.clk = n.clk ∧ m.op = n.op ∧ m.runTime = n.runTime) ∧
    (b[0]? = some 0x01#8 →
      ((∀ c ∈ cells, n.allotted c = true ∧ n.cellInUse c = false) → ∃ allot live : List HalfEntry,
        (∀ c, entryOf allot c = if c ∈ cells then none else entryOf n.au.allot c) ∧
        (∀ c, entryOf live c = if c ∈ cells then none else entryOf n.cs.live c) ∧
        exec .setAllotmentRemove s = .next (s.replied i r
          { n with au := { n.au with allot := allot }, cs := { n.cs with live := live } }
          (okBytes (be2 cells.dedup.length)))) ∧
      (∀ before c after, cells = before ++ c :: after → (∀ d ∈ before, n.allotted d = true ∧ n.cellInUse d = false) →
        (n.allotted c = false → exec .setAllotmentRemove s = .next (s.replied i r n (refusedBytes 0x14#8 (be2 c)))) ∧
        (n.allotted c = true → n.cellInUse c = true →
          exec .setAllotmentRemove s = .next (s.replied i r n (refusedBytes 0x13#8 (be2 c))))))


/-! ## The admission unit -/

/-- R70, R71: a grant is the rate, with 64,000 bit/s for the header cell but for class E, in cells of 64,000 bit/s: rounded
down, up, or to the nearest and at a tie to the even count; at least 1 cell for class E and 2 for the others, the clamped mark
saying that the minimum raised it; the remainder is what the whole cells leave. The granted payload rate leaves the header cell
out. -/
def Obligations.GrantsRoundTheRateToCells : Prop :=
  ∀ (cls : Machine.Class) (mode : Rounding) (rate : Nat),
    let x := if cls = .e then rate else rate + 64000
    let low := if cls = .e then 1 else 2
    let g := grantOf cls mode rate
    g.rem = x % 64000 ∧
    (∃ c, g.cells = max low c ∧ (g.clamped = true ↔ c < low) ∧
      (mode = .down → 64000 * c ≤ x ∧ x < 64000 * (c + 1)) ∧
      (mode = .up → x ≤ 64000 * c ∧ 64000 * c < x + 64000) ∧
      (mode = .nearestEven → 64000 * c ≤ x + 32000 ∧ x ≤ 64000 * c + 32000 ∧
        (64000 * c = x + 32000 ∨ x = 64000 * c + 32000 → c % 2 = 0))) ∧
    payloadRate cls g.cells = 64000 * (if cls = .e then g.cells else g.cells - 1)

/-- R73 to R75: a placement without pre-emption is feasible when enough allotted cells have each half it needs (both for DUAL,
the side's for REROUTE) unowned or its own, and the level's use stays within the ceiling; it takes as many of them as the grant:
the lowest in order LINEAR, in order SPREAD those with the fewest usable cells below them in their slot, the lowest first among
equals. The service then owns the halves of those cells and no other, and hands them to the cell switch. -/
def Obligations.PlacementTakesUsableCellsInOrder : Prop :=
  ∀ (n : Node) (v : Service) (x : Side) (g : Nat), TablesInOrder n →
    let vacant (o : Option Nat) : Bool := decide (o = none ∨ o = some v.id)
    let usable := (n.au.allot.filter fun e =>
      (decide (v.prot = .reroute ∧ x = .b) || vacant e.a) && (decide (v.prot = .reroute ∧ x = .a) || vacant e.b)).map (·.cell)
    let feasible := g ≤ usable.length ∧ n.levelUse v.level - v.halves + v.prot.halves g ≤ n.au.map.ceilingOf v.level
    let below (c : Nat) : Nat := (usable.filter fun d => decide (d / 12 = c / 12 ∧ d < c)).length
    (¬ feasible → n.plainCells v x g = none) ∧
    (feasible → ∃ cells, n.plainCells v x g = some cells ∧ cells.length = g ∧ cells.Sublist usable ∧
      (v.order = .linear → cells = usable.take g) ∧
      (v.order = .spread → ∀ c ∈ cells, ∀ d ∈ usable, d ∉ cells → below c < below d ∨ (below c = below d ∧ c < d))) ∧
    ∀ cells : List Nat,
      let m := n.takeCells v cells
      let inA := v.prot = .dual ∨ v.current = some .a
      let inB := v.prot = .dual ∨ v.current = some .b
      m.svc v.id = some { v with cells := cells } ∧ (∀ id, id ≠ v.id → m.svc id = n.svc id) ∧
      (∀ c, entryOf m.au.allot c = (entryOf n.au.allot c).map fun e => { e with
        a := if inA ∧ c ∈ cells then some v.id else if e.a = some v.id then none else e.a
        b := if inB ∧ c ∈ cells then some v.id else if e.b = some v.id then none else e.b }) ∧
      (∃ e, m.cs.staging = n.cs.staging.filter (·.id != v.id) ++
        [{ id := v.id, cls := v.cls, set := { a := if inA then cells else [], b := if inB then cells else [] }, eff := e }]) ∧
      m.cs.live = n.cs.live ∧ m.reports = n.reports

/-- R88, R91 to R94: an attempt with pre-emption that succeeds sheds some placed services, of levels that are pre-emptible and
higher in number than its own, so none of level 0, with reason PRE_EMPTED; every other record stays; and the cells taken are as
many as the grant of those then usable, each half that they need being unowned or its own, in order LINEAR the lowest. The
victims are those of R92 and R93: of the eligible services in victim order (highest level number, then highest admission order
number, then highest id) as few are taken as make enough cells available, those whose needed halves are unowned or a taken
service's; and one of them is a victim just when, with it dropped, those taken before it and the victims taken after it leave too
few. So every victim is needed: with any one of them kept, fewer cells than the grant are available. A shed service owns no
half, has no current side, takes the next shed number, and hands the cell switch an empty half set. -/
def Obligations.PreEmptionShedsOnlyEligibleServices : Prop :=
  (∀ (n m : Node) (v : Service) (x : Side) (g : Nat) (cells : List Nat), TablesInOrder n → n.svc v.id = none →
    n.preemptCells v x g = some (m, cells) →
    let vacant (o : Option Nat) : Bool := decide (o = none ∨ o = some v.id)
    let usable := (m.au.allot.filter fun e =>
      (decide (v.prot = .reroute ∧ x = .b) || vacant e.a) && (decide (v.prot = .reroute ∧ x = .a) || vacant e.b)).map (·.cell)
    cells.length = g ∧ cells.Sublist usable ∧ (v.order = .linear → cells = usable.take g) ∧
    ∀ id w, n.svc id = some w →
      m.svc id = some w ∨
      (w.state ≠ .shed ∧ v.level < w.level ∧ n.au.map.preemptible w.level = true ∧ ∃ k, m.svc id = some { w with
        state := .shed, reason := some .preEmpted, current := none, shedNo := some k, cells := [] })) ∧
  (∀ (n m : Node) (v : Service) (x : Side) (g : Nat) (cells : List Nat), TablesInOrder n → n.svc v.id = none →
    n.preemptCells v x g = some (m, cells) →
    let opened (ids : List Nat) (o : Option Nat) : Bool := o.all fun id => decide (id ∈ ids)
    let available (ids : List Nat) : Nat := (n.au.allot.filter fun e =>
      (decide (v.prot = .reroute ∧ x = .b) || opened ids e.a) && (decide (v.prot = .reroute ∧ x = .a) || opened ids e.b)).length
    let victim (id : Nat) : Bool := decide (m.svc id ≠ n.svc id)
    ∃ order taken : List Nat,
      (∀ id, id ∈ order ↔ ∃ w, n.svc id = some w ∧ w.state ≠ .shed ∧ v.level < w.level ∧
        n.au.map.preemptible w.level = true) ∧
      (order.Pairwise fun i j => ∀ w u, n.svc i = some w → n.svc j = some u →
        u.level < w.level ∨ (u.level = w.level ∧ (u.adm.getD 0 < w.adm.getD 0 ∨ (u.adm.getD 0 = w.adm.getD 0 ∧ j < i)))) ∧
      taken <+: order ∧ g ≤ available taken ∧ (∀ fewer, fewer <+: taken → fewer ≠ taken → available fewer < g) ∧
      (∀ id, id ∉ taken → victim id = false) ∧
      (∀ before id after, taken = before ++ id :: after →
        (victim id = true ↔ available (before ++ after.filter victim) < g)) ∧
      (∀ id, victim id = true → available (taken.filter fun j => victim j && decide (j ≠ id)) < g)) ∧
  (∀ map : ClassMap, map.preemptible 0 = false) ∧
  ∀ (n : Node) (v : Service) (why : ShedReason), TablesInOrder n → n.svc v.id = some v →
    let m := n.shed v why
    let k := min 4294967295 (n.au.shedCounter + 1)
    m.svc v.id = some { v with
      state := .shed, reason := some why, current := none, shedNo := some k, cells := [] } ∧
    m.au.shedCounter = k ∧ (∀ id, id ≠ v.id → m.svc id = n.svc id) ∧
    (∀ c, entryOf m.au.allot c = (entryOf n.au.allot c).map fun e => { e with
      a := if e.a = some v.id then none else e.a, b := if e.b = some v.id then none else e.b }) ∧
    (∃ r ∈ m.cs.staging, r.id = v.id ∧ r.set = { a := [], b := [] })

/-- R66, R70 to R72, R77 to R81: a DEFINE_SERVICE that passes its checks makes the record, with its grants and order numbers:
SHED by ECONOMY at level 2 and above in economy mode; SHED by PATH_LOST when a REROUTE service has no usable side; else by the
first attempt that succeeds: ACTIVE at its full grant, without or with pre-emption, or REDUCED at its floor grant, without or
with pre-emption, where the level may pre-empt; refused with NO_CAPACITY when every attempt fails and it may not wait, SHED by
NO_ROOM when it may. A check that fails gives its refusal and changes nothing. The flags of the reply are those of the grants;
that a floor grant equal to the full grant raises none (log 44), that its floor rate is kept (log 74), and which of several
wrong fields of R78's third check is named (log 73), is the model's choice. -/
def Obligations.DefinitionPlacesShedsOrRefuses : Prop :=
  ∀ (s : State) (i : Fin 4) (r : Request), s.asks i r → r.kind = 0x0F#8 → TablesInOrder s.node →
    let n := s.node
    let checks := firstRefusal (commonChecks n false r.body 22 ++ defineChecks n r.body)
    let d := definitionOf r.body
    let v := n.recordOf d
    let answered (m : Node) (w : Service) : Prop := m.svc v.id = some w ∧
      exec .defineService s = .next (s.replied i r m ({
        flags := defineFlags w (d.fullGrant v.modeUsed) (d.floorGrant v.modeUsed), fields := defineFields w } : Reply).bytes)
    let shed (m : Node) (why : ShedReason) : Prop :=
      let k := min 4294967295 (n.au.shedCounter + 1)
      answered m { v with state := .shed, reason := some why, shedNo := some k } ∧ m.au.allot = n.au.allot ∧
        m.au.shedCounter = k ∧ m.peOf v.id = some { id := v.id } ∧ m.cs = n.cs
    (∀ rep, checks = some rep → exec .defineService s = .next (s.replied i r n rep.bytes)) ∧
    (checks = none →
      (n.au.economy = true → 2 ≤ v.level → ∃ m, shed m .economy) ∧
      (n.au.economy = false ∨ v.level < 2 →
        (v.prot = .reroute → n.usable .a = false → n.usable .b = false → ∃ m, shed m .pathLost) ∧
        (∀ x, n.targetSide v = some x →
          let placed (left : Node) (st : SvcState) (cells : List Nat) : Prop := ∃ m : Node,
            let k := min 4294967295 (n.au.admCounter + 1)
            answered m { v with
              state := st, adm := some k, current := if v.prot = .dual then none else some x, cells := cells } ∧
            m.au.admCounter = k ∧ m.peOf v.id = some { id := v.id } ∧
            (∀ id, id ≠ v.id → m.svc id = left.svc id) ∧ m.cs.live = n.cs.live
          let may := n.au.map.mayPreempt v.level = true
          let fails (g : Nat) : Prop := n.plainCells v x g = none ∧ (may → n.preemptCells v x g = none)
          let placedAt (g : Nat) (st : SvcState) : Prop :=
            (∀ cells, n.plainCells v x g = some cells → placed n st cells) ∧
            (∀ left cells, n.plainCells v x g = none → may → n.preemptCells v x g = some (left, cells) → placed left st cells)
          placedAt v.full .active ∧
          (∀ f, v.floor = some f → fails v.full → placedAt f .reduced) ∧
          (n.attempts v x (v.fullAttempts ++ v.floorAttempts) = none →
            (v.wait = true → ∃ m, shed m .noRoom) ∧
            (v.wait = false → exec .defineService s = .next (s.replied i r n (refusedBytes 0x11#8)))))))

/-- R83, R95, R169: an accepted RELEASE_SERVICE removes the record and what it held. Every half that the service owned becomes
unowned, its level's use falls by their number, and an empty half set goes to the cell switch if it was placed; its queue and
packet state go, and it is the weather service no more; the open transfer of a TRANSFER service is aborted with SERVICE_GONE, its
record closed and reported before the SERVICE_EVENT of cause RELEASED; then a restoration pass runs over the node so left, after
which no half names the id. If the abort freed blocks, transfers waiting for the store resume (R162): that they do so after the
pass is the model's reading, log 58. The model's choice is also: the fields of the RELEASED report, with no current side (log 19),
and that the ABORTED report gives no delivery position (log 18). An id of 56 to 63, one above 63 and one without a record are
refused. -/
def Obligations.ReleaseRemovesTheService : Prop :=
  ∀ (s : State) (i : Fin 4) (r : Request), s.asks i r → r.kind = 0x10#8 → r.body.length = 1 →
    let n := s.node
    let id := f1 r.body 0
    let unnamed (k : Node) : Prop := ∀ e ∈ k.au.allot, e.a ≠ some id ∧ e.b ≠ some id
    (∀ v, id ≤ 55 → n.svc id = some v →
      let carried (t : Fin 4) (x : Transfer) : Prop := (∃ place quota age, v.binding = .transfer place quota age) ∧
        n.xfer t = some x ∧ x.service = id ∧ ∀ j, j < t → ∀ y, n.xfer j = some y → y.service ≠ id
      let released : ReportBody :=
        .serviceEvent id v.cls v.level v.prot (some v.state) none .released none none 0 none v.adm none
      ∃ left m : Node, exec .releaseService s = .next (s.replied i r m (okBytes [])) ∧
        (left.svc id = none ∧ (∀ j, j ≠ id → left.svc j = n.svc j) ∧ left.au.map = n.au.map ∧
          left.au.economy = n.au.economy ∧ left.au.admCounter = n.au.admCounter ∧ left.au.shedCounter = n.au.shedCounter) ∧
        (TablesInOrder n → ∀ lv, left.levelUse lv + (if v.level = lv then v.halves else 0) = n.levelUse lv) ∧
        (v.state = .shed → left.au.allot = n.au.allot ∧ left.cs = n.cs) ∧
        (v.state ≠ .shed → unnamed left ∧
          (∀ c, entryOf left.au.allot c = (entryOf n.au.allot c).map fun e => { e with
            a := if e.a = some id then none else e.a, b := if e.b = some id then none else e.b }) ∧
          left.cs.live = n.cs.live ∧ ∃ e, left.cs.staging = n.cs.staging.filter (·.id != id) ++
            [{ id := id, cls := v.cls, set := { a := [], b := [] }, eff := e }]) ∧
        (left.peOf id = none ∧ (∀ j, j ≠ id → left.peOf j = n.peOf j) ∧ left.pe.ports = n.pe.ports) ∧
        (∀ quota age, v.binding = .poll quota age → n.pc.service = some id →
          left.pc = { n.pc with service := none }) ∧
        ((∀ quota age, v.binding ≠ .poll quota age) ∨ n.pc.service ≠ some id → left.pc = n.pc) ∧
        (∀ t x, carried t x →
          left.te = { n.te with recs := n.te.recs.set t none } ∧
          left.reports = ((n.report (.transferEvent t id x.page (some x.state) .aborted .aborted none (some .serviceGone)
            x.received x.declared none 0 left.freeBlocks.length)).report released).reports ∧
          (x.blocks = [] → m = left.pass) ∧
          (x.blocks ≠ [] → StoreResumed left.pass m ∧ m.au = left.pass.au ∧ m.cs = left.pass.cs ∧ m.cc = left.pass.cc ∧
            m.pc = left.pass.pc ∧ m.te.store = left.pass.te.store)) ∧
        ((∀ t x, ¬ carried t x) →
          left.te = n.te ∧ left.reports = (n.report released).reports ∧ m = left.pass) ∧
        (v.state ≠ .shed ∨ unnamed n → unnamed m) ∧
        m.svc id = none ∧ m.peOf id = none ∧ m.au.map = n.au.map ∧ m.au.economy = n.au.economy ∧
        (∀ quota age, v.binding = .poll quota age → n.pc.service = some id → m.pc.service = none) ∧
        (v.state ≠ .shed → ∃ x ∈ m.cs.staging, x.id = id ∧ x.set = { a := [], b := [] }) ∧
        left.cc = n.cc ∧ left.line = n.line ∧ left.path = n.path ∧ left.cfg = n.cfg ∧ left.clk = n.clk ∧ left.op = n.op ∧
        left.runTime = n.runTime ∧
        m.line = n.line ∧ m.path = n.path ∧ m.cfg = n.cfg ∧ m.clk = n.clk ∧ m.op = n.op ∧ m.runTime = n.runTime) ∧
    (id ≤ 55 → n.svc id = none → exec .releaseService s = .next (s.replied i r n (refusedBytes 0x0B#8))) ∧
    (55 < id → id ≤ 63 → exec .releaseService s = .next (s.replied i r n (refusedBytes 0x09#8))) ∧
    (63 < id → exec .releaseService s = .next (s.replied i r n (badFieldBytes 0x00#8)))

/-- R68: an accepted SET_LEVELS replaces the class map; a pass runs when a ceiling is raised, else nothing else changes. A check
that fails (fields, a class in use, a ceiling below its level's use) gives its refusal and changes nothing; which of several
classes or levels a refusal names is the model's choice, log 51. -/
def Obligations.SetLevelsReplacesTheClassMap : Prop :=
  ∀ (s : State) (i : Fin 4) (r : Request), s.asks i r → r.kind = 0x0E#8 →
    let n := s.node
    let b := r.body
    let checks := firstRefusal
      (commonChecks n false b 18 ++ levelFieldChecks b ++ classInUseChecks n b ++ ceilingChecks n b)
    let map : ClassMap :=
      { t := f1 b 0, c := f1 b 1, s := f1 b 2, w := f1 b 3, ceiling := #v[f2 b 4, f2 b 6, f2 b 8, f2 b 10]
        pre := #v[f1 b 12 == 1, f1 b 13 == 1, f1 b 14 == 1], may := #v[f1 b 15 == 1, f1 b 16 == 1, f1 b 17 == 1] }
    let m : Node := { n with au := { n.au with map := map } }
    (∀ rep, checks = some rep → exec .setLevels s = .next (s.replied i r n rep.bytes)) ∧
    (checks = none →
      ((∀ lv < 4, map.ceilingOf lv ≤ n.au.map.ceilingOf lv) → exec .setLevels s = .next (s.replied i r m (okBytes []))) ∧
      ((∃ lv < 4, n.au.map.ceilingOf lv < map.ceilingOf lv) →
        exec .setLevels s = .next (s.replied i r m.pass (okBytes []))))

/-- R95 to R99: a restoration pass serves the queued calls from the head of the waiting list until one fails; then the shed list
in its order, each entry without pre-emption at its full grant or else its floor grant on its target side; then the REDUCED
services in order of level and admission order number, each at its full grant; then, in the same order, the REROUTE services
away from a REACHABLE primary side, each brought home with its present grant. Another pass follows each that brought one home,
and the last brings none. R104 to R106: ENTER sets the economy flag, and every service of levels 2 and 3 is then SHED, those of
ids below 56 that were placed by ECONOMY, whatever the pass after it does; the reply counts them, and them alone, which is the
model's choice, log 62. LEAVE clears the flag and runs a pass, the reply counting what it placed; that the passes repeated by
R99 count too, and the calls placed, is the model's choice, log 55. In the state asked for already, nothing changes. -/
def Obligations.EconomyModeKeepsHighLevelsShed : Prop :=
  (∀ n : Node, TablesInOrder n → PassRuns n n.pass n.passCounted.placed) ∧
  ∀ (s : State) (i : Fin 4) (r : Request), s.asks i r → r.kind = 0x13#8 → r.body.length = 1 → TablesInOrder s.node →
    let n := s.node
    let hit := n.au.services.filter fun v => decide (v.state ≠ .shed ∧ 2 ≤ v.level)
    let off : Node := { n with au := { n.au with economy := false } }
    (f1 r.body 0 = 0 → n.au.economy = false → ∃ m : Node,
      exec .economyEnter s = .next (s.replied i r m (okBytes (be1 1 ++ be1 hit.length))) ∧ m.au.economy = true ∧
      (∀ v ∈ m.au.services, 2 ≤ v.level → v.state = .shed) ∧
      (∀ v ∈ hit, v.id < 56 → ∃ w, m.svc v.id = some w ∧ w.reason = some .economy ∧ w.cells = [] ∧ w.level = v.level) ∧
      m.line = n.line ∧ m.path = n.path ∧ m.cfg = n.cfg ∧ m.clk = n.clk ∧ m.op = n.op ∧ m.runTime = n.runTime) ∧
    (f1 r.body 0 = 0 → n.au.economy = true →
      exec .economyEnter s = .next (s.replied i r n (okBytes [0x01#8, 0x00#8]))) ∧
    (r.body[0]? = some 0x01#8 → n.au.economy = true →
      exec .economyLeave s = .next (s.replied i r off.pass (okBytes (be1 0 ++ be1 off.passCounted.placed))) ∧
      off.pass.au.economy = false) ∧
    (r.body[0]? = some 0x01#8 → n.au.economy = false →
      exec .economyLeave s = .next (s.replied i r n (okBytes [0x00#8, 0x00#8])))

/-- R100 to R102: when the admission unit takes the path lost signal of an unusable side, no REROUTE service is left placed on
that side: each that was, of an id below 56, is on the other side or SHED, even after the pass that follows. That a signal not
given is not taken (log 1), and that of the signals of one side only the first is (log 48), is the model's choice; signals of
the two sides are taken in either order (R38). The REROUTE services on the side are the movers, in order of level and admission
order number. Each frees its halves and, where the other side is usable, takes there its full grant or else its floor grant, a
REDUCED one its floor grant alone, each without pre-emption and then, if its level may pre-empt, with it; it is then ACTIVE or
REDUCED on the other side with its admission order number kept. Where all fail, or the other side is not usable, it is SHED with
PATH_LOST. A pass follows the last mover, and nothing happens when there is none. -/
def Obligations.NoRerouteServiceStaysOnALostSide : Prop :=
  ∀ (s : State) (x : Side), s.awake → TablesInOrder s.node →
    let n := s.node
    let first := n.sig.au.find? fun g => decide (g.side = x)
    (first ≠ some (.lost x) → exec (.pathLostReroute x) s = .next (s.became n)) ∧
    (first = some (.lost x) → n.usable x = false → ∃ m : Node,
      exec (.pathLostReroute x) s = .next (s.became m) ∧ m.sig = { n.sig with au := n.sig.au.erase (.lost x) } ∧
      (∀ v ∈ m.au.services, v.prot = .reroute → v.state ≠ .shed → v.current ≠ some x) ∧
      (∀ v ∈ n.au.services, v.id < 56 → v.prot = .reroute → v.current = some x → v.state ≠ .shed → ∃ w,
        m.svc v.id = some w ∧ (w.state = .shed ∨ w.current = some x.other)) ∧
      m.line = n.line ∧ m.path = n.path ∧ m.cfg = n.cfg ∧ m.clk = n.clk ∧ m.op = n.op ∧ m.runTime = n.runTime) ∧
    (first = some (.lost x) →
      let taken : Node := { n with sig := { n.sig with au := n.sig.au.erase (.lost x) } }
      ∃ movers : List Nat,
        Listed n (fun v => v.prot = .reroute ∧ v.state ≠ .shed ∧ v.current = some x) EarlierAdmitted movers ∧
        (movers = [] → exec (.pathLostReroute x) s = .next (s.became taken)) ∧
        (movers ≠ [] → exec (.pathLostReroute x) s = .next (s.became (movers.foldl (moverServed x) taken).pass)))

/-- R103: when the admission unit takes a path restored signal, the REROUTE services placed away from that primary side are
taken in order of level, then of admission order number: each moves home with its present grant when the cells are there,
without pre-emption, reported REVERTED, and is else reported REVERT_BLOCKED; then a pass runs. That a signal not given is not
taken (log 1), and that of the signals of one side only the first is (log 48), is the model's choice; signals of the two sides
are taken in either order (R38). -/
def Obligations.RestoredPathBringsServicesHome : Prop :=
  ∀ (s : State) (x : Side), s.awake → TablesInOrder s.node →
    let first := s.node.sig.au.find? fun g => decide (g.side = x)
    let n : Node := { s.node with sig := { s.node.sig with au := s.node.sig.au.erase (.restored x) } }
    let back (m : Node) (id : Nat) : Node :=
      match m.svc id with
      | none => m
      | some v =>
        match m.plainCells v v.primary v.cells.length with
        | some cells => (m.takeCells { v with current := some v.primary } cells).svcEvent
            { v with current := some v.primary, cells := cells } (some v.state) .reverted
        | none => m.svcEvent v (some v.state) .revertBlocked
    (first ≠ some (.restored x) → exec (.pathRestoredRevert x) s = .next (s.became s.node)) ∧
    (first = some (.restored x) → ∃ away : List Nat,
      exec (.pathRestoredRevert x) s = .next (s.became (away.foldl back n).pass) ∧ away.Nodup ∧
      (∀ id, id ∈ away ↔ ∃ v, n.svc id = some v ∧ v.prot = .reroute ∧ v.state ≠ .shed ∧ v.primary = x ∧
        v.current = some x.other) ∧
      away.Pairwise fun i j => ∀ v w, n.svc i = some v → n.svc j = some w →
        v.level < w.level ∨ (v.level = w.level ∧ v.adm.getD 0 ≤ w.adm.getD 0))


/-! ## The call controller -/

/-- R112, R186, R197: a due 1 ms tick with nothing due before it advances the run time in RUNNING alone, the gap of a frame
being received, an open reply window, and every call timer and cadence; each sampling port counts the time in its level, the
samples that differ from it, and sees an accepted change due at the first such sample without the filter and at the third in a
row with it, and a hook change due when the time in the level reaches the debounce. R113, R115: an accepted change swaps the
level, measures the period that ends and starts the next from 0; a low period of the flash minimum or more and less than the
on-hook debounce counts a flash, reported in OPEN, ANSWERED and HELD. The model's choice is: that a tick not due takes the input
levels alone (log 8), that a change not due is not taken (log 1), that a hook change of the same sample goes first (log 14),
that a flash is judged with the settings at the acceptance, a PHONE_SET since the sample included (log 65). -/
def Obligations.LoopsAreSampledAndMeasured : Prop :=
  (∀ (s : State) (loops : Vector Bool 8), s.awake →
    let s1 := s.setPins { s.node.pins with loops := loops }
    let n := s.node
    (n.clk.tickDue = false → exec (.msTick loops) s = .next s1.kick) ∧
    (n.clk.tickDue = true → s1.settleTick = s1 → ∃ t : State, exec (.msTick loops) s = .next t ∧
      t.node.runTime = (if n.op = .running then n.runTime + 1 else n.runTime) ∧ t.node.clk = { n.clk with tickDue := false } ∧
      (∀ bs gap, s.link.rx = .frame bs gap → t.link.rx = .frame bs (gap + 1)) ∧
      (∀ x k limit, n.pc.txn = some x → x.phase = .waiting k limit →
        t.node.pc.txn = some { x with phase := .waiting (k + 1) limit }) ∧
      (∀ p : Fin 8,
        let ph := n.phone p
        let q := t.node.phone p
        let time := min 65535 (ph.time + 1)
        let differing := if loops[p] = ph.level then 0 else ph.differing + 1
        let accepted := loops[p] ≠ ph.level ∧ (ph.set.filter = false ∨ 3 ≤ differing)
        let confirmed := (ph.hook = .onHook ∧ ph.level = true ∧ ph.set.offDebounce ≤ time) ∨
          (ph.hook = .offHook ∧ ph.level = false ∧ ph.set.onDebounce ≤ time)
        q.timer = ph.timer.map (fun x => (x.1, x.2 - 1)) ∧
        q.cadence = ph.cadence.map (fun x => { x with elapsed := x.elapsed + 1 }) ∧ q.level = ph.level ∧
        q.hook = ph.hook ∧ q.call = ph.call ∧ q.set = ph.set ∧
        (ph.sampling = true → q.time = time ∧ q.differing = (if accepted then 0 else differing) ∧
          (q.acceptDue = true ↔ accepted) ∧ (q.hookDue = true ↔ confirmed)) ∧
        (ph.sampling = false → q.time = ph.time ∧ q.acceptDue = ph.acceptDue ∧ q.hookDue = ph.hookDue)) ∧
      t.node.line = n.line ∧ t.node.path = n.path ∧ t.node.cs = n.cs ∧ t.node.au = n.au ∧ t.node.pe = n.pe ∧
      t.node.te = n.te ∧ t.node.reports = n.reports)) ∧
  ∀ (s : State) (p : Fin 8), s.awake →
    let n := s.node
    let ph := n.phone p
    let high : Phone := { ph with
      level := true, time := 0, differing := 0, acceptDue := false, lastLow := ph.time
      saturated := decide (ph.time = 65535) }
    let flashed : Phone := { high with flashes := min 255 (ph.flashes + 1) }
    let flash := ph.set.flashMin ≤ ph.time ∧ ph.time < ph.set.onDebounce
    let told := ph.call = .opened ∨ ph.call = .answered ∨ ph.call = .held
    (ph.acceptDue = true → ph.hookDue = false → ph.level = false →
      (¬ flash → exec (.loopAcceptedRise p) s = .next (s.became (n.setPhone p high))) ∧
      (flash → ¬ told → exec (.loopAcceptedRise p) s = .next (s.became (n.setPhone p flashed))) ∧
      (flash → told → exec (.loopAcceptedRise p) s =
        .next (s.became ((n.setPhone p flashed).callEvent p ph.call .flash)))) ∧
    (ph.acceptDue = true → ph.hookDue = false → ph.level = true →
      exec (.loopAcceptedFall p) s = .next (s.became (n.setPhone p { ph with
        level := false, time := 0, differing := 0, acceptDue := false, lastHigh := ph.time
        saturated := decide (ph.time = 65535) }))) ∧
    (ph.acceptDue = true → ph.hookDue = true → ∃ m : Node,
      exec (if ph.hook = .onHook then .offHookConfirmed p else .onHookConfirmed p) s = .next (s.became m) ∧
      (ph.level = false → exec (.loopAcceptedRise p) s = exec (.loopAcceptedRise p) { s with node := m }) ∧
      (ph.level = true → exec (.loopAcceptedFall p) s = exec (.loopAcceptedFall p) { s with node := m }) ∧
      (m.phone p).hookDue = false ∧ (m.phone p).acceptDue = true ∧ (m.phone p).level = ph.level) ∧
    (ph.acceptDue = false ∨ ph.level = true → exec (.loopAcceptedRise p) s = .next (s.became n)) ∧
    (ph.acceptDue = false ∨ ph.level = false → exec (.loopAcceptedFall p) s = .next (s.became n))

/-- R114, R121 to R125, R127: a confirmed OFF_HOOK starts a caller's call on an IDLE port, opening it when its service is placed
and queueing it at the end of the waiting list when not, unless the clear-lock stands; it takes HELD and RINGING to ANSWERED. A
confirmed ON_HOOK ends the clear-lock, takes QUEUED to IDLE, and OPEN and ANSWERED to HELD when hold is requested and permitted,
else to CLEARING, and with a clear guard of 0 at once on to IDLE (R126). That a hook change not due is not taken (log 1),
and that a new call after the guard is tried in the same step (log 77), is the model's choice. -/
def Obligations.HookChangesActOnTheCall : Prop :=
  ∀ (s : State) (p : Fin 8), s.awake →
    let n := s.node
    let ph := n.phone p
    let off := n.setPhone p { ph with hook := .offHook, hookDue := false }
    let onHook : Phone := { ph with hook := .onHook, hookDue := false, clearLock := false }
    let quiet (q : Phone) : Phone := { q with cadence := none, polarity := q.set.polarity }
    let lifted := Instr.offHookConfirmed p
    let replaced := Instr.onHookConfirmed p
    (ph.hookDue = true → ph.hook = .onHook →
      (ph.call = .idle → ph.clearLock = true ∨ n.phoneOn p = false → exec lifted s = .next (s.became off)) ∧
      (ph.call = .queued ∨ ph.call = .opened ∨ ph.call = .answered ∨ ph.call = .clearing →
        exec lifted s = .next (s.became off)) ∧
      (ph.call = .held ∨ ph.call = .ringing → exec lifted s = .next (s.became ((off.setPhone p
        { quiet (off.phone p) with call := .answered, timer := none }).callEvent p ph.call
          (if ph.call = .held then .resumed else .answered)))) ∧
      (ph.call = .idle → ph.clearLock = false → n.phoneOn p = true → TablesInOrder n →
        (off.callPlacement p = none → exec lifted s = .next (s.became
          ((({ off with cc := { off.cc with waiting := n.cc.waiting ++ [p] } } : Node).setPhone p { off.phone p with
            call := .queued, origin := some .caller, start := some n.runTime, testDrive := false
            cadence := some ⟨.wait, true, 0, n.cc.common.waitPeriod, n.cc.common.waitOn⟩ }).callEvent p .idle .queued))) ∧
        (∀ m1, off.callPlacement p = some m1 → ∃ m : Node, exec lifted s = .next (s.became m) ∧
          (m.phone p).call = .opened ∧ (m.phone p).hook = .offHook ∧ (m.phone p).selected = n.pickSide ph.set.preferred ∧
          (ph.origin = none → (m.phone p).origin = some .caller) ∧ (ph.start = none → (m.phone p).start = some n.runTime) ∧
          (∃ v, m.svc (56 + p.val) = some v ∧ v.cls = .e ∧ v.level = 0 ∧ v.prot = .dual ∧ v.state = .active ∧
            v.cells.length = 1) ∧ (∀ j, j ≠ p → m.phone j = n.phone j)))) ∧
    (ph.hookDue = true → ph.hook = .offHook →
      (ph.call = .idle ∨ ph.call = .held ∨ ph.call = .ringing ∨ ph.call = .clearing →
        exec replaced s = .next (s.became (n.setPhone p onHook))) ∧
      (ph.call = .queued → exec replaced s = .next (s.became
        ((({ n with cc := { n.cc with waiting := n.cc.waiting.filter (· != p) } } : Node).setPhone p { quiet onHook with
          call := .idle, origin := none, start := none, holdRequested := false, selected := none, liveCell := none
          timer := none }).callEvent p .queued .abandoned))) ∧
      (ph.call = .opened ∨ ph.call = .answered →
        (ph.holdRequested = true → ph.set.holdPermitted = true → exec replaced s = .next (s.became
          ((n.setPhone p { onHook with
            call := .held, holdRequested := false, timer := some (.heldLimit, 60000 * n.cc.common.heldLimit) }).callEvent p
              ph.call .held))) ∧
        (ph.holdRequested = false ∨ ph.set.holdPermitted = false → n.cc.common.clearGuard ≠ 0 →
          exec replaced s = .next (s.became ((n.setPhone p { quiet onHook with
            call := .clearing, timer := some (.clearGuard, 1000 * n.cc.common.clearGuard) }).callEvent p
              ph.call .callerCleared))) ∧
        (ph.holdRequested = false ∨ ph.set.holdPermitted = false → n.cc.common.clearGuard = 0 → p ∉ n.cc.waiting →
          ∃ m : Node, exec replaced s = .next (s.became m) ∧ GuardEnded ((n.setPhone p { quiet onHook with
            call := .clearing, timer := some (.clearGuard, 0) }).callEvent p ph.call .callerCleared) m p))) ∧
    (ph.hookDue = false ∨ ph.hook = .offHook → exec lifted s = .next (s.became n)) ∧
    (ph.hookDue = false ∨ ph.hook = .onHook → exec replaced s = .next (s.became n))

/-- R124 to R126, R130, R131: a cadence turns to its off-phase at its on-time and begins a new period, with the values in force,
at its period; either edge takes the polarity set. The held limit and the ring timeout take their call to CLEARING with the
clear guard running, and with a clear guard of 0 at once on to its end; the end of the clear guard releases the call's service
and takes the call to IDLE, where a handset lifted without clear-lock on an enabled port starts a new caller's call (R121). That
a command that comes before its time does nothing (log 1), and that the new call is tried in the same step (log 77), is the
model's choice. -/
def Obligations.CallTimersAndCadencesRunOut : Prop :=
  ∀ (s : State) (p : Fin 8), s.awake →
    let n := s.node
    let ph := n.phone p
    let c := n.cc.common
    let cleared : Phone := { ph with
      call := .clearing, timer := some (.clearGuard, 1000 * c.clearGuard), cadence := none, polarity := ph.set.polarity }
    (∀ d, ph.cadence = some d →
      (d.onPhase = true → d.elapsed = d.onTime → exec (.cadenceOffPhase p) s = .next (s.became (n.setPhone p
        { ph with cadence := some { d with onPhase := false }, polarity := ph.set.polarity }))) ∧
      (d.onPhase = false → d.elapsed = d.period → exec (.cadencePeriodStart p) s = .next (s.became (n.setPhone p { ph with
        cadence := some { kind := d.kind, onPhase := true, elapsed := 0
                          period := if d.kind = .ring then c.ringPeriod else c.waitPeriod
                          onTime := if d.kind = .ring then c.ringOn else c.waitOn }
        polarity := ph.set.polarity }))) ∧
      (d.onPhase = false ∨ d.elapsed ≠ d.onTime → exec (.cadenceOffPhase p) s = .next (s.became n)) ∧
      (d.onPhase = true ∨ d.elapsed ≠ d.period → exec (.cadencePeriodStart p) s = .next (s.became n))) ∧
    (ph.timer = some (.heldLimit, 0) → c.clearGuard ≠ 0 → exec (.heldLimitExpired p) s =
      .next (s.became ((n.setPhone p cleared).callEvent p ph.call .heldLimit))) ∧
    (ph.timer = some (.ringTimeout, 0) → c.clearGuard ≠ 0 → exec (.ringTimeoutExpired p) s =
      .next (s.became ((n.setPhone p cleared).callEvent p ph.call .noAnswer))) ∧
    (ph.timer = some (.heldLimit, 0) → c.clearGuard = 0 → p ∉ n.cc.waiting → ∃ m : Node,
      exec (.heldLimitExpired p) s = .next (s.became m) ∧
      GuardEnded ((n.setPhone p cleared).callEvent p ph.call .heldLimit) m p) ∧
    (ph.timer = some (.ringTimeout, 0) → c.clearGuard = 0 → p ∉ n.cc.waiting → ∃ m : Node,
      exec (.ringTimeoutExpired p) s = .next (s.became m) ∧
      GuardEnded ((n.setPhone p cleared).callEvent p ph.call .noAnswer) m p) ∧
    (ph.timer = some (.clearGuard, 0) → p ∉ n.cc.waiting → ∃ m : Node,
      exec (.clearGuardExpired p) s = .next (s.became m) ∧ GuardEnded n m p) ∧
    (ph.timer ≠ some (.heldLimit, 0) → exec (.heldLimitExpired p) s = .next (s.became n)) ∧
    (ph.timer ≠ some (.ringTimeout, 0) → exec (.ringTimeoutExpired p) s = .next (s.became n)) ∧
    (ph.timer ≠ some (.clearGuard, 0) → exec (.clearGuardExpired p) s = .next (s.became n))

/-- R122 to R125, R127, R128: on an enabled port in RUNNING, ANSWER takes OPEN to ANSWERED; HOLD and UNHOLD set and clear the
hold-requested flag in OPEN, ANSWERED and HELD; CLEAR takes QUEUED to IDLE with the clear-lock set, and the other calls to
CLEARING with it set for a lifted handset, and with a clear guard of 0 at once on to the guard's end (R126; a new call then
tried in the same step, the model's choice, log 77); RING takes an IDLE on-hook port to RINGING with the centre's call, or is
refused with NO_CAPACITY. In any other state, and on a port that is not enabled, they are refused with WRONG_STATE. -/
def Obligations.CallControlActsInItsStates : Prop :=
  ∀ (s : State) (i : Fin 4) (r : Request) (p : Fin 8), s.asks i r → r.kind = 0x15#8 → s.node.op = .running →
    r.body.length = 2 → f1 r.body 0 = p.val →
    let n := s.node
    let ph := n.phone p
    let c := n.cc.common
    let action := f1 r.body 1
    let quiet (q : Phone) : Phone := { q with cadence := none, polarity := q.set.polarity }
    let done (cmd : Instr) (m : Node) (st : CallState) : Prop := exec cmd s = .next (s.replied i r m (okBytes (be1 st.code)))
    let wrong (cmd : Instr) : Prop := exec cmd s = .next (s.replied i r n (refusedBytes 0x08#8))
    let holdable := ph.call = .opened ∨ ph.call = .answered ∨ ph.call = .held
    let locked : Phone := { ph with clearLock := ph.clearLock || decide (ph.call = .queued ∨ ph.hook = .offHook) }
    let on := ph.set.enabled = true
    (action = 0 →
      (on → ph.call = .opened → done .callControlAnswer
        ((n.setPhone p { quiet ph with call := .answered, timer := none }).callEvent p .opened .answered) .answered) ∧
      (¬ on ∨ ph.call ≠ .opened → wrong .callControlAnswer)) ∧
    (action = 1 → (on → holdable → done .callControlHold (n.setPhone p { ph with holdRequested := true }) ph.call) ∧
      (¬ on ∨ ¬ holdable → wrong .callControlHold)) ∧
    (action = 2 → (on → holdable → done .callControlUnhold (n.setPhone p { ph with holdRequested := false }) ph.call) ∧
      (¬ on ∨ ¬ holdable → wrong .callControlUnhold)) ∧
    (action = 3 →
      (on → ph.call = .queued → done .callControlClear
        ((({ n with cc := { n.cc with waiting := n.cc.waiting.filter (· != p) } } : Node).setPhone p { quiet locked with
          call := .idle, origin := none, start := none, holdRequested := false, selected := none, liveCell := none
          timer := none }).callEvent p .queued .centreCleared) .idle) ∧
      (on → holdable ∨ ph.call = .ringing → c.clearGuard ≠ 0 → done .callControlClear
        ((n.setPhone p { quiet locked with
          call := .clearing, timer := some (.clearGuard, 1000 * c.clearGuard) }).callEvent p ph.call .centreCleared)
        .clearing) ∧
      (on → holdable ∨ ph.call = .ringing → c.clearGuard = 0 → p ∉ n.cc.waiting → ∃ m : Node,
        done .callControlClear m (m.phone p).call ∧ GuardEnded ((n.setPhone p { quiet locked with
          call := .clearing, timer := some (.clearGuard, 0) }).callEvent p ph.call .centreCleared) m p) ∧
      (¬ on ∨ ph.call = .idle ∨ ph.call = .clearing → wrong .callControlClear)) ∧
    (action = 4 →
      (on → ph.call = .idle → ph.hook = .onHook →
        (n.callPlacement p = none → exec .callControlRing s = .next (s.replied i r n (refusedBytes 0x11#8))) ∧
        (∀ m1, n.callPlacement p = some m1 → done .callControlRing
          ((m1.setPhone p { m1.phone p with
            call := .ringing, origin := some .centre, start := some n.runTime, selected := n.pickSide ph.set.preferred
            testDrive := false, timer := some (.ringTimeout, 1000 * c.ringTimeout)
            cadence := some ⟨.ring, true, 0, c.ringPeriod, c.ringOn⟩ }).callEvent p .idle .ringing) .ringing)) ∧
      (¬ on ∨ ph.call ≠ .idle ∨ ph.hook ≠ .onHook → wrong .callControlRing))

/-- R109 to R111, R131, R132: an accepted PHONE_SET of form PORT replaces the settings of its port, the filter count starting
again (also where the filter stays as it was, log 15); a polarity waits for a running ring cadence (that it does not wait for a
wait cadence is the model's choice, log 16); enabling in RUNNING begins sampling from ON_HOOK and low, disabling stops it and
ends the clear-lock and the test drive, and is refused while a call stands. Form COMMON replaces the shared settings alone.
RING_TEST sets and clears the test drive of an IDLE enabled port in RUNNING, and is refused on any other. -/
def Obligations.PhoneSettingsAndRingTest : Prop :=
  ∀ (s : State) (i : Fin 4) (r : Request) (p : Fin 8) (x : Side) (pol : Polarity), s.asks i r →
    let n := s.node
    let b := r.body
    let ph := n.phone p
    let run := decide (n.op = .running)
    let on := decide (f1 b 2 = 1)
    let set : PhoneSettings :=
      ⟨on, f2 b 3, x, f2 b 6, f2 b 8, f2 b 10, decide (f1 b 12 = 1), decide (f1 b 13 = 1), pol⟩
    let q : Phone := { ph with
      set := set, differing := 0, polarity := if ph.cadence.map (·.kind) = some .ring then ph.polarity else pol }
    (r.kind = 0x14#8 → f1 b 0 = 0 → b.length = 15 → f1 b 1 = p.val → f1 b 2 ≤ 1 → sideOf (f1 b 5) = some x →
      20 ≤ f2 b 6 → f2 b 6 ≤ 1000 → 200 ≤ f2 b 8 → f2 b 8 ≤ 5000 → 60 ≤ f2 b 10 → f2 b 10 ≤ 1000 → f1 b 12 ≤ 1 →
      f1 b 13 ≤ 1 → polarityOf (f1 b 14) = some pol → f2 b 10 < f2 b 8 →
      (run = true → on = false → ph.call ≠ .idle → exec .phoneSetPort s = .next (s.replied i r n (refusedBytes 0x08#8))) ∧
      (run = false ∨ on = true ∨ ph.call = .idle → exec .phoneSetPort s = .next (s.replied i r (n.setPhone p
        (if run && on && !ph.set.enabled then
          { q with sampling := true, level := false, hook := .onHook, time := 0, acceptDue := false, hookDue := false }
        else if run && !on && ph.set.enabled then
          { q with sampling := false, hook := .onHook, clearLock := false, testDrive := false, acceptDue := false
                   hookDue := false }
        else q)) (okBytes [])))) ∧
    (r.kind = 0x14#8 → b[0]? = some 0x01#8 → b.length = 13 → 1 ≤ f1 b 1 → f1 b 1 ≤ 60 → 10 ≤ f2 b 2 → f2 b 2 ≤ 300 →
      f1 b 4 ≤ 30 → 1000 ≤ f2 b 5 → f2 b 5 ≤ 10000 → 100 ≤ f2 b 7 → f2 b 7 + 100 ≤ f2 b 5 → 1000 ≤ f2 b 9 →
      f2 b 9 ≤ 10000 → 100 ≤ f2 b 11 → f2 b 11 + 100 ≤ f2 b 9 →
      exec .phoneSetCommon s = .next (s.replied i r { n with cc := { n.cc with
        common := ⟨f1 b 1, f2 b 2, f1 b 4, f2 b 5, f2 b 7, f2 b 9, f2 b 11⟩ } } (okBytes []))) ∧
    (r.kind = 0x17#8 → b.length = 2 → f1 b 0 = p.val →
      (∀ drive cmd, (f1 b 1 = 1 ∧ drive = true ∧ cmd = Instr.ringTestOn) ∨
          (b[1]? = some 0x00#8 ∧ drive = false ∧ cmd = Instr.ringTestOff) →
        (run = true → ph.set.enabled = true → ph.call = .idle →
          exec cmd s = .next (s.replied i r (n.setPhone p { ph with testDrive := drive }) (okBytes []))) ∧
        (run = false ∨ ph.set.enabled = false ∨ ph.call ≠ .idle →
          exec cmd s = .next (s.replied i r n (refusedBytes 0x08#8)))))

/-- R119: at every frame start the tone code of a port enabled in RUNNING follows its call: SILENT 00h in IDLE, HELD and
RINGING; in QUEUED, WAIT 02h in the on-time of the wait cadence and SILENT in the rest of its period; ISOLATED 03h in OPEN and
ANSWERED while no side is selected, otherwise RING_BACK 01h in OPEN and SILENT in ANSWERED; CLEARING 04h in CLEARING. -/
def Obligations.TonesFollowTheCallState : Prop :=
  ∀ (s : State) (voice : Vector CellVal 8), s.awake → ∃ t : State, exec (.frameStart voice) s = .next t ∧
    ∀ p : Fin 8, let ph := t.node.phone p
      t.node.op = .running → ph.set.enabled = true →
      (ph.call = .idle ∨ ph.call = .held ∨ ph.call = .ringing → ph.toneOut = 0x00#8) ∧
      (∀ c, ph.call = .queued → ph.cadence = some c → c.kind = .wait →
        ph.toneOut = if c.onPhase then 0x02#8 else 0x00#8) ∧
      (ph.call = .opened → ph.toneOut = if ph.selected = none then 0x03#8 else 0x01#8) ∧
      (ph.call = .answered → ph.toneOut = if ph.selected = none then 0x03#8 else 0x00#8) ∧
      (ph.call = .clearing → ph.toneOut = 0x04#8)

/-- R117, R118, R146, R148: a path signal taken by the call controller gives every call that holds a service the side its
service's primary side asks for, if usable, else the other, else none; taken by the packet engine it does so for every attached
DUAL service, which loses sync when its receive side changes. That a signal not given is not taken (log 1), and that of the
signals of one side only the first is (log 48), is the model's choice; signals of the two sides are taken in either order (R38).
-/
def Obligations.PathSignalsReselectReceiveSides : Prop :=
  ∀ (s : State) (g : PathSignal), s.awake →
    let n := s.node
    let pick (primary : Side) : Option Side :=
      if n.usable primary then some primary else if n.usable primary.other then some primary.other else none
    let first (l : List PathSignal) : Option PathSignal := l.find? fun h => decide (h.side = g.side)
    (first n.sig.cc ≠ some g → exec (.callReselect g) s = .next (s.became n)) ∧
    (first n.sig.pe ≠ some g → exec (.dualReceiveReselect g) s = .next (s.became n)) ∧
    (first n.sig.cc = some g → ∃ m : Node, exec (.callReselect g) s = .next (s.became m) ∧
      m.sig = { n.sig with cc := n.sig.cc.erase g } ∧
      (∀ p, m.phone p = if (n.phone p).call.holds then
        { n.phone p with selected := (n.svc (56 + p.val)).bind fun v => pick v.primary } else n.phone p) ∧
      m.line = n.line ∧ m.path = n.path ∧ m.cs = n.cs ∧ m.au = n.au ∧ m.pe = n.pe ∧ m.te = n.te ∧ m.pc = n.pc) ∧
    (first n.sig.pe = some g → ∃ m : Node, exec (.dualReceiveReselect g) s = .next (s.became m) ∧
      m.sig = { n.sig with pe := n.sig.pe.erase g } ∧ m.pe.svcs.length = n.pe.svcs.length ∧
      (∀ (k : Nat) (v : PeService), n.pe.svcs[k]? = some v → ∃ w, m.pe.svcs[k]? = some w ∧
        (∀ sv, n.svc v.id = some sv → sv.prot = .dual → v.attached = true → w.selected = pick sv.primary ∧
          (v.inSync = true → (v.live.a ≠ [] ∨ v.live.b ≠ []) → v.selected ≠ pick sv.primary →
            w.inSync = false ∧ w.gathered = [] ∧ w.counts.syncLosses = min 4294967295 (v.counts.syncLosses + 1)) ∧
          (v.selected = pick sv.primary → w = v)) ∧
        (∀ sv, n.svc v.id = some sv → sv.prot = .reroute ∨ v.attached = false → w = v)) ∧
      m.line = n.line ∧ m.path = n.path ∧ m.cs = n.cs ∧ m.au = n.au ∧ m.cc = n.cc ∧ m.te = n.te ∧ m.pc = n.pc)


/-! ## The packet engine -/

/-- R137, R139, R150, R151: on an operating port a good tributary frame joins the transmit queue of the service bound to its
channel, stamped with the run time, when the quota and the pool allow, else it is dropped and counted; unbound and wrong frames
are counted. The port begins to send the head of its receive queue at the rate set; when it has been sent it leaves the queue
and is counted, and a delivery that waited for room goes on (R167): a chunk that now fits joins the queue. A port that is not
operating takes and begins nothing; a frame partly received when the port was disabled is ignored (R136). The model's choice is:
that a frame begun before the port operated is ignored too (log 53), and that TRIBUTARY_FRAME_SENT and OUTPUT_FRAME_BEGIN do
nothing with nothing to send (log 24, log 1). -/
def Obligations.TributaryFramesEnterAndLeave : Prop :=
  ∀ (s : State) (k : Fin 4) (bs : List Byte), s.awake →
    let n := s.node
    let p := n.port k
    let operating := p.enabled = true ∧ n.op = .running
    let arrives := Instr.tributaryFrameReceived k { bytes := bs, whole := true }
    (exec (.tributaryFrameReceived k { bytes := bs, whole := false }) s = .next (s.became n)) ∧
    (¬ operating → exec arrives s = .next (s.became n) ∧ exec (.outputFrameBegin k) s = .next (s.became n)) ∧
    (operating →
      (readTributary bs = none → exec arrives s = .next (s.became (n.setPort k { p with
        counts := { p.counts with inputErrors := min 4294967295 (p.counts.inputErrors + 1) } }))) ∧
      (∀ channel data, channel ≤ 7 → 1 ≤ data.length → data.length ≤ 1536 →
        bs = ({ channel := channel, data := data } : ChannelFrame).bytes →
        (n.boundTo (8 * k.val + channel) = none → exec arrives s = .next (s.became (n.setPort k { p with
          counts := { p.counts with unbound := min 4294967295 (p.counts.unbound + 1) } }))) ∧
        (∀ id v sv, n.boundTo (8 * k.val + channel) = some id → n.peOf id = some v → n.svc id = some sv →
          let queued := (v.queue.map (·.data.length)).sum
          let buffers := (data.length + 255) / 256
          (sv.binding.quota * 1024 < queued + data.length → exec arrives s = .next (s.became (n.setPe { v with
            counts := { v.counts with quotaDrops := min 4294967295 (v.counts.quotaDrops + 1) } }))) ∧
          (queued + data.length ≤ sv.binding.quota * 1024 → n.pe.poolFree < buffers →
            exec arrives s = .next (s.became (n.setPe { v with
              counts := { v.counts with poolDrops := min 4294967295 (v.counts.poolDrops + 1) } }))) ∧
          (queued + data.length ≤ sv.binding.quota * 1024 → buffers ≤ n.pe.poolFree →
            exec arrives s = .next (s.became (n.setPe { v with
              queue := v.queue ++ [{ data := data, stamp := n.runTime }] }))))) ∧
      (∀ f rest, p.recv = f :: rest → p.sending = none →
        exec (.outputFrameBegin k) s = .next (s.became (n.setPort k { p with sending := some (p.rate, f) }))) ∧
      (p.recv = [] ∨ p.sending.isSome = true → exec (.outputFrameBegin k) s = .next (s.became n))) ∧
    (p.sending.isSome = true → (∀ t x, n.xfer t = some x → x.state = .delivering → x.currentPort ≠ some k) →
      exec (.tributaryFrameSent k) s = .next (s.became (n.setPort k { p with
        recv := p.recv.tail, sending := none
        counts := { p.counts with output := min 4294967295 (p.counts.output + 1) } }))) ∧
    (∀ f rest t x channel, p.sending.isSome = true → p.recv = f :: rest → TakesChunks n k → AloneAt n k t x channel →
      x.state = .delivering →
      let size := min x.chunk (x.declared - x.offset)
      let held := (rest.map (·.data.length)).sum
      let left := n.setPort k { p with
        recv := rest, sending := none, counts := { p.counts with output := min 4294967295 (p.counts.output + 1) } }
      0 < size →
      (8192 < held + size → exec (.tributaryFrameSent k) s = .next (s.became left)) ∧
      (held + size ≤ 8192 → ∃ m : Node, exec (.tributaryFrameSent k) s = .next (s.became m) ∧
        rest ++ [{ channel := channel, data := readPage n.te.store x.blocks x.offset size }] <+: (m.port k).recv)) ∧
    (p.sending = none → exec (.tributaryFrameSent k) s = .next (s.became n))

/-- R136: an accepted PACKET_PORT_SET replaces the port's settings; disabling cuts off the frame being sent and discards the
receive queue, counted, and is refused with PORT_IN_USE while a service is bound to the port; the port as then set makes a
transfer that delivers to it wait, or one that waits go on (R166). R152: the 4,000th frame start of a counting interval closes
it, with a PORT_EVENT when an error-type count has advanced, and the next one counts from there. That COUNTING_INTERVAL_END does
nothing before is the model's choice, log 1; so is that a service released in the interval is in no report, log 66. -/
def Obligations.PortSettingsAndCountingIntervals : Prop :=
  ∀ s : State, s.awake →
    let n := s.node
    (∀ (i : Fin 4) (r : Request) (k : Fin 4) (on used : Bool), s.asks i r → r.kind = 0x18#8 →
      let b := r.body
      let p := n.port k
      let q : PacketPort := { p with enabled := on, rate := f2 b 2, readyUsed := used }
      b.length = 5 → f1 b 0 = k.val → boolOf (f1 b 1) = some on → 100 ≤ f2 b 2 → f2 b 2 ≤ 10000 → f2 b 2 % 100 = 0 →
      boolOf (f1 b 4) = some used →
      (on = false → n.portBound k.val = true → exec .packetPortSet s = .next (s.replied i r n (refusedBytes 0x10#8))) ∧
      let set := n.setPort k (if on then q else { q with
        recv := [], sending := none
        counts := { p.counts with discards := min 4294967295 (p.counts.discards + p.recv.length) } })
      (on = true ∨ n.portBound k.val = false →
        ((∀ t x, n.xfer t = some x → x.currentPort ≠ some k) →
          exec .packetPortSet s = .next (s.replied i r set (okBytes []))) ∧
        (∀ t x channel, AloneAt n k t x channel → ∃ m : Node,
          exec .packetPortSet s = .next (s.replied i r m (okBytes [])) ∧ PortActsOn set m k t x channel))) ∧
    (∀ c, n.pe.interval = some c →
      let closed : Node := { n with pe := {
        ports := n.pe.ports.map fun p => { p with mark := p.counts }
        svcs := n.pe.svcs.map fun v => { v with mark := v.counts }, interval := some 0 } }
      let portWrong := ∃ k, let p := n.port k
        p.mark.inputErrors < p.counts.inputErrors ∨ p.mark.unbound < p.counts.unbound ∨ p.mark.discards < p.counts.discards
      let svcWrong := ∃ v ∈ n.pe.svcs, v.mark.quotaDrops < v.counts.quotaDrops ∨ v.mark.poolDrops < v.counts.poolDrops ∨
        v.mark.ageDiscards < v.counts.ageDiscards ∨ v.mark.abandoned < v.counts.abandoned ∨
        v.mark.misrouted < v.counts.misrouted ∨ v.mark.syncLosses < v.counts.syncLosses ∨
        v.mark.checkFailures < v.counts.checkFailures ∨ v.mark.unexpected < v.counts.unexpected
      (c < 4000 → exec .countingIntervalEnd s = .next (s.became n)) ∧
      (4000 ≤ c → portWrong ∨ svcWrong → exec .countingIntervalEnd s = .next (s.became
        (closed.report (.portEvent n.runTime n.pe.poolFree n.portDeltas n.svcDeltas)))) ∧
      (4000 ≤ c → ¬ portWrong → ¬ svcWrong → exec .countingIntervalEnd s = .next (s.became closed)))

/-- R142 to R149: whatever the payload size of a service's trains, the frames that stand in its transmit queue, of 1 to 1,536
bytes and with no age limit, come out of the far reassembler whole, once each and in order, after some number of trains, with no
check failure, no sync loss and nothing left in the queue; the reassembler may begin out of sync or in sync at a boundary. -/
def Obligations.TrainsCarryEveryFrameInOrder : Prop :=
  ∀ (now : BitVec 32) (size : Nat) (tx rx : PeService), 1 ≤ size → size ≤ 190 → tx.id < 56 → rx.id = tx.id → tx.placed = 0 →
    (∀ q ∈ tx.queue, 1 ≤ q.data.length ∧ q.data.length ≤ 1536) → (rx.inSync = true → rx.gathered = []) →
    ∃ k, let c := carryTrains now size k tx rx
      c.frames = tx.queue.map (·.data) ∧ c.tx.queue = [] ∧ c.tx.placed = 0 ∧
      c.rx.counts.checkFailures = rx.counts.checkFailures ∧ c.rx.counts.syncLosses = rx.counts.syncLosses ∧
      c.rx.counts.misrouted = rx.counts.misrouted

/-! ## The transfer engine -/

/-- R157, R158, R165, R166, R169: an accepted TRANSFER_OPEN opens the named record, RECEIVING when its service is placed and
SUSPENDED by SHED when it is not; TRANSFER_ABORT closes an open record, tells what had been received, and, if the record held
blocks, lets as many STORE-suspended transfers resume as blocks are free (R162), none otherwise; a state frame timer at 4,000
returns to 0 and offers a state frame when the service can carry it; a ready input that falls takes a transfer delivering to its
port to DELIVERY_WAIT, and one that returns lets it go on. An opening is accepted in RUNNING when every field is in its range,
every target port is enabled, the service is TRANSFER-bound and carries no other transfer, and the record is closed; a check
that fails gives its refusal (the position after a target out of range is log 54, the number in TRANSFER_BUSY log 69) and
changes nothing. That STATE_FRAME_TIMER does nothing before 4,000 is the model's choice, log 1. -/
def Obligations.TransfersOpenAbortReportAndWait : Prop :=
  ∀ s : State, s.awake →
    let n := s.node
    let others (m : Node) (t : Fin 4) : Prop := (∀ u, u ≠ t → m.xfer u = n.xfer u) ∧ m.te.store = n.te.store ∧
      m.line = n.line ∧ m.path = n.path ∧ m.cfg = n.cfg ∧ m.clk = n.clk ∧ m.op = n.op ∧ m.runTime = n.runTime ∧
      m.au = n.au ∧ m.cc = n.cc ∧ m.cs = n.cs ∧ m.pc = n.pc ∧ m.pe.ports = n.pe.ports
    (∀ i r rep, s.asks i r → r.kind = 0x1A#8 → firstRefusal (transferOpenChecks n r.body) = some rep →
      exec .transferOpen s = .next (s.replied i r n rep.bytes)) ∧
    (∀ i r v, s.asks i r → r.kind = 0x1A#8 →
      let b := r.body
      let t := fin4 (f1 b 0)
      n.op = .running → f1 b 0 ≤ 3 → 1 ≤ f4 b 6 → f4 b 6 ≤ 122880 → 64 ≤ f2 b 10 → f2 b 10 ≤ 1024 → 1 ≤ f1 b 12 →
      f1 b 12 ≤ 4 → b.length = 13 + 2 * f1 b 12 →
      (∀ j < f1 b 12, f1 b (13 + 2 * j) ≤ 3 ∧ f1 b (14 + 2 * j) ≤ 7 ∧ (n.port (fin4 (f1 b (13 + 2 * j)))).enabled = true) →
      f1 b 1 ≤ 55 → n.svc (f1 b 1) = some v → (∃ place quota age, v.binding = .transfer place quota age) →
      n.xfer t = none → (∀ u y, n.xfer u = some y → y.service ≠ f1 b 1) →
      let placed := v.state ≠ .shed
      ∃ (m : Node) (x : Transfer) (st : TransferState) (why : Option SuspendReason),
        exec .transferOpen s = .next (s.replied i r m (okBytes
          (be1 (f1 b 0) ++ be1 st.code ++ opt1 (why.map SuspendReason.code) ++ be1 n.freeBlocks.length))) ∧
        (placed → st = .receiving ∧ why = none) ∧ (¬ placed → st = .suspended ∧ why = some .shed) ∧
        m.xfer t = some x ∧ x.service = f1 b 1 ∧ x.page = f4 b 2 ∧ x.declared = f4 b 6 ∧ x.chunk = f2 b 10 ∧
        x.targets = (List.range (f1 b 12)).map (fun j => (fin4 (f1 b (13 + 2 * j)), f1 b (14 + 2 * j))) ∧ x.state = st ∧
        x.reason = why ∧ x.received = 0 ∧ x.reported = 0 ∧ x.blocks = [] ∧ x.timer = 0 ∧ others m t) ∧
    (∀ i r t x, s.asks i r → r.kind = 0x1B#8 → r.body.length = 1 → f1 r.body 0 = t.val → n.xfer t = some x →
      let left := n.setXfer t none
      ∃ m : Node, exec .transferAbort s = .next (s.replied i r m (okBytes
          (be4 x.received ++ opt1 (x.position.map (·.1)) ++ opt4 (x.position.map (·.2))))) ∧ m.xfer t = none ∧
        (x.blocks = [] → ∀ u, m.xfer u = left.xfer u) ∧ (x.blocks ≠ [] → StoreResumed left m) ∧
        m.te.store = n.te.store ∧ m.line = n.line ∧ m.path = n.path ∧ m.cfg = n.cfg ∧ m.clk = n.clk ∧ m.au = n.au ∧
        m.cc = n.cc ∧ m.cs = n.cs ∧ m.pc = n.pc ∧ m.pe.ports = n.pe.ports) ∧
    (∀ i r t, s.asks i r → r.kind = 0x1B#8 → r.body.length = 1 → f1 r.body 0 = (t : Fin 4).val → n.xfer t = none →
      exec .transferAbort s = .next (s.replied i r n (refusedBytes 0x16#8))) ∧
    (∀ t x, n.xfer t = some x →
      (x.timer ≠ 4000 → exec (.stateFrameTimer t) s = .next (s.became n)) ∧
      (x.timer = 4000 → ∃ m y, exec (.stateFrameTimer t) s = .next (s.became m) ∧ m.xfer t = some y ∧ y.timer = 0 ∧
        y.state = x.state ∧ y.received = x.received ∧ y.blocks = x.blocks ∧ others m t ∧
        (n.carries x.service = false → y = { x with timer := 0 }) ∧
        (n.carries x.service = true →
          (y.reported = x.received ∧ y.counts.framesSent = min 4294967295 (x.counts.framesSent + 1)) ∨
          (y.reported = x.reported ∧ y.counts.framesDropped = min 4294967295 (x.counts.framesDropped + 1))))) ∧
    (∀ (k : Fin 4) (level : Bool),
      let pins := { n.pins with ready := n.pins.ready.set k level }
      ((∀ t x, n.xfer t = some x → x.currentPort ≠ some k) →
        exec (.readyInputChange k level) s = .next (s.became { n with pins := pins })) ∧
      (∀ t x, n.xfer t = some x → x.currentPort = some k → x.state = .delivering → level = false →
        (n.port k).readyUsed = true → ∃ m y, exec (.readyInputChange k level) s = .next (s.became m) ∧ m.pins = pins ∧
          m.xfer t = some y ∧ y.state = .deliveryWait ∧ y.target = x.target ∧ y.offset = x.offset ∧ y.blocks = x.blocks) ∧
      (∀ t x channel, AloneAt n k t x channel → ∃ m : Node, exec (.readyInputChange k level) s = .next (s.became m) ∧
        PortActsOn { n with pins := pins } m k t x channel))

/-- R155, R156, R159 to R161: the bytes written into a page's blocks read back as written, and every other byte of the bulk
store reads as before. A segment at the bytes received, within the page, is appended and counted when its block is there, the
lowest-numbered free block joining the list when it needs one; the segment that completes the page begins the delivery at the
first target, or waits for its port (R166); one that needs a block when none is free suspends the transfer; one below them is
counted as a duplicate, one above as a gap, one past the declared length as rejected, and none of these three changes the page.
-/
def Obligations.SegmentsFillThePage : Prop :=
  (∀ (m : Memory) (blocks : List Nat) (o : Nat) (data : List Byte), Memory.wf m = true → blocks.Nodup →
    o + data.length ≤ 2048 * blocks.length →
    let w := writePage m blocks o data
    Memory.wf w = true ∧ readPage w blocks o data.length = data ∧
    ∀ a, (∀ i, i < data.length → a ≠ pageAddress blocks (o + i)) → Memory.read w a = Memory.read m a) ∧
  ∀ (n : Node) (t : Fin 4) (x : Transfer) (o : Nat) (data : List Byte), n.xfer t = some x →
    let m := n.judgeSegment t x o data
    (x.declared < o + data.length → m.te.store = n.te.store ∧ ∃ y, m.xfer t = some y ∧ y.received = x.received ∧
      y.counts.rejected = min 4294967295 (x.counts.rejected + 1)) ∧
    (o + data.length ≤ x.declared → o < x.received → m = n.setXfer t (some { x with
      counts := { x.counts with duplicates := min 4294967295 (x.counts.duplicates + 1) } })) ∧
    (o + data.length ≤ x.declared → x.received < o → m.te.store = n.te.store ∧ ∃ y, m.xfer t = some y ∧
      y.received = x.received ∧ y.counts.gaps = min 4294967295 (x.counts.gaps + 1)) ∧
    (o + data.length < x.declared → o = x.received → (o + data.length + 2047) / 2048 = (o + 2047) / 2048 →
      m.te.store = writePage n.te.store x.blocks o data ∧ ∃ y, m.xfer t = some y ∧ y.received = o + data.length ∧
        y.blocks = x.blocks ∧ y.state = x.state ∧ y.counts.appended = min 4294967295 (x.counts.appended + 1)) ∧
    (o + data.length < x.declared → o = x.received → (o + data.length + 2047) / 2048 ≠ (o + 2047) / 2048 →
      ∀ b others, n.freeBlocks = b :: others → (∀ c < b, c ∉ n.freeBlocks) ∧
        m.te.store = writePage n.te.store (x.blocks ++ [b]) o data ∧ ∃ y, m.xfer t = some y ∧ y.received = o + data.length ∧
        y.blocks = x.blocks ++ [b] ∧ y.state = x.state ∧ y.counts.appended = min 4294967295 (x.counts.appended + 1)) ∧
    (o + data.length = x.declared → o = x.received → ∀ blocks : List Nat,
      ((o + data.length + 2047) / 2048 = (o + 2047) / 2048 → blocks = x.blocks) →
      ((o + data.length + 2047) / 2048 ≠ (o + 2047) / 2048 →
        ∃ b others, n.freeBlocks = b :: others ∧ blocks = x.blocks ++ [b]) →
      m.te.store = writePage n.te.store blocks o data ∧
      ∀ k channel, x.targets[0]? = some (k, channel) →
        let size := min x.chunk x.declared
        (¬ TakesChunks n k → 0 < x.declared → m.pe.ports = n.pe.ports ∧ ∃ y, m.xfer t = some y ∧ y.state = .deliveryWait ∧
          y.received = x.declared ∧ y.blocks = blocks ∧ y.target = 0 ∧ y.offset = 0) ∧
        (TakesChunks n k → 0 < size → ((n.port k).recv.map (·.data.length)).sum + size ≤ 8192 →
          (n.port k).recv ++ [{ channel := channel, data := readPage m.te.store blocks 0 size }] <+: (m.port k).recv)) ∧
    (o + data.length ≤ x.declared → o = x.received → (o + data.length + 2047) / 2048 ≠ (o + 2047) / 2048 →
      n.freeBlocks = [] → m.te.store = n.te.store ∧ ∃ y, m.xfer t = some y ∧ y.received = x.received ∧
        y.state = .suspended ∧ y.reason = some .store)

/-! ## The poll controller -/

/-- R173 to R177: an accepted POLL_SET replaces the settings, begins polling in RUNNING when it enables it and stops it when it
disables it; R182: one that names a placed weather service offers it every unsent reading in station order, each with its age,
marked sent when it is enqueued and counted when it is not. An accepted STATION_SET replaces a station's entry, takes it to
UNPOLLED, and discards the reading when the address is another. A cycle due starts at position 0, four times as long in economy
mode, the enabled stations of offset 0 falling due; the first station due joins the queue, ordered by due time and then station,
and is polled if the line is free, or counts a miss while queued or in its transaction. The model's choice is: that a cycle
start or station not due does nothing (log 1), as does a station due behind a lower one (log 31), and that position and length
read 0, and the cycle not stretched, once polling has stopped (log 23) and stay so from its beginning to the first cycle start
(log 70). -/
def Obligations.PollCyclesMakeStationsDue : Prop :=
  ∀ s : State, s.awake →
    let n := s.node
    let c := n.pc
    let fell (x : Station) : Station := { x with fallsDue := x.enabled && decide (x.offset = 0) }
    let len := 4000 * c.interval * (if n.au.economy then 4 else 1)
    let before (x y : Fin 8 × BitVec 32) : Prop :=
      (n.runTime - y.2).toNat < (n.runTime - x.2).toNat ∨ (x.2 = y.2 ∧ x.1 ≤ y.1)
    (c.cycleDue = false → exec .pollCycleStart s = .next (s.became n)) ∧
    (c.cycleDue = true → exec .pollCycleStart s = .next (s.became { n with pc := { c with
      cycleDue := false, pos := 0, len := len, stretched := n.au.economy, stations := c.stations.map fell } })) ∧
    (∀ k, let x := n.station k
      let taken : Station := { x with fallsDue := false }
      let busy := (∃ q ∈ c.queue, q.1 = k) ∨ (∃ t, c.txn = some t ∧ t.station = k)
      (x.fallsDue = false ∨ (∃ j, j < k ∧ (n.station j).fallsDue = true) →
        exec (.stationDue k) s = .next (s.became n)) ∧
      (x.fallsDue = true → (∀ j, j < k → (n.station j).fallsDue = false) →
        (busy → exec (.stationDue k) s = .next (s.became (n.setStation k { taken with
          counts := { x.counts with misses := min 4294967295 (x.counts.misses + 1) } }))) ∧
        (c.txn = none → c.queue = [] → exec (.stationDue k) s = .next (s.became
          (({ n with pc := { c with txn := some { station := k, attempt := 1, phase := .sending, rate := c.rate } } } :
            Node).setStation k { taken with counts := { x.counts with polls := min 4294967295 (x.counts.polls + 1) } }))) ∧
        (¬ busy → c.txn.isSome = true → ∃ q : List (Fin 8 × BitVec 32), q.Perm ((k, n.runTime) :: c.queue) ∧
          (c.queue.Pairwise before → q.Pairwise before) ∧
          exec (.stationDue k) s =
            .next (s.became (({ n with pc := { c with queue := q } } : Node).setStation k taken))))) ∧
    (∀ i r on rate named, s.asks i r → r.kind = 0x1D#8 → r.body.length = 7 →
      let b := r.body
      boolOf (f1 b 0) = some on → pollRateOf (f1 b 1) = some rate → 10 ≤ f2 b 2 → f2 b 2 ≤ 3600 → 50 ≤ f2 b 4 →
      f2 b 4 ≤ 2000 → (∀ x ∈ c.stations, x.offset < 10 * f2 b 2) →
      (f1 b 6 = 255 ∧ named = none) ∨ (f1 b 6 ≤ 55 ∧ named = some (f1 b 6) ∧
        ∃ v quota age, n.svc (f1 b 6) = some v ∧ v.binding = .poll quota age) →
      let q : PollController :=
        { c with enabled := on, rate := rate, interval := f2 b 2, timeout := f2 b 4, service := named }
      let set : Node := { n with pc :=
        if n.op = .running ∧ on = true ∧ c.running = false then { q with running := true, startWait := true }
        else if on = false ∧ c.running = true then { q with
          running := false, startWait := false, cycleDue := false, pos := 0, len := 0, stretched := false, queue := []
          txn := none, stations := c.stations.map fun x => { x with fallsDue := false } }
        else q }
      let silent := named = none ∨ ∃ v, n.svc (f1 b 6) = some v ∧ v.state = .shed
      (silent → exec .pollSet s = .next (s.replied i r set (okBytes []))) ∧
      (¬ silent →
        exec .pollSet s = .next (s.replied i r (allStations.foldl
          (fun m k => if (m.station k).unsent then m.forwardReading k else m) set) (okBytes [])))) ∧
    (∀ (m : Node) (k : Fin 8) (r : Reading) (id : Nat) (v : Service) (w : PeService), (m.station k).reading = some r →
      m.pc.service = some id → m.svc id = some v → v.state ≠ .shed → m.peOf id = some w →
      let x := m.station k
      let frame := be1 k ++ be1 x.address ++ be4 (m.runTime - r.capture).toNat ++ be1 r.bytes.length ++ r.bytes
      let fits := (w.queue.map (·.data.length)).sum + frame.length ≤ v.binding.quota * 1024 ∧
        (frame.length + 255) / 256 ≤ m.pe.poolFree
      let sent := m.forwardReading k
      (∀ j, j ≠ k → sent.station j = m.station j) ∧
      (fits → sent.station k = { x with unsent := false } ∧
        sent.peOf id = some { w with queue := w.queue ++ [{ data := frame, stamp := m.runTime }] }) ∧
      (¬ fits → sent.station k = { x with
          unsent := true, counts := { x.counts with forwardDrops := min 4294967295 (x.counts.forwardDrops + 1) } } ∧
        ∃ w', sent.peOf id = some w' ∧ w'.queue = w.queue)) ∧
    (∀ i r on (k : Fin 8), s.asks i r → r.kind = 0x1E#8 → r.body.length = 5 →
      let b := r.body
      let x := n.station k
      f1 b 0 = k.val → boolOf (f1 b 1) = some on → 1 ≤ f1 b 2 → f1 b 2 ≤ 247 → f2 b 3 < 10 * c.interval →
      (∀ j, j ≠ k → on = true → (n.station j).enabled = true → (n.station j).address ≠ f1 b 2) →
      ((∃ t, c.txn = some t ∧ t.station = k) → exec .stationSet s = .next (s.replied i r n (refusedBytes 0x01#8))) ∧
      ((∀ t, c.txn = some t → t.station ≠ k) → ∃ m : Node, exec .stationSet s = .next (s.replied i r m (okBytes [])) ∧
        (let y := m.station k
         y.enabled = on ∧ y.address = f1 b 2 ∧ y.offset = f2 b 3 ∧ y.state = .unpolled ∧ y.failures = 0 ∧
         y.counts = x.counts ∧ (f1 b 2 = x.address → y.reading = x.reading ∧ y.unsent = x.unsent) ∧
         (f1 b 2 ≠ x.address → y.reading = none ∧ y.unsent = false ∧ y.overwritten = 0)) ∧
        m.pc.queue = (if on then c.queue else c.queue.filter fun q => decide (q.1 ≠ k)) ∧
        (∀ j, j ≠ k → m.station j = n.station j) ∧ m.pe = n.pe ∧ m.te = n.te ∧ m.au = n.au ∧ m.cc = n.cc ∧
        m.cs = n.cs ∧ m.line = n.line ∧ m.path = n.path))

/-- R178 to R181, R183: the end of the telegram opens the reply window with the timeout set; a reply in it stops the timeout; an
expired timeout, a gap and a wrong reply fail the attempt, counted by cause, the first followed at once by the second, the
second counting a failure and, at the third in a row, taking the station to SILENT; a valid reply gives the station its reading,
clears its failures and takes it to ANSWERING. Bytes outside any window are counted once a run. The model's choice is: that a
timeout not due does nothing (log 1), that POLL_REPLY_GAP is always judged BAD_REPLY and a late run counted only while polling
runs (log 23), and that the late count holds at 4,294,967,295 (log 57). -/
def Obligations.PollAttemptsAreJudged : Prop :=
  ∀ s : State, s.awake →
    let n := s.node
    let c := n.pc
    let withTxn (t : Transaction) : Node := { n with pc := { c with txn := some t } }
    (∀ t, c.txn = some t →
      let x := n.station t.station
      let second : Transaction := { t with attempt := 2, phase := .sending }
      let failed (cmd : Instr) (f : StationCounts) : Prop :=
        (t.attempt = 1 →
          exec cmd s = .next (s.became ((withTxn second).setStation t.station { x with counts := f }))) ∧
        (t.attempt = 2 → c.queue = [] → ∃ m : Node, exec cmd s = .next (s.became m) ∧ m.pc.txn = none ∧
          (m.station t.station).failures = min 3 (x.failures + 1) ∧ (m.station t.station).counts = f ∧
          (m.station t.station).reading = x.reading ∧
          (m.station t.station).state = (if 2 ≤ x.failures then .silent else x.state) ∧
          (∀ j, j ≠ t.station → m.station j = n.station j))
      (t.phase = .sending → exec .pollTelegramSent s = .next (s.became (withTxn { t with phase := .waiting 0 c.timeout }))) ∧
      (∀ k limit, t.phase = .waiting k limit →
        (k < limit → exec .pollReplyStart s = .next (s.became (withTxn { t with phase := .receiving })) ∧
          exec .pollReplyTimeout s = .next (s.became n)) ∧
        (limit ≤ k → failed .pollReplyTimeout { x.counts with timeouts := min 4294967295 (x.counts.timeouts + 1) })) ∧
      (t.phase = .receiving →
        (∀ bs, failed (.pollReplyGap bs) { x.counts with badReplies := min 4294967295 (x.counts.badReplies + 1) }) ∧
        (∀ bs, judgeReply x.address bs = .badReply →
          failed (.pollReplyEnd bs) { x.counts with badReplies := min 4294967295 (x.counts.badReplies + 1) }) ∧
        (∀ bs, judgeReply x.address bs = .wrongAddress →
          failed (.pollReplyEnd bs) { x.counts with wrongAddress := min 4294967295 (x.counts.wrongAddress + 1) }) ∧
        (∀ reading, 1 ≤ reading.length → reading.length ≤ 64 → x.address ≤ 255 → c.queue = [] → n.weatherOpen = none →
          let covered := be1 x.address ++ [0x52#8] ++ be1 reading.length ++ reading
          ∃ m : Node, exec (.pollReplyEnd (covered ++ be2 (check16 covered).toNat)) s = .next (s.became m) ∧
            m.pc.txn = none ∧ (∀ j, j ≠ t.station → m.station j = n.station j) ∧
            m.station t.station = { x with
              state := .answering, failures := 0, reading := some { bytes := reading, capture := n.runTime }, unsent := true
              overwritten := if x.reading.isSome && x.unsent then min 255 (x.overwritten + 1) else x.overwritten
              counts := { x.counts with valid := min 4294967295 (x.counts.valid + 1) } }))) ∧
    (c.running = true → exec .lateReplyRunEnd s =
      .next (s.became { n with pc := { c with late := min 4294967295 (c.late + 1) } })) ∧
    (c.running = false → exec .lateReplyRunEnd s = .next (s.became n))
end

