-- ==== Sys2Proof/Laws/State.lean ====
section
/-! SUPPORT. Each update of a record of the node, field by field: what it sets and that it leaves every other field. -/

namespace Sys2Proof.Machine

/-! ## Two like things -/

@[simp] theorem Two.get_set_same {α : Type} (t : Two α) (l : Line) (x : α) : (t.set l x).get l = x := by cases l <;> rfl
@[simp] theorem Two.get_set_other {α : Type} (t : Two α) (l : Line) (x : α) : (t.set l x).get l.other = t.get l.other := by
  cases l <;> rfl
@[simp] theorem Two.get_other_set {α : Type} (t : Two α) (l : Line) (x : α) : (t.set l.other x).get l = t.get l := by
  cases l <;> rfl
@[simp] theorem Two.set_set {α : Type} (t : Two α) (l : Line) (x y : α) : (t.set l x).set l y = t.set l y := by cases l <;> rfl
@[simp] theorem Two.set_get {α : Type} (t : Two α) (l : Line) : t.set l (t.get l) = t := by cases l <;> rfl
@[simp] theorem Line.other_other (l : Line) : l.other.other = l := by cases l <;> rfl
@[simp] theorem Side.other_other (x : Side) : x.other.other = x := by cases x <;> rfl
@[simp] theorem Side.line_side (x : Side) : x.line.side = x := by cases x <;> rfl
@[simp] theorem Line.side_line (l : Line) : l.side.line = l := by cases l <;> rfl
@[simp] theorem Side.other_line (x : Side) : x.other.line = x.line.other := by cases x <;> rfl
@[simp] theorem Line.other_side (l : Line) : l.other.side = l.side.other := by cases l <;> rfl

/-! ## The node -/

section setLine
variable (n : Node) (l : Line) (p : LinePort)
@[simp] theorem Node.setLine_pins : (n.setLine l p).pins = n.pins := rfl
@[simp] theorem Node.setLine_clk : (n.setLine l p).clk = n.clk := rfl
@[simp] theorem Node.setLine_op : (n.setLine l p).op = n.op := rfl
@[simp] theorem Node.setLine_runTime : (n.setLine l p).runTime = n.runTime := rfl
@[simp] theorem Node.setLine_reports : (n.setLine l p).reports = n.reports := rfl
@[simp] theorem Node.setLine_cfg : (n.setLine l p).cfg = n.cfg := rfl
@[simp] theorem Node.setLine_line : (n.setLine l p).line = n.line.set l p := rfl
@[simp] theorem Node.setLine_path : (n.setLine l p).path = n.path := rfl
@[simp] theorem Node.setLine_timing : (n.setLine l p).timing = n.timing := rfl
@[simp] theorem Node.setLine_sig : (n.setLine l p).sig = n.sig := rfl
@[simp] theorem Node.setLine_cs : (n.setLine l p).cs = n.cs := rfl
@[simp] theorem Node.setLine_au : (n.setLine l p).au = n.au := rfl
@[simp] theorem Node.setLine_cc : (n.setLine l p).cc = n.cc := rfl
@[simp] theorem Node.setLine_pe : (n.setLine l p).pe = n.pe := rfl
@[simp] theorem Node.setLine_te : (n.setLine l p).te = n.te := rfl
@[simp] theorem Node.setLine_pc : (n.setLine l p).pc = n.pc := rfl
end setLine

section modLine
variable (n : Node) (l : Line) (f : LinePort → LinePort)
@[simp] theorem Node.modLine_pins : (n.modLine l f).pins = n.pins := rfl
@[simp] theorem Node.modLine_clk : (n.modLine l f).clk = n.clk := rfl
@[simp] theorem Node.modLine_op : (n.modLine l f).op = n.op := rfl
@[simp] theorem Node.modLine_runTime : (n.modLine l f).runTime = n.runTime := rfl
@[simp] theorem Node.modLine_reports : (n.modLine l f).reports = n.reports := rfl
@[simp] theorem Node.modLine_cfg : (n.modLine l f).cfg = n.cfg := rfl
@[simp] theorem Node.modLine_line : (n.modLine l f).line = n.line.set l (f (n.line.get l)) := rfl
@[simp] theorem Node.modLine_path : (n.modLine l f).path = n.path := rfl
@[simp] theorem Node.modLine_timing : (n.modLine l f).timing = n.timing := rfl
@[simp] theorem Node.modLine_sig : (n.modLine l f).sig = n.sig := rfl
@[simp] theorem Node.modLine_cs : (n.modLine l f).cs = n.cs := rfl
@[simp] theorem Node.modLine_au : (n.modLine l f).au = n.au := rfl
@[simp] theorem Node.modLine_cc : (n.modLine l f).cc = n.cc := rfl
@[simp] theorem Node.modLine_pe : (n.modLine l f).pe = n.pe := rfl
@[simp] theorem Node.modLine_te : (n.modLine l f).te = n.te := rfl
@[simp] theorem Node.modLine_pc : (n.modLine l f).pc = n.pc := rfl
end modLine

section setPath
variable (n : Node) (x : Side) (p : PathSide)
@[simp] theorem Node.setPath_pins : (n.setPath x p).pins = n.pins := rfl
@[simp] theorem Node.setPath_clk : (n.setPath x p).clk = n.clk := rfl
@[simp] theorem Node.setPath_op : (n.setPath x p).op = n.op := rfl
@[simp] theorem Node.setPath_runTime : (n.setPath x p).runTime = n.runTime := rfl
@[simp] theorem Node.setPath_reports : (n.setPath x p).reports = n.reports := rfl
@[simp] theorem Node.setPath_cfg : (n.setPath x p).cfg = n.cfg := rfl
@[simp] theorem Node.setPath_line : (n.setPath x p).line = n.line := rfl
@[simp] theorem Node.setPath_path : (n.setPath x p).path = n.path.set x.line p := rfl
@[simp] theorem Node.setPath_timing : (n.setPath x p).timing = n.timing := rfl
@[simp] theorem Node.setPath_sig : (n.setPath x p).sig = n.sig := rfl
@[simp] theorem Node.setPath_cs : (n.setPath x p).cs = n.cs := rfl
@[simp] theorem Node.setPath_au : (n.setPath x p).au = n.au := rfl
@[simp] theorem Node.setPath_cc : (n.setPath x p).cc = n.cc := rfl
@[simp] theorem Node.setPath_pe : (n.setPath x p).pe = n.pe := rfl
@[simp] theorem Node.setPath_te : (n.setPath x p).te = n.te := rfl
@[simp] theorem Node.setPath_pc : (n.setPath x p).pc = n.pc := rfl
end setPath

section modSwitch
variable (n : Node) (l : Line) (f : SwitchLine → SwitchLine)
@[simp] theorem Node.modSwitch_pins : (n.modSwitch l f).pins = n.pins := rfl
@[simp] theorem Node.modSwitch_clk : (n.modSwitch l f).clk = n.clk := rfl
@[simp] theorem Node.modSwitch_op : (n.modSwitch l f).op = n.op := rfl
@[simp] theorem Node.modSwitch_runTime : (n.modSwitch l f).runTime = n.runTime := rfl
@[simp] theorem Node.modSwitch_reports : (n.modSwitch l f).reports = n.reports := rfl
@[simp] theorem Node.modSwitch_cfg : (n.modSwitch l f).cfg = n.cfg := rfl
@[simp] theorem Node.modSwitch_line : (n.modSwitch l f).line = n.line := rfl
@[simp] theorem Node.modSwitch_path : (n.modSwitch l f).path = n.path := rfl
@[simp] theorem Node.modSwitch_timing : (n.modSwitch l f).timing = n.timing := rfl
@[simp] theorem Node.modSwitch_sig : (n.modSwitch l f).sig = n.sig := rfl
@[simp] theorem Node.modSwitch_cs : (n.modSwitch l f).cs = { n.cs with line := n.cs.line.set l (f (n.cs.line.get l)) } := rfl
@[simp] theorem Node.modSwitch_au : (n.modSwitch l f).au = n.au := rfl
@[simp] theorem Node.modSwitch_cc : (n.modSwitch l f).cc = n.cc := rfl
@[simp] theorem Node.modSwitch_pe : (n.modSwitch l f).pe = n.pe := rfl
@[simp] theorem Node.modSwitch_te : (n.modSwitch l f).te = n.te := rfl
@[simp] theorem Node.modSwitch_pc : (n.modSwitch l f).pc = n.pc := rfl
end modSwitch

section setPhone
variable (n : Node) (p : Fin 8) (ph : Phone)
@[simp] theorem Node.setPhone_pins : (n.setPhone p ph).pins = n.pins := rfl
@[simp] theorem Node.setPhone_clk : (n.setPhone p ph).clk = n.clk := rfl
@[simp] theorem Node.setPhone_op : (n.setPhone p ph).op = n.op := rfl
@[simp] theorem Node.setPhone_runTime : (n.setPhone p ph).runTime = n.runTime := rfl
@[simp] theorem Node.setPhone_reports : (n.setPhone p ph).reports = n.reports := rfl
@[simp] theorem Node.setPhone_cfg : (n.setPhone p ph).cfg = n.cfg := rfl
@[simp] theorem Node.setPhone_line : (n.setPhone p ph).line = n.line := rfl
@[simp] theorem Node.setPhone_path : (n.setPhone p ph).path = n.path := rfl
@[simp] theorem Node.setPhone_timing : (n.setPhone p ph).timing = n.timing := rfl
@[simp] theorem Node.setPhone_sig : (n.setPhone p ph).sig = n.sig := rfl
@[simp] theorem Node.setPhone_cs : (n.setPhone p ph).cs = n.cs := rfl
@[simp] theorem Node.setPhone_au : (n.setPhone p ph).au = n.au := rfl
@[simp] theorem Node.setPhone_cc : (n.setPhone p ph).cc = { n.cc with phones := n.cc.phones.set p ph } := rfl
@[simp] theorem Node.setPhone_pe : (n.setPhone p ph).pe = n.pe := rfl
@[simp] theorem Node.setPhone_te : (n.setPhone p ph).te = n.te := rfl
@[simp] theorem Node.setPhone_pc : (n.setPhone p ph).pc = n.pc := rfl
end setPhone

section modPhone
variable (n : Node) (p : Fin 8) (f : Phone → Phone)
@[simp] theorem Node.modPhone_pins : (n.modPhone p f).pins = n.pins := rfl
@[simp] theorem Node.modPhone_clk : (n.modPhone p f).clk = n.clk := rfl
@[simp] theorem Node.modPhone_op : (n.modPhone p f).op = n.op := rfl
@[simp] theorem Node.modPhone_runTime : (n.modPhone p f).runTime = n.runTime := rfl
@[simp] theorem Node.modPhone_reports : (n.modPhone p f).reports = n.reports := rfl
@[simp] theorem Node.modPhone_cfg : (n.modPhone p f).cfg = n.cfg := rfl
@[simp] theorem Node.modPhone_line : (n.modPhone p f).line = n.line := rfl
@[simp] theorem Node.modPhone_path : (n.modPhone p f).path = n.path := rfl
@[simp] theorem Node.modPhone_timing : (n.modPhone p f).timing = n.timing := rfl
@[simp] theorem Node.modPhone_sig : (n.modPhone p f).sig = n.sig := rfl
@[simp] theorem Node.modPhone_cs : (n.modPhone p f).cs = n.cs := rfl
@[simp] theorem Node.modPhone_au : (n.modPhone p f).au = n.au := rfl
@[simp] theorem Node.modPhone_cc : (n.modPhone p f).cc = { n.cc with phones := n.cc.phones.set p (f (n.phone p)) } := rfl
@[simp] theorem Node.modPhone_pe : (n.modPhone p f).pe = n.pe := rfl
@[simp] theorem Node.modPhone_te : (n.modPhone p f).te = n.te := rfl
@[simp] theorem Node.modPhone_pc : (n.modPhone p f).pc = n.pc := rfl
end modPhone

section setPort
variable (n : Node) (k : Fin 4) (p : PacketPort)
@[simp] theorem Node.setPort_pins : (n.setPort k p).pins = n.pins := rfl
@[simp] theorem Node.setPort_clk : (n.setPort k p).clk = n.clk := rfl
@[simp] theorem Node.setPort_op : (n.setPort k p).op = n.op := rfl
@[simp] theorem Node.setPort_runTime : (n.setPort k p).runTime = n.runTime := rfl
@[simp] theorem Node.setPort_reports : (n.setPort k p).reports = n.reports := rfl
@[simp] theorem Node.setPort_cfg : (n.setPort k p).cfg = n.cfg := rfl
@[simp] theorem Node.setPort_line : (n.setPort k p).line = n.line := rfl
@[simp] theorem Node.setPort_path : (n.setPort k p).path = n.path := rfl
@[simp] theorem Node.setPort_timing : (n.setPort k p).timing = n.timing := rfl
@[simp] theorem Node.setPort_sig : (n.setPort k p).sig = n.sig := rfl
@[simp] theorem Node.setPort_cs : (n.setPort k p).cs = n.cs := rfl
@[simp] theorem Node.setPort_au : (n.setPort k p).au = n.au := rfl
@[simp] theorem Node.setPort_cc : (n.setPort k p).cc = n.cc := rfl
@[simp] theorem Node.setPort_pe : (n.setPort k p).pe = { n.pe with ports := n.pe.ports.set k p } := rfl
@[simp] theorem Node.setPort_te : (n.setPort k p).te = n.te := rfl
@[simp] theorem Node.setPort_pc : (n.setPort k p).pc = n.pc := rfl
end setPort

section modPort
variable (n : Node) (k : Fin 4) (f : PacketPort → PacketPort)
@[simp] theorem Node.modPort_pins : (n.modPort k f).pins = n.pins := rfl
@[simp] theorem Node.modPort_clk : (n.modPort k f).clk = n.clk := rfl
@[simp] theorem Node.modPort_op : (n.modPort k f).op = n.op := rfl
@[simp] theorem Node.modPort_runTime : (n.modPort k f).runTime = n.runTime := rfl
@[simp] theorem Node.modPort_reports : (n.modPort k f).reports = n.reports := rfl
@[simp] theorem Node.modPort_cfg : (n.modPort k f).cfg = n.cfg := rfl
@[simp] theorem Node.modPort_line : (n.modPort k f).line = n.line := rfl
@[simp] theorem Node.modPort_path : (n.modPort k f).path = n.path := rfl
@[simp] theorem Node.modPort_timing : (n.modPort k f).timing = n.timing := rfl
@[simp] theorem Node.modPort_sig : (n.modPort k f).sig = n.sig := rfl
@[simp] theorem Node.modPort_cs : (n.modPort k f).cs = n.cs := rfl
@[simp] theorem Node.modPort_au : (n.modPort k f).au = n.au := rfl
@[simp] theorem Node.modPort_cc : (n.modPort k f).cc = n.cc := rfl
@[simp] theorem Node.modPort_pe : (n.modPort k f).pe = { n.pe with ports := n.pe.ports.set k (f (n.port k)) } := rfl
@[simp] theorem Node.modPort_te : (n.modPort k f).te = n.te := rfl
@[simp] theorem Node.modPort_pc : (n.modPort k f).pc = n.pc := rfl
end modPort

section setXfer
variable (n : Node) (t : Fin 4) (r : Option Transfer)
@[simp] theorem Node.setXfer_pins : (n.setXfer t r).pins = n.pins := rfl
@[simp] theorem Node.setXfer_clk : (n.setXfer t r).clk = n.clk := rfl
@[simp] theorem Node.setXfer_op : (n.setXfer t r).op = n.op := rfl
@[simp] theorem Node.setXfer_runTime : (n.setXfer t r).runTime = n.runTime := rfl
@[simp] theorem Node.setXfer_reports : (n.setXfer t r).reports = n.reports := rfl
@[simp] theorem Node.setXfer_cfg : (n.setXfer t r).cfg = n.cfg := rfl
@[simp] theorem Node.setXfer_line : (n.setXfer t r).line = n.line := rfl
@[simp] theorem Node.setXfer_path : (n.setXfer t r).path = n.path := rfl
@[simp] theorem Node.setXfer_timing : (n.setXfer t r).timing = n.timing := rfl
@[simp] theorem Node.setXfer_sig : (n.setXfer t r).sig = n.sig := rfl
@[simp] theorem Node.setXfer_cs : (n.setXfer t r).cs = n.cs := rfl
@[simp] theorem Node.setXfer_au : (n.setXfer t r).au = n.au := rfl
@[simp] theorem Node.setXfer_cc : (n.setXfer t r).cc = n.cc := rfl
@[simp] theorem Node.setXfer_pe : (n.setXfer t r).pe = n.pe := rfl
@[simp] theorem Node.setXfer_te : (n.setXfer t r).te = { n.te with recs := n.te.recs.set t r } := rfl
@[simp] theorem Node.setXfer_pc : (n.setXfer t r).pc = n.pc := rfl
end setXfer

section setStation
variable (n : Node) (k : Fin 8) (x : Station)
@[simp] theorem Node.setStation_pins : (n.setStation k x).pins = n.pins := rfl
@[simp] theorem Node.setStation_clk : (n.setStation k x).clk = n.clk := rfl
@[simp] theorem Node.setStation_op : (n.setStation k x).op = n.op := rfl
@[simp] theorem Node.setStation_runTime : (n.setStation k x).runTime = n.runTime := rfl
@[simp] theorem Node.setStation_reports : (n.setStation k x).reports = n.reports := rfl
@[simp] theorem Node.setStation_cfg : (n.setStation k x).cfg = n.cfg := rfl
@[simp] theorem Node.setStation_line : (n.setStation k x).line = n.line := rfl
@[simp] theorem Node.setStation_path : (n.setStation k x).path = n.path := rfl
@[simp] theorem Node.setStation_timing : (n.setStation k x).timing = n.timing := rfl
@[simp] theorem Node.setStation_sig : (n.setStation k x).sig = n.sig := rfl
@[simp] theorem Node.setStation_cs : (n.setStation k x).cs = n.cs := rfl
@[simp] theorem Node.setStation_au : (n.setStation k x).au = n.au := rfl
@[simp] theorem Node.setStation_cc : (n.setStation k x).cc = n.cc := rfl
@[simp] theorem Node.setStation_pe : (n.setStation k x).pe = n.pe := rfl
@[simp] theorem Node.setStation_te : (n.setStation k x).te = n.te := rfl
@[simp] theorem Node.setStation_pc : (n.setStation k x).pc = { n.pc with stations := n.pc.stations.set k x } := rfl
end setStation

section modStation
variable (n : Node) (k : Fin 8) (f : Station → Station)
@[simp] theorem Node.modStation_pins : (n.modStation k f).pins = n.pins := rfl
@[simp] theorem Node.modStation_clk : (n.modStation k f).clk = n.clk := rfl
@[simp] theorem Node.modStation_op : (n.modStation k f).op = n.op := rfl
@[simp] theorem Node.modStation_runTime : (n.modStation k f).runTime = n.runTime := rfl
@[simp] theorem Node.modStation_reports : (n.modStation k f).reports = n.reports := rfl
@[simp] theorem Node.modStation_cfg : (n.modStation k f).cfg = n.cfg := rfl
@[simp] theorem Node.modStation_line : (n.modStation k f).line = n.line := rfl
@[simp] theorem Node.modStation_path : (n.modStation k f).path = n.path := rfl
@[simp] theorem Node.modStation_timing : (n.modStation k f).timing = n.timing := rfl
@[simp] theorem Node.modStation_sig : (n.modStation k f).sig = n.sig := rfl
@[simp] theorem Node.modStation_cs : (n.modStation k f).cs = n.cs := rfl
@[simp] theorem Node.modStation_au : (n.modStation k f).au = n.au := rfl
@[simp] theorem Node.modStation_cc : (n.modStation k f).cc = n.cc := rfl
@[simp] theorem Node.modStation_pe : (n.modStation k f).pe = n.pe := rfl
@[simp] theorem Node.modStation_te : (n.modStation k f).te = n.te := rfl
@[simp] theorem Node.modStation_pc : (n.modStation k f).pc = { n.pc with stations := n.pc.stations.set k (f (n.station k)) } := rfl
end modStation

section setPe
variable (n : Node) (v : PeService)
@[simp] theorem Node.setPe_pins : (n.setPe v).pins = n.pins := rfl
@[simp] theorem Node.setPe_clk : (n.setPe v).clk = n.clk := rfl
@[simp] theorem Node.setPe_op : (n.setPe v).op = n.op := rfl
@[simp] theorem Node.setPe_runTime : (n.setPe v).runTime = n.runTime := rfl
@[simp] theorem Node.setPe_reports : (n.setPe v).reports = n.reports := rfl
@[simp] theorem Node.setPe_cfg : (n.setPe v).cfg = n.cfg := rfl
@[simp] theorem Node.setPe_line : (n.setPe v).line = n.line := rfl
@[simp] theorem Node.setPe_path : (n.setPe v).path = n.path := rfl
@[simp] theorem Node.setPe_timing : (n.setPe v).timing = n.timing := rfl
@[simp] theorem Node.setPe_sig : (n.setPe v).sig = n.sig := rfl
@[simp] theorem Node.setPe_cs : (n.setPe v).cs = n.cs := rfl
@[simp] theorem Node.setPe_au : (n.setPe v).au = n.au := rfl
@[simp] theorem Node.setPe_cc : (n.setPe v).cc = n.cc := rfl
@[simp] theorem Node.setPe_pe : (n.setPe v).pe = { n.pe with svcs := n.pe.svcs.map fun w => if w.id = v.id then v else w } := rfl
@[simp] theorem Node.setPe_te : (n.setPe v).te = n.te := rfl
@[simp] theorem Node.setPe_pc : (n.setPe v).pc = n.pc := rfl
end setPe

section putSvc
variable (n : Node) (v : Service)
@[simp] theorem Node.putSvc_pins : (n.putSvc v).pins = n.pins := rfl
@[simp] theorem Node.putSvc_clk : (n.putSvc v).clk = n.clk := rfl
@[simp] theorem Node.putSvc_op : (n.putSvc v).op = n.op := rfl
@[simp] theorem Node.putSvc_runTime : (n.putSvc v).runTime = n.runTime := rfl
@[simp] theorem Node.putSvc_reports : (n.putSvc v).reports = n.reports := rfl
@[simp] theorem Node.putSvc_cfg : (n.putSvc v).cfg = n.cfg := rfl
@[simp] theorem Node.putSvc_line : (n.putSvc v).line = n.line := rfl
@[simp] theorem Node.putSvc_path : (n.putSvc v).path = n.path := rfl
@[simp] theorem Node.putSvc_timing : (n.putSvc v).timing = n.timing := rfl
@[simp] theorem Node.putSvc_sig : (n.putSvc v).sig = n.sig := rfl
@[simp] theorem Node.putSvc_cs : (n.putSvc v).cs = n.cs := rfl
@[simp] theorem Node.putSvc_au : (n.putSvc v).au = { n.au with services := insertBy (fun x y => x.id ≤ y.id) v (n.au.services.filter (·.id != v.id)) } := rfl
@[simp] theorem Node.putSvc_cc : (n.putSvc v).cc = n.cc := rfl
@[simp] theorem Node.putSvc_pe : (n.putSvc v).pe = n.pe := rfl
@[simp] theorem Node.putSvc_te : (n.putSvc v).te = n.te := rfl
@[simp] theorem Node.putSvc_pc : (n.putSvc v).pc = n.pc := rfl
end putSvc

section dropSvc
variable (n : Node) (id : Nat)
@[simp] theorem Node.dropSvc_pins : (n.dropSvc id).pins = n.pins := rfl
@[simp] theorem Node.dropSvc_clk : (n.dropSvc id).clk = n.clk := rfl
@[simp] theorem Node.dropSvc_op : (n.dropSvc id).op = n.op := rfl
@[simp] theorem Node.dropSvc_runTime : (n.dropSvc id).runTime = n.runTime := rfl
@[simp] theorem Node.dropSvc_reports : (n.dropSvc id).reports = n.reports := rfl
@[simp] theorem Node.dropSvc_cfg : (n.dropSvc id).cfg = n.cfg := rfl
@[simp] theorem Node.dropSvc_line : (n.dropSvc id).line = n.line := rfl
@[simp] theorem Node.dropSvc_path : (n.dropSvc id).path = n.path := rfl
@[simp] theorem Node.dropSvc_timing : (n.dropSvc id).timing = n.timing := rfl
@[simp] theorem Node.dropSvc_sig : (n.dropSvc id).sig = n.sig := rfl
@[simp] theorem Node.dropSvc_cs : (n.dropSvc id).cs = n.cs := rfl
@[simp] theorem Node.dropSvc_au : (n.dropSvc id).au = { n.au with services := n.au.services.filter (·.id != id) } := rfl
@[simp] theorem Node.dropSvc_cc : (n.dropSvc id).cc = n.cc := rfl
@[simp] theorem Node.dropSvc_pe : (n.dropSvc id).pe = n.pe := rfl
@[simp] theorem Node.dropSvc_te : (n.dropSvc id).te = n.te := rfl
@[simp] theorem Node.dropSvc_pc : (n.dropSvc id).pc = n.pc := rfl
end dropSvc

section report
variable (n : Node) (b : ReportBody)
@[simp] theorem Node.report_pins : (n.report b).pins = n.pins := rfl
@[simp] theorem Node.report_clk : (n.report b).clk = n.clk := rfl
@[simp] theorem Node.report_op : (n.report b).op = n.op := rfl
@[simp] theorem Node.report_runTime : (n.report b).runTime = n.runTime := rfl
@[simp] theorem Node.report_reports : (n.report b).reports = n.reports.offer b n.runTime := rfl
@[simp] theorem Node.report_cfg : (n.report b).cfg = n.cfg := rfl
@[simp] theorem Node.report_line : (n.report b).line = n.line := rfl
@[simp] theorem Node.report_path : (n.report b).path = n.path := rfl
@[simp] theorem Node.report_timing : (n.report b).timing = n.timing := rfl
@[simp] theorem Node.report_sig : (n.report b).sig = n.sig := rfl
@[simp] theorem Node.report_cs : (n.report b).cs = n.cs := rfl
@[simp] theorem Node.report_au : (n.report b).au = n.au := rfl
@[simp] theorem Node.report_cc : (n.report b).cc = n.cc := rfl
@[simp] theorem Node.report_pe : (n.report b).pe = n.pe := rfl
@[simp] theorem Node.report_te : (n.report b).te = n.te := rfl
@[simp] theorem Node.report_pc : (n.report b).pc = n.pc := rfl
end report

/-! ## Reading back what an update has set -/

@[simp] theorem Node.pathOf_setPath (n : Node) (x : Side) (p : PathSide) : (n.setPath x p).pathOf x = p := by
  cases x <;> rfl
@[simp] theorem Node.pathOf_setPath_other (n : Node) (x : Side) (p : PathSide) :
    (n.setPath x p).pathOf x.other = n.pathOf x.other := by cases x <;> rfl
@[simp] theorem Node.pathOf_report (n : Node) (b : ReportBody) (x : Side) : (n.report b).pathOf x = n.pathOf x := rfl
@[simp] theorem Node.phone_report (n : Node) (b : ReportBody) (p : Fin 8) : (n.report b).phone p = n.phone p := rfl
@[simp] theorem Node.svc_report (n : Node) (b : ReportBody) (id : Nat) : (n.report b).svc id = n.svc id := rfl
@[simp] theorem Node.xfer_report (n : Node) (b : ReportBody) (t : Fin 4) : (n.report b).xfer t = n.xfer t := rfl
@[simp] theorem Node.port_report (n : Node) (b : ReportBody) (k : Fin 4) : (n.report b).port k = n.port k := rfl
@[simp] theorem Node.station_report (n : Node) (b : ReportBody) (k : Fin 8) : (n.report b).station k = n.station k := rfl
@[simp] theorem Node.phone_setPhone (n : Node) (p : Fin 8) (ph : Phone) : (n.setPhone p ph).phone p = ph := by
  simp [Node.phone]
theorem Node.phone_setPhone_ne (n : Node) {p q : Fin 8} (h : p ≠ q) (ph : Phone) :
    (n.setPhone p ph).phone q = n.phone q := by
  simp [Node.phone, Vector.getElem_set_ne, Fin.val_ne_of_ne h]
@[simp] theorem Node.phone_modPhone (n : Node) (p : Fin 8) (f : Phone → Phone) : (n.modPhone p f).phone p = f (n.phone p) := by
  simp [Node.modPhone]
@[simp] theorem Node.port_setPort (n : Node) (k : Fin 4) (q : PacketPort) : (n.setPort k q).port k = q := by simp [Node.port]
@[simp] theorem Node.port_modPort (n : Node) (k : Fin 4) (f : PacketPort → PacketPort) :
    (n.modPort k f).port k = f (n.port k) := by simp [Node.modPort]
@[simp] theorem Node.xfer_setXfer (n : Node) (t : Fin 4) (r : Option Transfer) : (n.setXfer t r).xfer t = r := by
  simp [Node.xfer]
theorem Node.xfer_setXfer_ne (n : Node) {t u : Fin 4} (h : t ≠ u) (r : Option Transfer) :
    (n.setXfer t r).xfer u = n.xfer u := by
  simp [Node.xfer, Vector.getElem_set_ne, Fin.val_ne_of_ne h]
@[simp] theorem Node.station_setStation (n : Node) (k : Fin 8) (x : Station) : (n.setStation k x).station k = x := by
  simp [Node.station]
@[simp] theorem Node.station_modStation (n : Node) (k : Fin 8) (f : Station → Station) :
    (n.modStation k f).station k = f (n.station k) := by simp [Node.modStation]
@[simp] theorem Node.line_get_modLine (n : Node) (l : Line) (f : LinePort → LinePort) :
    (n.modLine l f).line.get l = f (n.line.get l) := by simp

/-! ## The state -/

@[simp] theorem State.withPending_node (s : State) (q : List Instr) : (s.withPending q).node = s.node := rfl
@[simp] theorem State.withPending_link (s : State) (q : List Instr) : (s.withPending q).link = s.link := rfl
@[simp] theorem State.withPending_pending (s : State) (q : List Instr) : (s.withPending q).pending = q := rfl
@[simp] theorem State.setPins_link (s : State) (q : Pins) : (s.setPins q).link = s.link := rfl
@[simp] theorem State.setPins_pending (s : State) (q : Pins) : (s.setPins q).pending = s.pending := rfl
@[simp] theorem State.setPins_node (s : State) (q : Pins) : (s.setPins q).node = { s.node with pins := q } := rfl

end Sys2Proof.Machine
end

