-- ==== Sys2Proof/Laws/Ops.lean ====
section
/-! SUPPORT. What each shared operation can do, said once: the ends of a command (unlessHeld, onNode, handle, kick), the ordered
checks, path signals, the report queue, the bulk store's memory and the half maps. -/

namespace Sys2Proof.Machine

/-! ## The ends of a command -/

/-- A held part keeps its state. -/
theorem unlessHeld_held (s : State) (f : State → State) (h : s.node.pins.resetLow = true) : unlessHeld s f = .next s := by
  simp [unlessHeld, h]
/-- Otherwise the event is taken and an idle transmitter chooses. -/
theorem unlessHeld_awake (s : State) (f : State → State) (h : s.awake) : unlessHeld s f = .next (f s).kick := by
  simp [unlessHeld, State.awake] at *
  simp [h]
theorem onNode_awake (s : State) (f : Node → Node) (h : s.awake) : onNode s f = .next (s.became (f s.node)) := by
  rw [onNode, unlessHeld_awake s _ h]; rfl
theorem onNode_held (s : State) (f : Node → Node) (h : s.node.pins.resetLow = true) : onNode s f = .next s :=
  unlessHeld_held s _ h

/-- A request of the row is answered with what its owner gives. -/
theorem handle_asks {s : State} {i : Fin 4} {r : Request} (h : s.asks i r) {mine : Request → Bool}
    (own : Link → List Byte → Node → Answer) (hm : mine r = true) :
    handle s mine own =
      .next (s.replied i r (own s.link r.body s.node).node (own s.link r.body s.node).reply.bytes
        (own s.link r.body s.node).after) := by
  rw [handle, unlessHeld_awake s _ h.1]
  simp [h.2, hm, State.replied]
/-- A request of another row is left to its own row. -/
theorem handle_other {s : State} {i : Fin 4} {r : Request} (h : s.asks i r) {mine : Request → Bool}
    (own : Link → List Byte → Node → Answer) (hm : mine r = false) : handle s mine own = .next s.kick := by
  rw [handle, unlessHeld_awake s _ h.1]
  simp [h.2, hm]
/-- Without a request to take, nothing is taken. -/
theorem handle_none {s : State} (h : s.awake) (ho : s.link.oldest = none) (mine : Request → Bool)
    (own : Link → List Byte → Node → Answer) : handle s mine own = .next s.kick := by
  rw [handle, unlessHeld_awake s _ h]
  simp [ho]

/-! ## Path signals (R38) -/

/-- A signal may be taken when it is the first of those listed that names its side. -/
theorem PathSignal.stands_iff (g : PathSignal) (l : List PathSignal) :
    g.stands l = true ↔ l.find? (fun h => decide (h.side = g.side)) = some g := by
  simp [PathSignal.stands]; rfl
theorem PathSignal.mem_of_stands {g : PathSignal} {l : List PathSignal} (h : g.stands l = true) : g ∈ l :=
  List.mem_of_find?_eq_some ((PathSignal.stands_iff g l).1 h)
/-- Signals of the other side, listed before it or not, do not keep a signal from being taken. -/
theorem PathSignal.stands_cons_of_side_ne {g h : PathSignal} (l : List PathSignal) (ne : h.side ≠ g.side) :
    g.stands (h :: l) = g.stands l := by
  simp [PathSignal.stands, ne]

/-! ## The transmitter's choice (R192) -/

@[simp] theorem State.kick_node (s : State) : s.kick.node = s.node := by
  unfold State.kick; repeat' split
  all_goals rfl
@[simp] theorem State.kick_pending (s : State) : s.kick.pending = s.pending := by
  unfold State.kick; repeat' split
  all_goals rfl
/-- Everything the choice can do. -/
theorem State.kick_cases (s : State) :
    (s.link.tx ≠ .idle ∧ s.kick = s) ∨
    (∃ i rest, s.link.tx = .idle ∧ s.link.formed = .place i :: rest ∧
      s.kick = { s with link := { s.link with
        tx := .place i, formed := rest, places := s.link.places.set i (s.link.places[i].map Place.sent) } }) ∨
    (∃ rest, s.link.tx = .idle ∧ s.link.formed = .busy :: rest ∧
      s.kick = { s with link := { s.link with tx := .busy, formed := rest } }) ∨
    (s.link.tx = .idle ∧ s.link.formed = [] ∧ s.node.reports.queue ≠ [] ∧
      s.kick = { s with link := { s.link with tx := .report } }) ∨
    (s.link.tx = .idle ∧ s.link.formed = [] ∧ s.node.reports.queue = [] ∧ s.kick = s) := by
  unfold State.kick
  split
  · rename_i ht
    split
    · rename_i i rest hf; exact .inr (.inl ⟨i, rest, ht, hf, rfl⟩)
    · rename_i rest hf; exact .inr (.inr (.inl ⟨rest, ht, hf, rfl⟩))
    · rename_i hf
      by_cases hq : s.node.reports.queue.isEmpty
      · exact .inr (.inr (.inr (.inr ⟨ht, hf, by simpa using hq, by simp [hq]⟩)))
      · exact .inr (.inr (.inr (.inl ⟨ht, hf, by simpa using hq, by simp [hq]⟩)))
  · rename_i ht; exact .inl ⟨ht, rfl⟩

@[simp] theorem State.became_node (s : State) (n : Node) : (s.became n).node = n := by simp [State.became]
@[simp] theorem State.became_pending (s : State) (n : Node) : (s.became n).pending = s.pending := by simp [State.became]
@[simp] theorem State.replied_node (s : State) (i : Fin 4) (r : Request) (n : Node) (b : List Byte) (a : After) :
    (s.replied i r n b a).node = n := by simp [State.replied]
@[simp] theorem State.replied_pending (s : State) (i : Fin 4) (r : Request) (n : Node) (b : List Byte) (a : After) :
    (s.replied i r n b a).pending = s.pending := by simp [State.replied]

/-! ## The ordered checks (R191) -/

/-- The first check that fails gives the reply, and the node is left as it was; when none fails, the request is accepted. -/
theorem checked_cases (n : Node) (checks : List (Bool × Reply)) (accept : Answer) :
    (∃ r, firstRefusal checks = some r ∧ checked n checks accept = { node := n, reply := r }) ∨
    (firstRefusal checks = none ∧ checked n checks accept = accept) := by
  unfold checked
  cases h : firstRefusal checks with
  | some r => exact .inl ⟨r, rfl, rfl⟩
  | none => exact .inr ⟨rfl, rfl⟩
/-- No check fails when every check is passed. -/
theorem firstRefusal_eq_none (checks : List (Bool × Reply)) :
    firstRefusal checks = none ↔ ∀ c ∈ checks, c.1 = false := by
  simp [firstRefusal]

/-! ## The report queue (R193) -/

theorem Reports.offer_room (r : Reports) (b : ReportBody) (t : BitVec 32) (h : r.queue.length < 32) :
    r.offer b t = { queue := r.queue ++ [⟨b, t, r.lostMark⟩], lostMark := false, lost := r.lost } := by
  simp [Reports.offer, Config.reportPlaces, h]
theorem Reports.offer_full (r : Reports) (b : ReportBody) (t : BitVec 32) (h : 32 ≤ r.queue.length) :
    r.offer b t = { queue := r.queue, lostMark := true, lost := sat16 r.lost } := by
  simp [Reports.offer, Config.reportPlaces, Nat.not_lt.mpr h]
/-- Reports only join the end of the queue. -/
theorem Reports.offer_prefix (r : Reports) (b : ReportBody) (t : BitVec 32) : r.queue <+: (r.offer b t).queue := by
  unfold Reports.offer; split
  · exact List.prefix_append _ _
  · exact List.prefix_rfl
theorem Reports.offer_length (r : Reports) (b : ReportBody) (t : BitVec 32) (h : r.queue.length ≤ 32) :
    (r.offer b t).queue.length ≤ 32 := by
  unfold Reports.offer Config.reportPlaces; split <;> simp <;> omega

/-! ## The bulk store's memory (R155, R156) -/

theorem Memory.wf_cons (c : Host.Cell) (m : Memory) :
    Memory.wf (c :: m) = true ↔ c.2 ≠ 0 ∧ (∀ d ∈ m, c.1 < d.1) ∧ Memory.wf m = true := by
  simp [Memory.wf, and_assoc]

theorem Memory.mem_write {m : Memory} {a : Nat} {b : Byte} {d : Host.Cell} (h : d ∈ Memory.write m a b) :
    d = (a, b) ∨ d ∈ m := by
  induction m with
  | nil => unfold Memory.write at h; split at h <;> simp_all
  | cons c m ih =>
    unfold Memory.write at h
    repeat' split at h
    all_goals simp only [List.mem_cons] at *
    all_goals rcases h with h | h
    all_goals simp_all
    all_goals tauto

/-- A write keeps the canonical form. -/
theorem Memory.wf_write (m : Memory) (a : Nat) (b : Byte) (h : Memory.wf m = true) : Memory.wf (Memory.write m a b) = true := by
  induction m with
  | nil => unfold Memory.write; split <;> simp_all [Memory.wf]
  | cons c m ih =>
    have hc := (Memory.wf_cons c m).1 h
    unfold Memory.write
    split
    · rename_i hlt
      split
      · exact h
      · rename_i hb
        refine (Memory.wf_cons _ _).2 ⟨hb, fun d hd => ?_, h⟩
        rcases List.mem_cons.1 hd with rfl | hd
        · exact hlt
        · exact Nat.lt_trans hlt (hc.2.1 d hd)
    · split
      · rename_i hge heq
        split
        · exact hc.2.2
        · rename_i hb; exact (Memory.wf_cons _ _).2 ⟨hb, fun d hd => heq ▸ hc.2.1 d hd, hc.2.2⟩
      · rename_i hge hne
        refine (Memory.wf_cons _ _).2 ⟨hc.1, fun d hd => ?_, ih hc.2.2⟩
        rcases Memory.mem_write hd with rfl | hd
        · omega
        · exact hc.2.1 d hd

theorem Memory.read_nil (a : Nat) : Memory.read [] a = 0 := rfl
theorem Memory.read_cons (c : Host.Cell) (m : Memory) (a : Nat) :
    Memory.read (c :: m) a = if c.1 = a then c.2 else Memory.read m a := by
  by_cases h : c.1 = a <;> simp [Memory.read, h]
theorem Memory.read_absent (m : Memory) (a : Nat) (h : ∀ d ∈ m, d.1 ≠ a) : Memory.read m a = 0 := by
  induction m with
  | nil => rfl
  | cons c m ih =>
    rw [Memory.read_cons, if_neg (h c (by simp))]
    exact ih fun d hd => h d (by simp [hd])

/-- A read after a write gives the byte written there, and every other address reads as before. -/
theorem Memory.read_write (m : Memory) (a : Nat) (b : Byte) (x : Nat) (h : Memory.wf m = true) :
    Memory.read (Memory.write m a b) x = if x = a then b else Memory.read m x := by
  induction m with
  | nil =>
    unfold Memory.write
    split
    · rename_i hb; subst hb; split <;> rfl
    · rw [Memory.read_cons]; simp [eq_comm]
  | cons c m ih =>
    have hc := (Memory.wf_cons c m).1 h
    unfold Memory.write
    split
    · rename_i hlt
      have habs : Memory.read (c :: m) a = 0 := by
        refine Memory.read_absent _ _ fun d hd => ?_
        rcases List.mem_cons.1 hd with rfl | hd
        · omega
        · have := hc.2.1 d hd; omega
      split
      · rename_i hb; subst hb; split
        · rename_i hx; rw [hx, habs]
        · rfl
      · rw [Memory.read_cons]; simp [eq_comm]
    · split
      · rename_i hge heq
        subst heq
        have habs : Memory.read m c.1 = 0 := Memory.read_absent _ _ fun d hd => by have := hc.2.1 d hd; omega
        split
        · rename_i hb; subst hb
          by_cases hx : x = c.1
          · rw [if_pos hx, hx, habs]
          · rw [if_neg hx, Memory.read_cons, if_neg (Ne.symm hx)]
        · by_cases hx : x = c.1
          · rw [if_pos hx, Memory.read_cons, if_pos hx.symm]
          · rw [if_neg hx, Memory.read_cons, if_neg (Ne.symm hx), Memory.read_cons, if_neg (Ne.symm hx)]
      · rename_i hge hne
        rw [Memory.read_cons, Memory.read_cons, ih hc.2.2]
        by_cases hx : x = a
        · subst hx; simp [Ne.symm hne]
        · simp [hx]

theorem Memory.wf_writePage (bs : List Byte) (m : Memory) (blocks : List Nat) (o : Nat) (h : Memory.wf m = true) :
    Memory.wf (writePage m blocks o bs) = true := by
  induction bs generalizing m o with
  | nil => exact h
  | cons b bs ih => exact ih _ _ (Memory.wf_write m _ b h)
theorem State.reset_store_wf : Memory.wf State.reset.node.te.store = true := rfl

/-! ## Half maps (R55, R74) -/

/-- A half after `id` takes a set: its owner is `id` if the half is in the set, none if it was `id`'s and is not, and as it was
otherwise. -/
theorem ownHalf_eq (id : Nat) (inSet : Bool) (o : Option Nat) :
    ownHalf id inSet o = if inSet = true then some id else if o = some id then none else o := rfl
/-- `id` owns exactly the halves of the set, in the cells that the map lists; no other owner gains a half. -/
theorem setOwner_cells (m : List HalfEntry) (id : Nat) (h : HalfSet) : (setOwner m id h).map (·.cell) = m.map (·.cell) := by
  simp [setOwner, Function.comp_def]
theorem entryOf_setOwner (m : List HalfEntry) (id : Nat) (h : HalfSet) (c : Nat) :
    entryOf (setOwner m id h) c =
      (entryOf m c).map fun e => { e with a := ownHalf id (h.a.contains c) e.a, b := ownHalf id (h.b.contains c) e.b } := by
  induction m with
  | nil => rfl
  | cons e m ih =>
    simp only [setOwner, entryOf, List.map_cons, List.find?_cons] at *
    by_cases he : e.cell = c
    · subst he; simp only [beq_self_eq_true, Option.map_some]
    · have hb : (e.cell == c) = false := by simp [he]
      simp only [hb, ih]

/-! ## Ordered lists -/

theorem mem_insertBy {α : Type} (le : α → α → Bool) (x y : α) (l : List α) : y ∈ insertBy le x l ↔ y = x ∨ y ∈ l := by
  induction l with
  | nil => simp [insertBy]
  | cons z l ih =>
    unfold insertBy
    split
    · simp
    · simp [ih]; tauto
/-- An entry whose number no other has is inserted in its place. -/
theorem insertBy_ascending {α : Type} (num : α → Nat) (x : α) (l : List α) (h : l.Pairwise (num · < num ·))
    (hx : ∀ y ∈ l, num y ≠ num x) : (insertBy (fun a b => decide (num a ≤ num b)) x l).Pairwise (num · < num ·) := by
  induction l with
  | nil => simp [insertBy]
  | cons z l ih =>
    have hz := List.pairwise_cons.1 h
    unfold insertBy
    split
    · rename_i hle
      have hlt : num x < num z := by
        have := hx z (by simp)
        have := of_decide_eq_true hle
        omega
      refine List.pairwise_cons.2 ⟨fun y hy => ?_, h⟩
      rcases List.mem_cons.1 hy with rfl | hy
      · exact hlt
      · exact Nat.lt_trans hlt (hz.1 y hy)
    · rename_i hle
      refine List.pairwise_cons.2 ⟨fun y hy => ?_, ih hz.2 fun y hy => hx y (by simp [hy])⟩
      rcases (mem_insertBy _ _ _ _).1 hy with rfl | hy
      · have : ¬ num y ≤ num z := by simpa using hle
        omega
      · exact hz.1 y hy
/-- Entering or replacing a record keeps the table's order (R64). -/
theorem Node.putSvc_ascending (n : Node) (v : Service) (h : n.au.services.Pairwise (·.id < ·.id)) :
    (n.putSvc v).au.services.Pairwise (·.id < ·.id) := by
  refine insertBy_ascending Service.id v _ (h.filter _) fun y hy => ?_
  simpa using (List.mem_filter.1 hy).2

end Sys2Proof.Machine
end

