-- ==== Sys2Proof/Laws/Traffic.lean ====
section
/-! SUPPORT. What the blocks behind the lines can do: the admission unit, the cell switch's staging, the call controller, the
packet engine, the transfer engine and the poll controller never change the inputs, the clock, the operating state, the run
time, the settings, the lines, the paths or the path signals; reports only join the queue; the bulk store keeps its form. -/

namespace Sys2Proof.Machine

/-- What an event behind the lines may do to the node. -/
structure Node.Traffic (n m : Node) : Prop where
  pins : m.pins = n.pins
  clk : m.clk = n.clk
  op : m.op = n.op
  runTime : m.runTime = n.runTime
  cfg : m.cfg = n.cfg
  line : m.line = n.line
  path : m.path = n.path
  timing : m.timing = n.timing
  sig : m.sig = n.sig
  grows : n.reports.queue <+: m.reports.queue
  bound : n.reports.queue.length ≤ 32 → m.reports.queue.length ≤ 32
  store : Memory.wf n.te.store = true → Memory.wf m.te.store = true
  allotCells : m.au.allot.map (·.cell) = n.au.allot.map (·.cell)
  liveCells : m.cs.live.map (·.cell) = n.cs.live.map (·.cell)
  services : n.au.services.Pairwise (·.id < ·.id) → m.au.services.Pairwise (·.id < ·.id)

namespace Node.Traffic

theorem refl (n : Node) : n.Traffic n :=
  ⟨rfl, rfl, rfl, rfl, rfl, rfl, rfl, rfl, rfl, List.prefix_rfl, id, id, rfl, rfl, id⟩
theorem trans {a b c : Node} (h : a.Traffic b) (k : b.Traffic c) : a.Traffic c :=
  ⟨k.pins.trans h.pins, k.clk.trans h.clk, k.op.trans h.op, k.runTime.trans h.runTime, k.cfg.trans h.cfg, k.line.trans h.line,
    k.path.trans h.path, k.timing.trans h.timing, k.sig.trans h.sig, h.grows.trans k.grows, fun w => k.bound (h.bound w),
    fun w => k.store (h.store w), k.allotCells.trans h.allotCells, k.liveCells.trans h.liveCells,
    fun w => k.services (h.services w)⟩
theorem ite {n a b : Node} {c : Prop} [Decidable c] (ha : n.Traffic a) (hb : n.Traffic b) : n.Traffic (if c then a else b) := by
  split
  · exact ha
  · exact hb
theorem foldl {α : Type} (f : Node → α → Node) (hf : ∀ (n : Node) (x : α), n.Traffic (f n x)) (l : List α) (n : Node) :
    n.Traffic (l.foldl f n) := by
  induction l generalizing n with
  | nil => exact refl n
  | cons x l ih => exact (hf n x).trans (ih _)

end Node.Traffic

open Node.Traffic

/-- A record of the blocks behind the lines is replaced. -/
theorem Node.traffic_of_blocks (n : Node) (au : Admission) (cs : CellSwitch) (cc : Calls) (pe : PacketEngine)
    (te : TransferEngine) (pc : PollController) (h : te.store = n.te.store)
    (ha : au.allot.map (·.cell) = n.au.allot.map (·.cell))
    (hl : cs.live.map (·.cell) = n.cs.live.map (·.cell))
    (hs : n.au.services.Pairwise (·.id < ·.id) → au.services.Pairwise (·.id < ·.id)) :
    n.Traffic { n with au := au, cs := cs, cc := cc, pe := pe, te := te, pc := pc } :=
  ⟨rfl, rfl, rfl, rfl, rfl, rfl, rfl, rfl, rfl, List.prefix_rfl, id, fun w => h ▸ w, ha, hl, hs⟩

theorem Node.report_traffic (n : Node) (b : ReportBody) : n.Traffic (n.report b) :=
  ⟨rfl, rfl, rfl, rfl, rfl, rfl, rfl, rfl, rfl, Reports.offer_prefix _ _ _, Reports.offer_length _ _ _, id, rfl, rfl, id⟩
theorem Node.modSwitch_traffic (n : Node) (l : Line) (f : SwitchLine → SwitchLine) : n.Traffic (n.modSwitch l f) :=
  n.traffic_of_blocks _ _ _ _ _ _ rfl rfl rfl fun w => w
theorem Node.setPhone_traffic (n : Node) (p : Fin 8) (ph : Phone) : n.Traffic (n.setPhone p ph) :=
  n.traffic_of_blocks _ _ _ _ _ _ rfl rfl rfl fun w => w
theorem Node.modPhone_traffic (n : Node) (p : Fin 8) (f : Phone → Phone) : n.Traffic (n.modPhone p f) :=
  n.setPhone_traffic _ _
theorem Node.modPort_traffic (n : Node) (k : Fin 4) (f : PacketPort → PacketPort) : n.Traffic (n.modPort k f) :=
  n.traffic_of_blocks _ _ _ _ _ _ rfl rfl rfl fun w => w
theorem Node.setXfer_traffic (n : Node) (t : Fin 4) (r : Option Transfer) : n.Traffic (n.setXfer t r) :=
  n.traffic_of_blocks _ _ _ _ _ _ rfl rfl rfl fun w => w
theorem Node.setStation_traffic (n : Node) (k : Fin 8) (x : Station) : n.Traffic (n.setStation k x) :=
  n.traffic_of_blocks _ _ _ _ _ _ rfl rfl rfl fun w => w
theorem Node.modStation_traffic (n : Node) (k : Fin 8) (f : Station → Station) : n.Traffic (n.modStation k f) :=
  n.setStation_traffic _ _
theorem Node.setPe_traffic (n : Node) (v : PeService) : n.Traffic (n.setPe v) := n.traffic_of_blocks _ _ _ _ _ _ rfl rfl rfl fun w => w
theorem Node.putSvc_traffic (n : Node) (v : Service) : n.Traffic (n.putSvc v) :=
  n.traffic_of_blocks _ _ _ _ _ _ rfl rfl rfl (n.putSvc_ascending v)
theorem Node.dropSvc_traffic (n : Node) (id : Nat) : n.Traffic (n.dropSvc id) :=
  n.traffic_of_blocks _ _ _ _ _ _ rfl rfl rfl fun w => w.filter _
theorem Node.setOwner_traffic (n : Node) (id : Nat) (h : HalfSet) :
    n.Traffic { n with au := { n.au with allot := setOwner n.au.allot id h } } :=
  n.traffic_of_blocks _ n.cs n.cc n.pe n.te n.pc rfl (setOwner_cells _ _ _) rfl fun w => w

/-! ## Packet engine -/

theorem Node.offerFrame_traffic (n : Node) (id : Nat) (data : List Byte) : n.Traffic (n.offerFrame id data).1 := by
  unfold Node.offerFrame
  repeat' split
  all_goals first | exact n.setPe_traffic _ | exact refl n
theorem Node.toReceiveQueue_traffic (n : Node) (k : Fin 4) (f : ChannelFrame) : n.Traffic (n.toReceiveQueue k f) :=
  n.modPort_traffic _ _
theorem Node.peApplied_traffic (n : Node) (id : Nat) (h : HalfSet) : n.Traffic (n.peApplied id h) := by
  unfold Node.peApplied; split
  · exact n.setPe_traffic _
  · exact refl n
theorem Node.reselectDual_traffic (n : Node) : n.Traffic n.reselectDual := n.traffic_of_blocks _ _ _ _ _ _ rfl rfl rfl fun w => w
theorem Node.openPe_traffic (n : Node) (id : Nat) : n.Traffic (n.openPe id) := n.traffic_of_blocks _ _ _ _ _ _ rfl rfl rfl fun w => w

/-! ## Transfer engine -/

theorem Node.offerState_traffic (n : Node) (t : Fin 4) : n.Traffic (n.offerState t) := by
  unfold Node.offerState
  split
  · exact refl n
  · split
    · exact (n.offerFrame_traffic _ _).trans (Node.setXfer_traffic _ _ _)
    · exact refl n
theorem Node.transferTo_traffic (n : Node) (t : Fin 4) (old : Option TransferState) (r : Transfer) (c : TransferCause) :
    n.Traffic (n.transferTo t old r c) := (n.setXfer_traffic _ _).trans (Node.report_traffic _ _)
theorem Node.resumeOne_traffic (n : Node) (t : Fin 4) : n.Traffic (n.resumeOne t) := by
  unfold Node.resumeOne; split
  · exact (n.transferTo_traffic _ _ _ _).trans (Node.offerState_traffic _ _)
  · exact refl n
theorem Node.resumeStore_traffic (n : Node) : n.Traffic n.resumeStore := foldl _ Node.resumeOne_traffic _ _
@[simp] theorem Node.resumeIf_false (n : Node) : n.resumeIf false = n := rfl
@[simp] theorem Node.resumeIf_true (n : Node) : n.resumeIf true = n.resumeStore := rfl
/-- An event that leaves every open transfer open frees no blocks by a closing. -/
theorem Node.closedBy_eq_false (n m : Node) (h : ∀ t, (n.xfer t).isSome = true → (m.xfer t).isSome = true) :
    n.closedBy m = false := by
  refine List.any_eq_false.2 fun t _ ht => ?_
  have hs := h t
  revert ht hs
  cases n.xfer t <;> cases m.xfer t <;> simp
@[simp] theorem Node.closedBy_self (n : Node) : n.closedBy n = false := n.closedBy_eq_false n fun _ h => h
theorem Node.resumeIf_traffic (n : Node) (freed : Bool) : n.Traffic (n.resumeIf freed) :=
  ite n.resumeStore_traffic (refl n)
theorem Node.closeRecord_traffic (n : Node) (t : Fin 4) (r : Transfer) (last : TransferState) (c : TransferCause)
    (why : Option AbortReason) : n.Traffic (n.closeRecord t r last c why) :=
  (n.setXfer_traffic _ _).trans (Node.report_traffic _ _)
theorem Node.closeTransfer_traffic (n : Node) (t : Fin 4) : n.Traffic (n.closeTransfer t) := by
  unfold Node.closeTransfer; split
  · exact refl n
  · exact ((n.setXfer_traffic _ _).trans (Node.offerState_traffic _ _)).trans (Node.closeRecord_traffic _ _ _ _ _ _)
theorem Node.abortTransfer_traffic (n : Node) (t : Fin 4) (why : AbortReason) : n.Traffic (n.abortTransfer t why) := by
  unfold Node.abortTransfer; split
  · exact refl n
  · refine Node.Traffic.trans ?_ (Node.closeRecord_traffic _ _ _ _ _ _)
    exact ite ((n.setXfer_traffic _ _).trans (Node.offerState_traffic _ _)) (refl n)
theorem Node.hostAbort_traffic (n : Node) (t : Fin 4) : n.Traffic (n.hostAbort t) :=
  (n.abortTransfer_traffic t _).trans (Node.resumeIf_traffic _ _)
theorem Node.offerIf_traffic (n : Node) (t : Fin 4) (want : Bool) : n.Traffic (n.offerIf t want) :=
  ite (n.offerState_traffic t) (refl n)
theorem Node.waitTarget_traffic (n : Node) (t : Fin 4) (r : Transfer) : n.Traffic (n.waitTarget t r) :=
  n.transferTo_traffic _ _ _ _
theorem Node.handChunk_traffic (n : Node) (t : Fin 4) (r : Transfer) (k : Fin 4) (channel : Nat) :
    n.Traffic (n.handChunk t r k channel) := (n.modPort_traffic _ _).trans (Node.setXfer_traffic _ _ _)
theorem deliverLoop_traffic (fuel : Nat) (n : Node) (t : Fin 4) (want : Bool) : n.Traffic (deliverLoop fuel n t want) := by
  induction fuel generalizing n with
  | zero => exact n.offerIf_traffic _ _
  | succ fuel ih =>
    unfold deliverLoop
    split
    · exact refl n
    · split
      · exact n.offerIf_traffic _ _
      · split
        · exact n.closeTransfer_traffic _
        · split
          · exact ite ((n.setXfer_traffic _ _).trans (ih _)) (n.closeTransfer_traffic _)
          · split
            · exact (n.waitTarget_traffic _ _).trans (Node.offerState_traffic _ _)
            · exact ite ((n.handChunk_traffic _ _ _ _).trans (ih _)) (n.offerIf_traffic _ _)
theorem Node.deliver_traffic (n : Node) (t : Fin 4) (want : Bool) : n.Traffic (n.deliver t want) := deliverLoop_traffic _ _ _ _
theorem Node.roomOn_traffic (n : Node) (k : Fin 4) : n.Traffic (n.roomOn k) := by
  refine (foldl _ (fun n t => ?_) _ _).trans (Node.resumeIf_traffic _ _)
  unfold Node.roomOne; split
  · exact ite (n.deliver_traffic _ _) (refl n)
  · exact refl n
theorem Node.readyOn_traffic (n : Node) (k : Fin 4) : n.Traffic (n.readyOn k) := by
  refine (foldl _ (fun n t => ?_) _ _).trans (Node.resumeIf_traffic _ _)
  unfold Node.readyOne; split
  · refine ite (ite ?_ (ite ?_ (refl n))) (refl n)
    · exact (n.waitTarget_traffic _ _).trans (Node.offerState_traffic _ _)
    · exact (n.transferTo_traffic _ _ _ _).trans (Node.deliver_traffic _ _ _)
  · exact refl n
theorem Node.appendSegment_traffic (n : Node) (t : Fin 4) (r : Transfer) (data : List Byte) :
    n.Traffic (n.appendSegment t r data) := by
  unfold Node.appendSegment
  dsimp only
  split
  · exact (n.transferTo_traffic _ _ _ _).trans (Node.offerState_traffic _ _)
  · rename_i blocks _
    refine Node.Traffic.trans (b := { n with te := { n.te with store := writePage n.te.store blocks r.received data } })
      ⟨rfl, rfl, rfl, rfl, rfl, rfl, rfl, rfl, rfl, List.prefix_rfl, id, Memory.wf_writePage _ _ _ _, rfl, rfl, id⟩ ?_
    exact ite ((Node.transferTo_traffic _ _ _ _ _).trans (Node.deliver_traffic _ _ _))
      ((Node.setXfer_traffic _ _ _).trans (Node.offerIf_traffic _ _ _))
theorem Node.judgeSegment_traffic (n : Node) (t : Fin 4) (r : Transfer) (o : Nat) (data : List Byte) :
    n.Traffic (n.judgeSegment t r o data) := by
  unfold Node.judgeSegment
  refine ite ((n.setXfer_traffic _ _).trans (Node.offerState_traffic _ _)) (ite (n.setXfer_traffic _ _) (ite ?_ ?_))
  · exact (n.setXfer_traffic _ _).trans (Node.offerState_traffic _ _)
  · exact n.appendSegment_traffic _ _ _
theorem Node.segment_traffic (n : Node) (id : Nat) (frame : List Byte) : n.Traffic (n.segment id frame) := by
  have hc (te : TransferEngine) (h : te.store = n.te.store) : n.Traffic { n with te := te } :=
    n.traffic_of_blocks n.au n.cs n.cc n.pe te n.pc h rfl rfl fun w => w
  unfold Node.segment
  dsimp only
  repeat' split
  all_goals first
    | exact hc _ rfl
    | exact n.judgeSegment_traffic _ _ _ _
    | exact (n.setXfer_traffic _ _).trans (Node.offerState_traffic _ _)
theorem Node.transferShed_traffic (n : Node) (id : Nat) : n.Traffic (n.transferShed id) := by
  unfold Node.transferShed
  split
  · exact refl n
  · split
    · exact ite (n.transferTo_traffic _ _ _ _) (refl n)
    · exact refl n
theorem Node.transferPlaced_traffic (n : Node) (id : Nat) : n.Traffic (n.transferPlaced id) := by
  unfold Node.transferPlaced
  split
  · exact refl n
  · split
    · exact ite ((n.transferTo_traffic _ _ _ _).trans (Node.offerState_traffic _ _)) (refl n)
    · exact refl n
theorem Node.stateTimerEnd_traffic (n : Node) (t : Fin 4) : n.Traffic (n.stateTimerEnd t) := by
  unfold Node.stateTimerEnd; split
  · exact ite ((n.setXfer_traffic _ _).trans (Node.offerState_traffic _ _)) (refl n)
  · exact refl n

/-! ## Readings -/

theorem Node.forwardReading_traffic (n : Node) (k : Fin 8) : n.Traffic (n.forwardReading k) := by
  unfold Node.forwardReading
  split
  · exact refl n
  · split
    · exact n.modStation_traffic _ _
    · exact (n.offerFrame_traffic _ _).trans (Node.modStation_traffic _ _ _)
theorem Node.catchUp_traffic (n : Node) : n.Traffic n.catchUp :=
  foldl _ (fun n k => ite (n.forwardReading_traffic k) (refl n)) _ _
theorem Node.weatherPlaced_traffic (n : Node) (id : Nat) : n.Traffic (n.weatherPlaced id) :=
  ite n.catchUp_traffic (refl n)

/-! ## Cell switch -/

theorem Node.handHalves_traffic (n : Node) (id : Nat) (cls : Class) (h : HalfSet) : n.Traffic (n.handHalves id cls h) :=
  n.traffic_of_blocks _ _ _ _ _ _ rfl rfl rfl fun w => w
theorem Node.tellServing_traffic (n : Node) (id : Nat) (h : HalfSet) : n.Traffic (n.tellServing id h) :=
  ite (n.peApplied_traffic _ _) (n.modPhone_traffic _ _)
theorem Node.applyRecord_traffic (n : Node) (r : Staging) : n.Traffic (n.applyRecord r) :=
  (n.traffic_of_blocks n.au { n.cs with live := setOwner n.cs.live r.id r.set, staging := n.cs.staging.filter (·.id != r.id) }
    n.cc n.pe n.te n.pc rfl rfl (setOwner_cells _ _ _) fun w => w).trans (Node.tellServing_traffic _ _ _)
theorem Node.stagingApply_traffic (n : Node) : n.Traffic n.stagingApply := by
  unfold Node.stagingApply; split
  · exact ite (n.applyRecord_traffic _) (refl n)
  · exact refl n
theorem Node.applyDue_traffic (n : Node) : n.Traffic n.applyDue := foldl _ (fun n _ => n.stagingApply_traffic) _ _
theorem Node.lineHoldEnd_traffic (n : Node) (l : Line) : n.Traffic (n.lineHoldEnd l) :=
  ite (n.modSwitch_traffic _ _) (refl n)
theorem Node.nodeConflict_traffic (n : Node) (l : Line) : n.Traffic (n.nodeConflict l) := by
  unfold Node.nodeConflict
  dsimp only
  have h := n.traffic_of_blocks n.au { n.cs with conflicts := sat16 n.cs.conflicts, conflictAge := some 0 } n.cc n.pe n.te n.pc rfl rfl rfl fun w => w
  exact ite (h.trans (Node.report_traffic _ _)) h
theorem Node.noticeConfirmed_traffic (n : Node) (l : Line) (f : List Byte) : n.Traffic (n.noticeConfirmed l f) := by
  unfold Node.noticeConfirmed
  refine ite (refl n) (ite (n.nodeConflict_traffic l) (ite (refl n) ?_))
  exact (ite (n.modSwitch_traffic _ _) (refl n)).trans (Node.modSwitch_traffic _ _ _)
theorem Node.noticeDisabled_traffic (n : Node) (l : Line) : n.Traffic (n.noticeDisabled l) := by
  unfold Node.noticeDisabled
  dsimp only
  split
  · exact (n.modSwitch_traffic _ _).trans (Node.modSwitch_traffic _ _ _)
  · exact n.modSwitch_traffic _ _
theorem Node.lineFails_traffic (n : Node) (l : Line) : n.Traffic (n.lineFails l) := n.modSwitch_traffic _ _

/-! ## Admission unit -/

theorem Node.takeCells_traffic (n : Node) (v : Service) (cells : List Nat) : n.Traffic (n.takeCells v cells) :=
  ((n.setOwner_traffic _ _).trans (Node.putSvc_traffic _ _)).trans (Node.handHalves_traffic _ _ _ _)
theorem Node.freeHalves_traffic (n : Node) (v : Service) : n.Traffic (n.freeHalves v) :=
  (n.setOwner_traffic _ _).trans (Node.putSvc_traffic _ _)
theorem Node.svcEvent_traffic (n : Node) (v : Service) (old : Option SvcState) (c : SvcCause) :
    n.Traffic (n.svcEvent v old c) := n.report_traffic _
theorem Node.svcEventOf_traffic (n : Node) (id : Nat) (old : Option SvcState) (c : SvcCause) :
    n.Traffic (n.svcEventOf id old c) := by
  unfold Node.svcEventOf; split
  · exact n.svcEvent_traffic _ _ _
  · exact refl n
theorem Node.countAdmission_traffic (n : Node) : n.Traffic n.countAdmission := n.traffic_of_blocks _ _ _ _ _ _ rfl rfl rfl fun w => w
theorem Node.countShed_traffic (n : Node) : n.Traffic n.countShed := n.traffic_of_blocks _ _ _ _ _ _ rfl rfl rfl fun w => w
theorem Node.shed_traffic (n : Node) (v : Service) (why : ShedReason) : n.Traffic (n.shed v why) :=
  (((((n.freeHalves_traffic v).trans (Node.countShed_traffic _)).trans (Node.putSvc_traffic _ _)).trans
    (Node.handHalves_traffic _ _ _ _)).trans (Node.svcEvent_traffic _ _ _ _)).trans (Node.transferShed_traffic _ _)
theorem Node.shedId_traffic (n : Node) (id : Nat) (why : ShedReason) : n.Traffic (n.shedId id why) := by
  unfold Node.shedId; split
  · exact n.shed_traffic _ _
  · exact refl n
theorem Node.preemptCells_traffic {n : Node} {v : Service} {x : Side} {g : Nat} {r : Node × List Nat}
    (h : n.preemptCells v x g = some r) : n.Traffic r.1 := by
  unfold Node.preemptCells at h
  dsimp only at h
  split at h
  · cases h; exact foldl _ (fun m id => m.shedId_traffic id _) _ _
  · cases h
theorem Node.attempt_traffic {n : Node} {v : Service} {x : Side} {t : Attempt} {r : Room} (h : n.attempt v x t = some r) :
    n.Traffic r.node := by
  unfold Node.attempt at h
  repeat' split at h
  · obtain ⟨q, hq, rfl⟩ := Option.map_eq_some_iff.1 h
    exact Node.preemptCells_traffic hq
  · cases h
  · obtain ⟨q, hq, rfl⟩ := Option.map_eq_some_iff.1 h
    exact refl n
theorem Node.attempts_traffic {n : Node} {v : Service} {x : Side} {l : List Attempt} {r : Room}
    (h : n.attempts v x l = some r) : n.Traffic r.node := by
  obtain ⟨t, -, ht⟩ := List.exists_of_findSome?_eq_some h
  exact Node.attempt_traffic ht
theorem Node.placeNew_traffic (r : Room) (v : Service) (x : Side) : r.node.Traffic (Node.placeNew r v x) :=
  (r.node.countAdmission_traffic).trans (Node.takeCells_traffic _ _ _)
theorem Node.callPlacement_traffic {n m : Node} {p : Fin 8} (h : n.callPlacement p = some m) : n.Traffic m := by
  unfold Node.callPlacement at h
  dsimp only at h
  obtain ⟨r, hr, rfl⟩ := Option.map_eq_some_iff.1 h
  exact ((Node.attempts_traffic hr).trans (Node.placeNew_traffic _ _ _)).trans (Node.svcEventOf_traffic _ _ _ _)

/-! ## Calls opened by a placement -/

theorem Node.callEvent_traffic (n : Node) (p : Fin 8) (old : CallState) (o : CallOutcome) : n.Traffic (n.callEvent p old o) :=
  n.report_traffic _
theorem Node.openCall_traffic (n : Node) (p : Fin 8) : n.Traffic (n.openCall p) :=
  ((n.traffic_of_blocks n.au n.cs _ n.pe n.te n.pc rfl rfl rfl fun w => w).trans (Node.modPhone_traffic _ _ _)).trans (Node.callEvent_traffic _ _ _ _)

/-! ## The restoration pass -/

theorem passCalls_traffic (l : List (Fin 8)) (q : Pass) : q.node.Traffic (passCalls l q).node := by
  induction l generalizing q with
  | nil => exact refl _
  | cons p l ih =>
    unfold passCalls; split
    · rename_i m hm
      exact ((Node.callPlacement_traffic hm).trans (Node.openCall_traffic _ _)).trans
        (ih { q with node := m.openCall p, placed := q.placed + 1 })
    · exact refl _
theorem Pass.restore_traffic (q : Pass) (id : Nat) : q.node.Traffic (q.restore id).node := by
  unfold Pass.restore
  split
  · exact refl _
  · split
    · exact refl _
    · split
      · exact refl _
      · split
        · exact refl _
        · rename_i r hr
          exact (((((Node.attempts_traffic hr).trans (Node.placeNew_traffic _ _ _)).trans
            (Node.svcEventOf_traffic _ _ _ _)).trans (Node.transferPlaced_traffic _ _)).trans (Node.weatherPlaced_traffic _ _))
theorem Pass.grow_traffic (q : Pass) (id : Nat) : q.node.Traffic (q.grow id).node := by
  unfold Pass.grow
  split
  · exact refl _
  · split
    · exact refl _
    · exact (Node.takeCells_traffic _ _ _).trans (Node.svcEventOf_traffic _ _ _ _)
theorem Node.moveHome_traffic {n m : Node} {v : Service} (h : n.moveHome v = some m) : n.Traffic m := by
  obtain ⟨cs, -, rfl⟩ := Option.map_eq_some_iff.1 h
  exact (Node.takeCells_traffic _ _ _).trans (Node.svcEventOf_traffic _ _ _ _)
theorem Pass.home_traffic (q : Pass) (id : Nat) : q.node.Traffic (q.home id).node := by
  unfold Pass.home; split
  · rename_i m hm
    obtain ⟨v, -, hv⟩ := Option.bind_eq_some_iff.1 hm
    exact Node.moveHome_traffic hv
  · exact refl _
theorem Pass.foldl_traffic {α : Type} (f : Pass → α → Pass) (hf : ∀ (q : Pass) (x : α), q.node.Traffic (f q x).node) (l : List α) (q : Pass) :
    q.node.Traffic (l.foldl f q).node := by
  induction l generalizing q with
  | nil => exact refl _
  | cons x l ih => exact (hf q x).trans (ih _)
theorem Pass.steps_traffic (q : Pass) : q.node.Traffic q.steps.node :=
  (((passCalls_traffic _ { q with moved := false }).trans (Pass.foldl_traffic _ Pass.restore_traffic _ _)).trans
    (Pass.foldl_traffic _ Pass.grow_traffic _ _)).trans (Pass.foldl_traffic _ Pass.home_traffic _ _)
theorem passLoop_traffic (fuel : Nat) (q : Pass) : q.node.Traffic (passLoop fuel q).node := by
  induction fuel generalizing q with
  | zero => exact refl _
  | succ fuel ih =>
    unfold passLoop
    dsimp only
    split
    · exact q.steps_traffic.trans (ih _)
    · exact q.steps_traffic
theorem Node.pass_traffic (n : Node) : n.Traffic n.pass := passLoop_traffic _ { node := n }

/-! ## Reroute, revert, definition, release -/

theorem Node.rerouteOne_traffic (n : Node) (x : Side) (id : Nat) : n.Traffic (n.rerouteOne x id) := by
  unfold Node.rerouteOne
  split
  · exact refl n
  · dsimp only
    split
    · split
      · rename_i r hr
        exact (((n.freeHalves_traffic _).trans (Node.attempts_traffic hr)).trans (Node.takeCells_traffic _ _ _)).trans
          (Node.svcEventOf_traffic _ _ _ _)
      · exact (n.freeHalves_traffic _).trans (Node.shed_traffic _ _ _)
    · exact (n.freeHalves_traffic _).trans (Node.shed_traffic _ _ _)
theorem Node.reroute_traffic (n : Node) (x : Side) : n.Traffic (n.reroute x) :=
  ite (refl n) ((foldl _ (fun n id => n.rerouteOne_traffic x id) _ _).trans (Node.pass_traffic _))
theorem Node.revertOne_traffic (n : Node) (id : Nat) : n.Traffic (n.revertOne id) := by
  unfold Node.revertOne; split
  · exact refl n
  · rename_i v _
    cases h : n.moveHome v with
    | some m => exact Node.moveHome_traffic h
    | none => exact n.svcEvent_traffic _ _ _
theorem Node.revert_traffic (n : Node) (x : Side) : n.Traffic (n.revert x) :=
  (foldl _ Node.revertOne_traffic _ _).trans (Node.pass_traffic _)
theorem Node.defineShed_traffic (n : Node) (v : Service) (why : ShedReason) : n.Traffic (n.defineShed v why) :=
  (((n.countShed_traffic).trans (Node.putSvc_traffic _ _)).trans (Node.openPe_traffic _ _)).trans (Node.svcEvent_traffic _ _ _ _)
theorem Node.define_traffic {n m : Node} {v : Service} (h : n.define v = some m) : n.Traffic m := by
  unfold Node.define at h
  repeat' split at h
  all_goals cases h
  all_goals first
    | exact n.defineShed_traffic _ _
    | (rename_i hr; exact (((Node.attempts_traffic hr).trans (Node.placeNew_traffic _ _ _)).trans
        (Node.openPe_traffic _ _)).trans (Node.svcEventOf_traffic _ _ _ _))
theorem Node.unbind_traffic (n : Node) (v : Service) : n.Traffic (n.unbind v) := by
  unfold Node.unbind
  dsimp only
  have h := n.traffic_of_blocks n.au n.cs n.cc { n.pe with svcs := n.pe.svcs.filter (·.id != v.id) } n.te n.pc rfl rfl rfl fun w => w
  repeat' split
  all_goals first
    | exact h
    | exact h.trans (Node.abortTransfer_traffic _ _ _)
    | exact h.trans (Node.traffic_of_blocks _ _ _ _ _ _ _ rfl rfl rfl fun w => w)
theorem Node.release_traffic (n : Node) (v : Service) : n.Traffic (n.release v) := by
  unfold Node.release
  refine Node.Traffic.trans ?_ (Node.resumeIf_traffic _ _)
  refine Node.Traffic.trans ?_ (Node.pass_traffic _)
  refine Node.Traffic.trans ?_ (Node.report_traffic _ _)
  refine Node.Traffic.trans ?_ (Node.dropSvc_traffic _ _)
  refine Node.Traffic.trans ?_ (Node.unbind_traffic _ _)
  exact ite (refl n) ((n.freeHalves_traffic v).trans (Node.handHalves_traffic _ _ _ _))

/-! ## Calls -/

theorem Node.callerCall_traffic (n : Node) (p : Fin 8) : n.Traffic (n.callerCall p) := by
  unfold Node.callerCall; split
  · rename_i m hm; exact (Node.callPlacement_traffic hm).trans (Node.openCall_traffic _ _)
  · exact ((n.traffic_of_blocks n.au n.cs _ n.pe n.te n.pc rfl rfl rfl fun w => w).trans (Node.modPhone_traffic _ _ _)).trans
      (Node.callEvent_traffic _ _ _ _)
theorem Node.testCaller_traffic (n : Node) (p : Fin 8) : n.Traffic (n.testCaller p) :=
  ite (n.callerCall_traffic p) (refl n)
theorem Node.enterIdle_traffic (n : Node) (p : Fin 8) (o : CallOutcome) : n.Traffic (n.enterIdle p o) :=
  (((n.traffic_of_blocks n.au n.cs _ n.pe n.te n.pc rfl rfl rfl fun w => w).trans (Node.modPhone_traffic _ _ _)).trans
    (Node.callEvent_traffic _ _ _ _)).trans (Node.testCaller_traffic _ _)
theorem Node.guardEnd_traffic (n : Node) (p : Fin 8) : n.Traffic (n.guardEnd p) := by
  unfold Node.guardEnd
  refine Node.Traffic.trans ?_ (Node.enterIdle_traffic _ _ _)
  split
  · exact n.release_traffic _
  · exact refl n
theorem Node.enterClearing_traffic (n : Node) (p : Fin 8) (o : CallOutcome) : n.Traffic (n.enterClearing p o) := by
  have h : n.Traffic ((n.modPhone p fun ph =>
      { ph.stopCadence with
        call := .clearing, timer := some (.clearGuard, ticksOfSeconds n.cc.common.clearGuard) }).callEvent p (n.phone p).call o) :=
    (n.modPhone_traffic _ _).trans (Node.callEvent_traffic _ _ _ _)
  exact ite (h.trans (Node.guardEnd_traffic _ _)) h
theorem Node.enterAnswered_traffic (n : Node) (p : Fin 8) (o : CallOutcome) : n.Traffic (n.enterAnswered p o) :=
  (n.modPhone_traffic _ _).trans (Node.callEvent_traffic _ _ _ _)
theorem Node.enterHeld_traffic (n : Node) (p : Fin 8) : n.Traffic (n.enterHeld p) :=
  (n.modPhone_traffic _ _).trans (Node.callEvent_traffic _ _ _ _)
theorem Node.testFlash_traffic (n : Node) (p : Fin 8) : n.Traffic (n.testFlash p) := by
  refine ite ?_ (refl n)
  split
  all_goals first
    | exact (n.modPhone_traffic _ _).trans (Node.callEvent_traffic _ _ _ _)
    | exact n.modPhone_traffic _ _
theorem Node.offHook_traffic (n : Node) (p : Fin 8) : n.Traffic (n.offHook p) := by
  unfold Node.offHook
  refine Node.Traffic.trans (n.modPhone_traffic p fun ph => { ph with hook := .offHook, hookDue := false }) ?_
  dsimp only
  split
  · exact Node.testCaller_traffic _ _
  · exact Node.enterAnswered_traffic _ _ _
  · exact Node.enterAnswered_traffic _ _ _
  · exact refl _
theorem Node.onHook_traffic (n : Node) (p : Fin 8) : n.Traffic (n.onHook p) := by
  unfold Node.onHook
  refine Node.Traffic.trans
    (n.modPhone_traffic p fun ph => { ph with hook := .onHook, hookDue := false, clearLock := false }) ?_
  dsimp only
  split
  · exact Node.enterIdle_traffic _ _ _
  · exact ite (Node.enterHeld_traffic _ _) (Node.enterClearing_traffic _ _ _)
  · exact ite (Node.enterHeld_traffic _ _) (Node.enterClearing_traffic _ _ _)
  · exact refl _
theorem Node.hookEvent_traffic (n : Node) (p : Fin 8) : n.Traffic (n.hookEvent p) := by
  unfold Node.hookEvent
  split
  · split
    · exact n.offHook_traffic p
    · exact n.onHook_traffic p
  · exact refl n
theorem Node.acceptEvent_traffic (n : Node) (p : Fin 8) : n.Traffic (n.acceptEvent p) := by
  unfold Node.acceptEvent
  refine ite ?_ (refl n)
  exact ite (((n.hookEvent_traffic p).trans (Node.modPhone_traffic _ _ _)).trans (Node.testFlash_traffic _ _))
    ((n.hookEvent_traffic p).trans (Node.modPhone_traffic _ _ _))
theorem Node.cadenceEvent_traffic (n : Node) (p : Fin 8) : n.Traffic (n.cadenceEvent p) := n.modPhone_traffic _ _
theorem Node.timerEvent_traffic (n : Node) (p : Fin 8) : n.Traffic (n.timerEvent p) := by
  unfold Node.timerEvent; split
  · exact n.enterClearing_traffic _ _
  · exact n.enterClearing_traffic _ _
  · exact n.guardEnd_traffic _
  · exact refl n
theorem Node.settlePhone_traffic (n : Node) (p : Fin 8) : n.Traffic (n.settlePhone p) :=
  (((n.hookEvent_traffic p).trans (Node.acceptEvent_traffic _ _)).trans (Node.cadenceEvent_traffic _ _)).trans
    (Node.timerEvent_traffic _ _)
theorem Node.reselectCall_traffic (n : Node) (p : Fin 8) : n.Traffic (n.reselectCall p) := by
  unfold Node.reselectCall
  refine ite (ite (n.setPhone_traffic _ _) ?_) (refl n)
  exact (n.setPhone_traffic _ _).trans (Node.callEvent_traffic _ _ _ _)
theorem Node.reselectCalls_traffic (n : Node) : n.Traffic n.reselectCalls := foldl _ Node.reselectCall_traffic _ _
theorem Node.clearCall_traffic (n : Node) (p : Fin 8) : n.Traffic (n.clearCall p) := by
  unfold Node.clearCall
  exact (n.setPhone_traffic p _).trans (ite (Node.enterIdle_traffic _ _ _) (Node.enterClearing_traffic _ _ _))
theorem Node.ringPhone_traffic (n : Node) (p : Fin 8) : n.Traffic (n.ringPhone p) :=
  (n.modPhone_traffic _ _).trans (Node.callEvent_traffic _ _ _ _)

/-! ## Packet ports and the poll line -/

theorem Node.tributaryIn_traffic (n : Node) (k : Fin 4) (f : TributaryInput) : n.Traffic (n.tributaryIn k f) := by
  unfold Node.tributaryIn
  repeat' split
  all_goals first
    | exact n.modPort_traffic _ _
    | exact n.offerFrame_traffic _ _
    | exact refl n
theorem Node.outputBegin_traffic (n : Node) (k : Fin 4) : n.Traffic (n.outputBegin k) := ite (n.modPort_traffic _ _) (refl n)
theorem Node.outputEnd_traffic (n : Node) (k : Fin 4) : n.Traffic (n.outputEnd k) :=
  ite ((n.modPort_traffic _ _).trans (Node.roomOn_traffic _ _)) (refl n)
theorem Node.intervalEnd_traffic (n : Node) : n.Traffic n.intervalEnd := by
  unfold Node.intervalEnd
  refine ite ?_ (refl n)
  exact (ite (n.report_traffic _) (refl n)).trans (Node.traffic_of_blocks _ _ _ _ _ _ _ rfl rfl rfl fun w => w)
theorem Node.cycleStart_traffic (n : Node) : n.Traffic n.cycleStart :=
  ite (n.traffic_of_blocks _ _ _ _ _ _ rfl rfl rfl fun w => w) (refl n)
theorem Node.beginPoll_traffic (n : Node) : n.Traffic n.beginPoll := by
  unfold Node.beginPoll; split
  · exact (n.traffic_of_blocks n.au n.cs n.cc n.pe n.te _ rfl rfl rfl fun w => w).trans (Node.modStation_traffic _ _ _)
  · exact refl n
theorem Node.stationDue_traffic (n : Node) (k : Fin 8) : n.Traffic (n.stationDue k) := by
  unfold Node.stationDue
  refine ite (Node.Traffic.trans (n.modStation_traffic _ _) (ite (Node.modStation_traffic _ _ _) ?_)) (refl n)
  exact (Node.traffic_of_blocks _ _ _ _ _ _ _ rfl rfl rfl fun w => w).trans (Node.beginPoll_traffic _)
theorem Node.stationTo_traffic (n : Node) (k : Fin 8) (st : StationState) (c : StationCause) :
    n.Traffic (n.stationTo k st c) := (n.modStation_traffic _ _).trans (Node.report_traffic _ _)
theorem Node.endPoll_traffic (n : Node) : n.Traffic n.endPoll :=
  (n.traffic_of_blocks n.au n.cs n.cc n.pe n.te _ rfl rfl rfl fun w => w).trans (Node.beginPoll_traffic _)
theorem Node.failedPoll_traffic (n : Node) (k : Fin 8) : n.Traffic (n.failedPoll k) :=
  ((n.modStation_traffic _ _).trans (ite (Node.stationTo_traffic _ _ _ _) (refl _))).trans (Node.endPoll_traffic _)
theorem Node.attemptFails_traffic (n : Node) (t : Transaction) (f : StationCounts → StationCounts) :
    n.Traffic (n.attemptFails t f) := by
  unfold Node.attemptFails
  refine Node.Traffic.trans (n.modStation_traffic t.station _) (ite ?_ (Node.failedPoll_traffic _ _))
  exact Node.traffic_of_blocks _ _ _ _ _ _ _ rfl rfl rfl fun w => w
theorem Node.newReading_traffic (n : Node) (k : Fin 8) (bs : List Byte) : n.Traffic (n.newReading k bs) :=
  (n.modStation_traffic _ _).trans (Node.forwardReading_traffic _ _)
theorem Node.attemptSucceeds_traffic (n : Node) (t : Transaction) (bs : List Byte) : n.Traffic (n.attemptSucceeds t bs) :=
  (((n.modStation_traffic _ _).trans (Node.newReading_traffic _ _ _)).trans
    (ite (refl _) (Node.stationTo_traffic _ _ _ _))).trans (Node.endPoll_traffic _)
theorem Node.judgeAttempt_traffic (n : Node) (t : Transaction) (v : Verdict) : n.Traffic (n.judgeAttempt t v) := by
  unfold Node.judgeAttempt; split
  · exact n.attemptSucceeds_traffic _ _
  all_goals exact n.attemptFails_traffic _ _
theorem Node.windowOpens_traffic (n : Node) : n.Traffic n.windowOpens := by
  unfold Node.windowOpens; split
  · exact ite (n.traffic_of_blocks _ _ _ _ _ _ rfl rfl rfl fun w => w) (refl n)
  · exact refl n
theorem Node.replyTimeout_traffic (n : Node) : n.Traffic n.replyTimeout := by
  unfold Node.replyTimeout
  repeat' split
  all_goals first | exact n.judgeAttempt_traffic _ _ | exact refl n
theorem Node.replyStart_traffic (n : Node) : n.Traffic n.replyStart := by
  unfold Node.replyStart
  refine n.replyTimeout_traffic.trans ?_
  dsimp only
  repeat' split
  all_goals first | exact refl _ | exact Node.traffic_of_blocks _ _ _ _ _ _ _ rfl rfl rfl fun w => w
theorem Node.replyEnd_traffic (n : Node) (judge : Nat → Verdict) : n.Traffic (n.replyEnd judge) := by
  unfold Node.replyEnd; split
  · exact ite (n.judgeAttempt_traffic _ _) (refl n)
  · exact refl n
theorem Node.setStationEntry_traffic (n : Node) (k : Fin 8) (enabled : Bool) (address offset : Nat) :
    n.Traffic (n.setStationEntry k enabled address offset) := by
  unfold Node.setStationEntry
  refine Node.Traffic.trans (n.traffic_of_blocks n.au n.cs n.cc n.pe n.te (n.pc.withoutDisabled k enabled) rfl rfl rfl fun w => w) ?_
  exact (Node.modStation_traffic _ _ _).trans (ite (refl _) (Node.stationTo_traffic _ _ _ _))

end Sys2Proof.Machine
end

