-- ==== Sys2Proof/Laws/Lines.lean ====
section
/-! SUPPORT. What the line ports and the path monitor can do: they never change the inputs, the clock, the operating state, the
run time, the settings, the admission unit, the calls, the packet, transfer and poll blocks, the live map or the staging list;
reports only join the queue. -/

namespace Sys2Proof.Machine

/-- What an event of the lines and paths may do to the node. -/
structure Node.Lines (n m : Node) : Prop where
  pins : m.pins = n.pins
  clk : m.clk = n.clk
  op : m.op = n.op
  runTime : m.runTime = n.runTime
  cfg : m.cfg = n.cfg
  au : m.au = n.au
  cc : m.cc = n.cc
  pe : m.pe = n.pe
  te : m.te = n.te
  pc : m.pc = n.pc
  live : m.cs.live = n.cs.live
  staging : m.cs.staging = n.cs.staging
  grows : n.reports.queue <+: m.reports.queue
  bound : n.reports.queue.length ≤ 32 → m.reports.queue.length ≤ 32

namespace Node.Lines

theorem refl (n : Node) : n.Lines n := ⟨rfl, rfl, rfl, rfl, rfl, rfl, rfl, rfl, rfl, rfl, rfl, rfl, List.prefix_rfl, id⟩
theorem trans {a b c : Node} (h : a.Lines b) (k : b.Lines c) : a.Lines c :=
  ⟨k.pins.trans h.pins, k.clk.trans h.clk, k.op.trans h.op, k.runTime.trans h.runTime, k.cfg.trans h.cfg, k.au.trans h.au,
    k.cc.trans h.cc, k.pe.trans h.pe, k.te.trans h.te, k.pc.trans h.pc, k.live.trans h.live, k.staging.trans h.staging,
    h.grows.trans k.grows, fun w => k.bound (h.bound w)⟩
theorem ite {n a b : Node} {c : Prop} [Decidable c] (ha : n.Lines a) (hb : n.Lines b) : n.Lines (if c then a else b) := by
  split
  · exact ha
  · exact hb

end Node.Lines

open Node.Lines

theorem Node.report_lines (n : Node) (b : ReportBody) : n.Lines (n.report b) :=
  ⟨rfl, rfl, rfl, rfl, rfl, rfl, rfl, rfl, rfl, rfl, rfl, rfl, Reports.offer_prefix _ _ _, Reports.offer_length _ _ _⟩
/-- Lines, paths, timing and signals are replaced. -/
theorem Node.lines_of_parts (n : Node) (line : Two LinePort) (path : Two PathSide) (timing : Timing) (sig : Signals) :
    n.Lines { n with line := line, path := path, timing := timing, sig := sig } :=
  ⟨rfl, rfl, rfl, rfl, rfl, rfl, rfl, rfl, rfl, rfl, rfl, rfl, List.prefix_rfl, id⟩
theorem Node.setLine_lines (n : Node) (l : Line) (p : LinePort) : n.Lines (n.setLine l p) := n.lines_of_parts _ _ _ _
theorem Node.modLine_lines (n : Node) (l : Line) (f : LinePort → LinePort) : n.Lines (n.modLine l f) := n.setLine_lines _ _
theorem Node.setPath_lines (n : Node) (x : Side) (p : PathSide) : n.Lines (n.setPath x p) := n.lines_of_parts _ _ _ _
theorem Node.modSwitch_lines (n : Node) (l : Line) (f : SwitchLine → SwitchLine) : n.Lines (n.modSwitch l f) :=
  ⟨rfl, rfl, rfl, rfl, rfl, rfl, rfl, rfl, rfl, rfl, rfl, rfl, List.prefix_rfl, id⟩

/-! ## Path monitor -/

theorem Node.pathTo_lines (n : Node) (x : Side) (p : PathSide) (c : PathCause) : n.Lines (n.pathTo x p c) :=
  (n.setPath_lines _ _).trans (Node.report_lines _ _)
theorem Node.giveSignal_lines (n : Node) (g : PathSignal) : n.Lines (n.giveSignal g) := n.lines_of_parts _ _ _ _
theorem Node.enterReachable_lines (n : Node) (x : Side) (p : PathSide) (c : PathCause) : n.Lines (n.enterReachable x p c) := by
  unfold Node.enterReachable
  dsimp only
  split
  · exact n.pathTo_lines _ _ _
  · exact (n.pathTo_lines _ _ _).trans (Node.giveSignal_lines _ _)
theorem Node.enterLost_lines (n : Node) (x : Side) (p : PathSide) (c : PathCause) : n.Lines (n.enterLost x p c) := by
  unfold Node.enterLost
  dsimp only
  split
  · exact ((n.pathTo_lines _ _ _).trans (Node.giveSignal_lines _ _)).trans (Node.enterReachable_lines _ _ _ _)
  · exact (n.pathTo_lines _ _ _).trans (Node.giveSignal_lines _ _)
theorem Node.reachRises_lines (n : Node) (x : Side) (p : PathSide) : n.Lines (n.reachRises x p) := by
  unfold Node.reachRises
  split
  · exact ite (n.setPath_lines _ _) (ite (n.enterReachable_lines _ _ _) (n.pathTo_lines _ _ _))
  · exact n.enterReachable_lines _ _ _
  · exact n.setPath_lines _ _
  · exact n.setPath_lines _ _
theorem Node.reachFalls_lines (n : Node) (x : Side) (p : PathSide) : n.Lines (n.reachFalls x p) := by
  unfold Node.reachFalls
  split
  · exact ite (n.enterLost_lines _ _ _) (n.pathTo_lines _ _ _)
  · exact n.enterLost_lines _ _ _
  · exact n.setPath_lines _ _
  · exact n.setPath_lines _ _
theorem Node.formReach_lines (n : Node) (x : Side) : n.Lines (n.formReach x) :=
  ite (refl n) (ite (n.reachRises_lines _ _) (n.reachFalls_lines _ _))
theorem Node.holdOffEnd_lines (n : Node) (x : Side) : n.Lines (n.holdOffEnd x) := ite (n.enterLost_lines _ _ _) (refl n)
theorem Node.wtrEnd_lines (n : Node) (x : Side) : n.Lines (n.wtrEnd x) := ite (n.enterReachable_lines _ _ _) (refl n)
theorem Node.forceOut_lines (n : Node) (x : Side) : n.Lines (n.forceOut x) :=
  ite (refl n) (ite (n.pathTo_lines _ _ _) (n.enterLost_lines _ _ _))
theorem Node.forceClear_lines (n : Node) (x : Side) : n.Lines (n.forceClear x) :=
  ite (refl n) (ite (n.enterReachable_lines _ _ _) (n.pathTo_lines _ _ _))
theorem Node.switchTiming_lines (n : Node) (next : TimingSource) (c : TimingCause) : n.Lines (n.switchTiming next c) :=
  (n.lines_of_parts n.line n.path { n.timing with source := next } n.sig).trans (Node.report_lines _ _)
theorem Node.timingFailed_lines (n : Node) (l : Line) : n.Lines (n.timingFailed l) :=
  ite (refl n) (ite (n.switchTiming_lines _ _) (n.switchTiming_lines _ _))
theorem Node.selectTiming_lines (n : Node) : n.Lines n.selectTiming := by
  unfold Node.selectTiming
  dsimp only
  split
  · exact ite (n.switchTiming_lines _ _) (ite (n.switchTiming_lines _ _) (refl n))
  · exact n.timingFailed_lines _
  · exact n.timingFailed_lines _
theorem Node.timingRevert_lines (n : Node) : n.Lines n.timingRevert := ite (n.switchTiming_lines _ _) (refl n)
theorem Node.lineChanged_lines (n : Node) (l : Line) : n.Lines (n.lineChanged l) := by
  unfold Node.lineChanged
  refine Node.Lines.trans (n.formReach_lines l.side) ?_
  dsimp only
  split
  · exact Node.selectTiming_lines _
  · exact (Node.lines_of_parts _ _ _ _ _).trans (Node.selectTiming_lines _)

/-! ## Line ports -/

theorem Node.lineEvent_lines (n : Node) (l : Line) (old : LineState) (c : LineCause) : n.Lines (n.lineEvent l old c) :=
  n.report_lines _
theorem Node.abortScan_lines (n : Node) (l : Line) : n.Lines (n.abortScan l) := by
  unfold Node.abortScan; split
  · exact n.report_lines _
  · exact refl n
theorem Node.lineFails_lines (n : Node) (l : Line) : n.Lines (n.lineFails l) := n.modSwitch_lines _ _
theorem Node.dropLine_lines (n : Node) (l : Line) (next : LineState) (c : LineCause) : n.Lines (n.dropLine l next c) :=
  ((((n.abortScan_lines l).trans (Node.modLine_lines _ _ _)).trans (Node.lineFails_lines _ _)).trans
    (Node.lineEvent_lines _ _ _ _)).trans (Node.lineChanged_lines _ _)
theorem Node.enableLine_lines (n : Node) (l : Line) : n.Lines (n.enableLine l) :=
  ((n.modLine_lines _ _).trans (Node.lineFails_lines _ _)).trans (Node.lineEvent_lines _ _ _ _)
theorem Node.noticeDisabled_lines (n : Node) (l : Line) : n.Lines (n.noticeDisabled l) := by
  unfold Node.noticeDisabled
  dsimp only
  split
  · exact (n.modSwitch_lines _ _).trans (Node.modSwitch_lines _ _ _)
  · exact n.modSwitch_lines _ _
theorem Node.disableLine_lines (n : Node) (l : Line) : n.Lines (n.disableLine l) :=
  ((n.noticeDisabled_lines l).trans (Node.modLine_lines _ _ _)).trans (Node.dropLine_lines _ _ _ _)
theorem Node.countErrored_lines (n : Node) (l : Line) : n.Lines (n.countErrored l) := by
  unfold Node.countErrored
  have h := n.modLine_lines l fun p => { p with win := { p.win with errors := p.win.errors + 1 } }
  have hs (m : Node) (f : LinePort → LinePort) (o : LineState) (c : LineCause) : m.Lines ((m.modLine l f).lineEvent l o c) :=
    (m.modLine_lines _ _).trans (Node.lineEvent_lines _ _ _ _)
  dsimp only
  repeat' split
  · exact ((h.trans (hs _ _ _ _)).trans (hs _ _ _ _)).trans (Node.lineChanged_lines _ _)
  · exact (h.trans (hs _ _ _ _)).trans (Node.lineChanged_lines _ _)
  · exact h.trans (hs _ _ _ _)
  · exact h
theorem Node.judgeSd_lines (n : Node) (l : Line) (e thr : Nat) : n.Lines (n.judgeSd l e thr) :=
  ite ((n.modLine_lines _ _).trans (Node.lineEvent_lines _ _ _ _)) (refl n)
theorem Node.windowEnd_lines (n : Node) (l : Line) : n.Lines (n.windowEnd l) := by
  unfold Node.windowEnd
  refine ite ?_ (refl n)
  dsimp only
  refine Node.Lines.trans ?_ (Node.lineChanged_lines _ _)
  refine Node.Lines.trans ?_ (Node.judgeSd_lines _ _ _ _)
  exact ite ((n.setLine_lines _ _).trans (Node.lineEvent_lines _ _ _ _)) (n.setLine_lines _ _)
theorem Node.testTrained_lines (n : Node) (l : Line) : n.Lines (n.testTrained l) :=
  ite (((n.setLine_lines _ _).trans (Node.lineEvent_lines _ _ _ _)).trans (Node.lineChanged_lines _ _)) (refl n)
theorem Node.chooseTrained_lines (n : Node) (l : Line) (w : List Nat) : n.Lines (n.chooseTrained l w) :=
  ite ((n.modLine_lines _ _).trans (Node.lineEvent_lines _ _ _ _)) ((n.modLine_lines _ _).trans (Node.testTrained_lines _ _))
theorem Node.scorePreset_lines (n : Node) (l : Line) (preset width : Nat) (w : List Nat) :
    n.Lines (n.scorePreset l preset width w) := ite (n.modLine_lines _ _) (n.chooseTrained_lines _ _)
theorem Node.confirmTimeout_lines (n : Node) (l : Line) : n.Lines (n.confirmTimeout l) := by
  unfold Node.confirmTimeout; split
  · exact ite (n.scorePreset_lines _ _ _ _) (refl n)
  · exact refl n
theorem Node.settleEnd_lines (n : Node) (l : Line) : n.Lines (n.settleEnd l) := by
  unfold Node.settleEnd; split
  · exact ite (n.modLine_lines _ _) (refl n)
  · exact refl n
theorem Node.retryEnd_lines (n : Node) (l : Line) : n.Lines (n.retryEnd l) := by
  unfold Node.retryEnd; split
  · exact ite (n.modLine_lines _ _) (refl n)
  · exact refl n
theorem Node.startScan_lines (n : Node) (l : Line) (o : Origin) : n.Lines (n.startScan l o) := n.modLine_lines _ _
theorem Node.scanDone_lines (n : Node) (l : Line) (c : Scan) (e : MeasEnd) : n.Lines (n.scanDone l c e) :=
  (n.modLine_lines _ _).trans (Node.report_lines _ _)
theorem Node.positionDone_lines (n : Node) (l : Line) : n.Lines (n.positionDone l) := by
  unfold Node.positionDone
  repeat' split
  all_goals first
    | exact n.modLine_lines _ _
    | exact n.scorePreset_lines _ _ _ _
    | exact n.scanDone_lines _ _ _
    | exact refl n
theorem Node.periodicDue_lines (n : Node) (l : Line) : n.Lines (n.periodicDue l) := by
  unfold Node.periodicDue
  refine ite ?_ (refl n)
  exact ite (n.setLine_lines _ _) ((n.setLine_lines _ _).trans (Node.startScan_lines _ _ _))
theorem Node.settleLine_lines (n : Node) (l : Line) : n.Lines (n.settleLine l) :=
  ((((n.confirmTimeout_lines l).trans (Node.settleEnd_lines _ _)).trans (Node.positionDone_lines _ _)).trans
    (Node.retryEnd_lines _ _)).trans (Node.windowEnd_lines _ _)
/-- The search changes the trial alone (R7). -/
theorem LinePort.search_eq (p : LinePort) (position : Nat) (good : Bool) :
    p.search position good = { p with
      boundary := if good then position else p.boundary, trialPast := if good then 0 else p.trialPast
      goodMarkers := if good then 1 else 0 } := by cases good <;> rfl
theorem LinePort.past_lt (p : LinePort) (position : Nat) : p.past position < 15360 := Nat.mod_lt _ (by decide)
theorem LinePort.past_eq (p : LinePort) (position : Nat) (h : p.boundary < 15360) :
    p.past position = (position + 15360 - p.boundary) % 15360 := by
  simp [LinePort.past, Config.frameBits, Nat.mod_eq_of_lt h]
/-- The beginning of a window changes its thresholds alone (R13). -/
theorem LinePort.beginWindow_eq (p : LinePort) : p.beginWindow = { p with win := { p.win with
    sdThr := if p.state = .up ∧ p.win.frames = 0 then p.sdThr else p.win.sdThr
    sfThr := if p.state = .up ∧ p.win.frames = 0 then p.sfThr else p.win.sfThr } } := by
  unfold LinePort.beginWindow; split <;> rfl
theorem Node.deliverPayload_lines (n : Node) (l : Line) (c : List CellVal) : n.Lines (n.deliverPayload l c) :=
  n.modSwitch_lines _ _
theorem Node.aligned_lines (n : Node) (l : Line) (pend : PendingFrame) (c : List CellVal) : n.Lines (n.aligned l pend c) :=
  (((n.modLine_lines _ _).trans (Node.deliverPayload_lines _ _ _)).trans (Node.lineEvent_lines _ _ _ _)).trans
    (Node.lineChanged_lines _ _)
theorem Node.seek_lines (n : Node) (l : Line) (pos : Nat) (good : Bool) (pend : PendingFrame) (c : List CellVal) :
    n.Lines (n.seek l pos good pend c) := by
  unfold Node.seek
  refine ite (n.setLine_lines _ _) (ite (ite (n.setLine_lines _ _) (ite (n.aligned_lines _ _ _) (n.setLine_lines _ _))) ?_)
  exact ite (n.setLine_lines _ _) (n.setLine_lines _ _)
theorem Node.nodeConflict_lines (n : Node) (l : Line) : n.Lines (n.nodeConflict l) := by
  unfold Node.nodeConflict
  have h : n.Lines { n with cs := { n.cs with conflicts := sat16 n.cs.conflicts, conflictAge := some 0 } } :=
    ⟨rfl, rfl, rfl, rfl, rfl, rfl, rfl, rfl, rfl, rfl, rfl, rfl, List.prefix_rfl, id⟩
  exact ite (h.trans (Node.report_lines _ _)) h
theorem Node.noticeConfirmed_lines (n : Node) (l : Line) (f : List Byte) : n.Lines (n.noticeConfirmed l f) := by
  unfold Node.noticeConfirmed
  refine ite (refl n) (ite (n.nodeConflict_lines l) (ite (refl n) ?_))
  exact (ite (n.modSwitch_lines _ _) (refl n)).trans (Node.modSwitch_lines _ _ _)
theorem Node.confirm_lines (n : Node) (l : Line) (ov : List Byte) : n.Lines (n.confirm l ov) :=
  ((n.modLine_lines _ _).trans (Node.noticeConfirmed_lines _ _ _)).trans (Node.lineChanged_lines _ _)
theorem Node.takeFrame_lines (n : Node) (l : Line) (ov : List Byte) (pend : PendingFrame) (c : List CellVal) (d : Nat) :
    n.Lines (n.takeFrame l ov pend c d) := by
  unfold Node.takeFrame
  extract_lets before matched good n0 n1 n2 n3 n4 n5 n6
  have h1 : n0.Lines n1 := by
    unfold n1
    cases good
    · exact refl n0
    · exact n0.confirm_lines _ _
  have h2 : n1.Lines n2 := ite (n1.countErrored_lines l) (refl n1)
  have h3 : n2.Lines n3 := ite (n2.countErrored_lines l) (refl n2)
  have h6 : n3.Lines n6 := ((n3.deliverPayload_lines _ _).trans (Node.modLine_lines _ _ _)).trans (Node.testTrained_lines _ _)
  exact (((n.modLine_lines _ _).trans h1).trans (h2.trans h3)).trans (h6.trans (ite (Node.dropLine_lines _ _ _ _) (refl _)))
theorem Node.lineFrame_lines (n : Node) (l : Line) (pos : Nat) (f : LineFrame) (d : Nat) : n.Lines (n.lineFrame l pos f d) := by
  unfold Node.lineFrame
  refine (n.settleLine_lines l).trans ?_
  refine ite (refl _) ?_
  split
  · exact refl _
  · exact Node.seek_lines _ _ _ _ _ _
  · exact ite (Node.takeFrame_lines _ _ _ _ _ _) (refl _)
  · exact ite (Node.takeFrame_lines _ _ _ _ _ _) (refl _)
theorem Node.signalGone_lines (n : Node) (l : Line) : n.Lines (n.signalGone l) := by
  unfold Node.signalGone; split
  · exact refl n
  · exact n.modLine_lines _ _
  · exact n.dropLine_lines _ _ _
  · exact n.dropLine_lines _ _ _
theorem Node.enableAsSet_lines (n : Node) (l : Line) : n.Lines (n.enableAsSet l) :=
  ite (refl n) (ite (ite (n.enableLine_lines _) (refl n)) (ite (refl n) (n.disableLine_lines _)))

end Sys2Proof.Machine
end

