-- ==== Sys2Proof/Laws/Events.lean ====
section
/-! SUPPORT. What every event of the blocks keeps: the inputs, the operating state, the frame count, the form of the stores; and
what the frame start and the tick change of them. -/

namespace Sys2Proof.Machine

/-- What any event of the blocks but START and RESET keeps. -/
structure Node.Keeps (n m : Node) : Prop where
  pins : m.pins = n.pins
  op : m.op = n.op
  cfg : m.cfg = n.cfg
  grows : n.reports.queue <+: m.reports.queue
  bound : n.reports.queue.length ≤ 32 → m.reports.queue.length ≤ 32
  store : Memory.wf n.te.store = true → Memory.wf m.te.store = true
  allotCells : m.au.allot.map (·.cell) = n.au.allot.map (·.cell)
  liveCells : m.cs.live.map (·.cell) = n.cs.live.map (·.cell)
  services : n.au.services.Pairwise (·.id < ·.id) → m.au.services.Pairwise (·.id < ·.id)

/-- The same, the clock and the run time kept as well. -/
structure Node.Steady (n m : Node) : Prop extends Node.Keeps n m where
  clk : m.clk = n.clk
  runTime : m.runTime = n.runTime

theorem Node.Traffic.steady {n m : Node} (h : n.Traffic m) : n.Steady m :=
  ⟨⟨h.pins, h.op, h.cfg, h.grows, h.bound, h.store, h.allotCells, h.liveCells, h.services⟩, h.clk, h.runTime⟩
theorem Node.Lines.steady {n m : Node} (h : n.Lines m) : n.Steady m :=
  ⟨⟨h.pins, h.op, h.cfg, h.grows, h.bound, fun w => by rw [h.te]; exact w, by rw [h.au], by rw [h.live],
    fun w => by rw [h.au]; exact w⟩, h.clk, h.runTime⟩

namespace Node.Keeps

theorem refl (n : Node) : n.Keeps n := ⟨rfl, rfl, rfl, List.prefix_rfl, id, id, rfl, rfl, id⟩
theorem trans {a b c : Node} (h : a.Keeps b) (k : b.Keeps c) : a.Keeps c :=
  ⟨k.pins.trans h.pins, k.op.trans h.op, k.cfg.trans h.cfg, h.grows.trans k.grows, fun w => k.bound (h.bound w),
    fun w => k.store (h.store w), k.allotCells.trans h.allotCells, k.liveCells.trans h.liveCells,
    fun w => k.services (h.services w)⟩

end Node.Keeps

namespace Node.Steady

theorem refl (n : Node) : n.Steady n := (Node.Traffic.refl n).steady
theorem trans {a b c : Node} (h : a.Steady b) (k : b.Steady c) : a.Steady c :=
  ⟨h.toKeeps.trans k.toKeeps, k.clk.trans h.clk, k.runTime.trans h.runTime⟩
theorem ite {n a b : Node} {c : Prop} [Decidable c] (ha : n.Steady a) (hb : n.Steady b) : n.Steady (if c then a else b) := by
  split
  · exact ha
  · exact hb
theorem foldl {α : Type} (f : Node → α → Node) (hf : ∀ (n : Node) (x : α), n.Steady (f n x)) (l : List α) (n : Node) :
    n.Steady (l.foldl f n) := by
  induction l generalizing n with
  | nil => exact refl n
  | cons x l ih => exact (hf n x).trans (ih _)

end Node.Steady

/-! ## Path signals taken -/

theorem Node.auTakes_steady (n : Node) (g : PathSignal) (f : Node → Node) (hf : ∀ m : Node, m.Steady (f m)) :
    n.Steady (n.auTakes g f) :=
  Node.Steady.ite ((n.lines_of_parts n.line n.path n.timing { n.sig with au := n.sig.au.erase g }).steady.trans (hf _))
    (Node.Steady.refl n)
theorem Node.ccTakes_steady (n : Node) (g : PathSignal) : n.Steady (n.ccTakes g) :=
  Node.Steady.ite ((n.lines_of_parts n.line n.path n.timing { n.sig with cc := n.sig.cc.erase g }).steady.trans
    (Node.reselectCalls_traffic _).steady) (Node.Steady.refl n)
theorem Node.peTakes_steady (n : Node) (g : PathSignal) : n.Steady (n.peTakes g) :=
  Node.Steady.ite ((n.lines_of_parts n.line n.path n.timing { n.sig with pe := n.sig.pe.erase g }).steady.trans
    (Node.reselectDual_traffic _).steady) (Node.Steady.refl n)
theorem Node.takeAuSignal_steady (n : Node) (g : PathSignal) : n.Steady (n.takeAuSignal g) := by
  refine n.auTakes_steady g _ fun m => ?_
  cases g
  · exact (m.reroute_traffic _).steady
  · exact (m.revert_traffic _).steady
theorem Node.takeSignals_steady (n : Node) : n.Steady n.takeSignals :=
  ((Node.Steady.foldl _ Node.takeAuSignal_steady _ _).trans (Node.Steady.foldl _ Node.ccTakes_steady _ _)).trans
    (Node.Steady.foldl _ Node.peTakes_steady _ _)

/-! ## Due events taken before a frame start -/

theorem Node.settle_steady (n : Node) : n.Steady n.settle := by
  unfold Node.settle
  refine Node.Steady.trans ?_ (Node.Steady.foldl _ (fun n k => (Node.stationDue_traffic n k).steady) _ _)
  refine Node.Steady.trans ?_ (Node.cycleStart_traffic _).steady
  refine Node.Steady.trans ?_ (Node.intervalEnd_traffic _).steady
  refine Node.Steady.trans ?_ (Node.Steady.foldl _ (fun n t => (Node.stateTimerEnd_traffic n t).steady) _ _)
  refine Node.Steady.trans ?_ (Node.takeSignals_steady _)
  refine Node.Steady.trans ?_ (Node.timingRevert_lines _).steady
  exact (((((((((n.settleLine_lines _).trans (Node.settleLine_lines _ _)).trans (Node.periodicDue_lines _ _)).trans
    (Node.periodicDue_lines _ _)).trans (Node.holdOffEnd_lines _ _)).trans (Node.holdOffEnd_lines _ _)).trans
    (Node.wtrEnd_lines _ _)).trans (Node.wtrEnd_lines _ _))).steady

/-! ## The frame start -/

theorem Node.countFrame_keeps (n : Node) : n.Keeps n.countFrame := ⟨rfl, rfl, rfl, List.prefix_rfl, id, id, rfl, rfl, id⟩
theorem Node.countFrame_clk (n : Node) : n.countFrame.clk = n.clk.advance := rfl
theorem Node.countFrame_runTime (n : Node) : n.countFrame.runTime = n.runTime := rfl
theorem Node.buildTrains_traffic (n : Node) : n.Traffic n.buildTrains.1 :=
  n.traffic_of_blocks _ _ _ _ _ _ rfl rfl rfl fun w => w
theorem Node.beginFrame_steady (n : Node) (ts : List Train) (l : Line) : n.Steady (n.beginFrame ts l) := by
  unfold Node.beginFrame
  refine Node.Steady.ite (n.modLine_lines _ _).steady ?_
  exact ((n.modSwitch_lines _ _).trans (Node.modLine_lines _ _ _)).steady
theorem Node.handFrame_traffic (n : Node) (v : Service) (data : List Byte) : n.Traffic (n.handFrame v data) := by
  unfold Node.handFrame
  repeat' split
  all_goals first
    | exact n.toReceiveQueue_traffic _ _
    | exact n.segment_traffic _ _
    | exact n.setPe_traffic _
    | exact Node.Traffic.refl n
theorem Node.readService_traffic (n : Node) (id : Nat) : n.Traffic (n.readService id) := by
  unfold Node.readService
  split
  · rename_i v sv _ _
    split
    · exact Node.Traffic.refl n
    · dsimp only
      split
      · exact Node.Traffic.refl n
      · exact (n.setPe_traffic _).trans (Node.Traffic.foldl _ (fun n d => n.handFrame_traffic sv d) _ _)
  · exact Node.Traffic.refl n
theorem Node.readTrains_traffic (n : Node) : n.Traffic n.readTrains :=
  (Node.Traffic.foldl _ Node.readService_traffic _ _).trans (Node.resumeIf_traffic _ _)
theorem Node.voiceChannel_traffic (n : Node) (voice : Vector CellVal 8) (p : Fin 8) : n.Traffic (n.voiceChannel voice p) :=
  n.modPhone_traffic _ _

/-- What a frame start does after its records have been applied and its counts advanced leaves clock and run time alone. -/
theorem Node.frameStart_steady (n : Node) (voice : Vector CellVal 8) : n.applyDue.countFrame.Steady (n.frameStart voice) := by
  unfold Node.frameStart
  refine Node.Steady.trans ?_ (Node.Steady.foldl _ (fun n p => (n.voiceChannel_traffic voice p).steady) _ _)
  refine Node.Steady.trans ?_ (Node.readTrains_traffic _).steady
  refine Node.Steady.trans ?_ (Node.beginFrame_steady _ _ _)
  refine Node.Steady.trans ?_ (Node.beginFrame_steady _ _ _)
  refine Node.Steady.trans ?_ (Node.buildTrains_traffic _).steady
  exact ((Node.modSwitch_lines _ _ _).trans (Node.modSwitch_lines _ _ _)).steady
theorem Node.frameStart_keeps (n : Node) (voice : Vector CellVal 8) : n.Keeps (n.frameStart voice) :=
  (n.applyDue_traffic.steady.toKeeps.trans (Node.countFrame_keeps _)).trans (n.frameStart_steady voice).toKeeps
theorem Node.frameStart_clk (n : Node) (voice : Vector CellVal 8) : (n.frameStart voice).clk = n.clk.advance := by
  rw [(n.frameStart_steady voice).clk, Node.countFrame_clk, n.applyDue_traffic.clk]
theorem Node.frameStart_runTime (n : Node) (voice : Vector CellVal 8) : (n.frameStart voice).runTime = n.runTime := by
  rw [(n.frameStart_steady voice).runTime, Node.countFrame_runTime, n.applyDue_traffic.runTime]

/-! ## The receiver's reports and the tick -/

@[simp] theorem State.reject_pending (s : State) (c : RejectCause) (bs : List Byte) : (s.reject c bs).pending = s.pending := rfl
theorem State.reject_steady (s : State) (c : RejectCause) (bs : List Byte) : s.node.Steady (s.reject c bs).node :=
  (s.node.report_traffic _).steady
theorem State.gapEnd_steady (s : State) : s.node.Steady s.gapEnd.node := by
  unfold State.gapEnd; split
  · split
    · exact s.reject_steady _ _
    · exact Node.Steady.refl _
  · exact Node.Steady.refl _
@[simp] theorem State.gapEnd_pending (s : State) : s.gapEnd.pending = s.pending := by
  unfold State.gapEnd; split
  · split <;> rfl
  · rfl
theorem State.settleTick_steady (s : State) : s.node.Steady s.settleTick.node := by
  have h : s.node.Steady (allPhones.foldl Node.settlePhone s.node).replyTimeout :=
    ((Node.Traffic.foldl _ Node.settlePhone_traffic _ _).trans (Node.replyTimeout_traffic _)).steady
  unfold State.settleTick
  generalize (allPhones.foldl Node.settlePhone s.node).replyTimeout = m at h ⊢
  exact h.trans (State.gapEnd_steady { s with node := m })
@[simp] theorem State.settleTick_pending (s : State) : s.settleTick.pending = s.pending := by simp [State.settleTick]
/-- The tick: the run time advances in RUNNING alone (R197), and the tick is no longer due. -/
theorem State.msTick_due (s : State) (h : s.node.clk.tickDue = true) :
    s.msTick.node = s.settleTick.node.tick ∧ s.msTick.pending = s.pending := by
  simp [State.msTick, h]
theorem State.msTick_not_due (s : State) (h : s.node.clk.tickDue = false) : s.msTick = s := by
  simp [State.msTick, h]
theorem Node.tick_keeps (n : Node) : n.Keeps n.tick := ⟨rfl, rfl, rfl, List.prefix_rfl, id, id, rfl, rfl, id⟩

/-- What keeps the tables' cells and the service table's order keeps the tables in order (R45, R48, R64). -/
theorem Node.Keeps.tables {n m : Node} (h : n.Keeps m) (w : TablesInOrder n) : TablesInOrder m where
  allotment := by
    have := List.pairwise_map.2 w.allotment
    rw [← h.allotCells] at this
    exact List.pairwise_map.1 this
  cells e he := by
    have : e.cell ∈ n.au.allot.map (·.cell) := h.allotCells ▸ List.mem_map_of_mem he
    obtain ⟨d, hd, hc⟩ := List.mem_map.1 this
    exact hc ▸ w.cells d hd
  live := by rw [h.liveCells, h.allotCells]; exact w.live
  services := h.services w.services

end Sys2Proof.Machine
end

