-- ==== Sys2Proof/Laws/Paths.lean ====
section
/-! SUPPORT. What the path monitor can do: it changes the paths, the timing, the path signals and the reports alone; and what
forming reach-present leaves. -/

namespace Sys2Proof.Machine

/-- What an event of the path monitor may do to the node. -/
structure Node.Paths (n m : Node) : Prop where
  rest : m = { n with path := m.path, timing := m.timing, sig := m.sig, reports := m.reports }
  grows : n.reports.queue <+: m.reports.queue

namespace Node.Paths

theorem refl (n : Node) : n.Paths n := ⟨rfl, List.prefix_rfl⟩
theorem trans {a b c : Node} (h : a.Paths b) (k : b.Paths c) : a.Paths c :=
  ⟨by rw [k.rest, h.rest], h.grows.trans k.grows⟩
theorem ite {n a b : Node} {c : Prop} [Decidable c] (ha : n.Paths a) (hb : n.Paths b) : n.Paths (if c then a else b) := by
  split
  · exact ha
  · exact hb

theorem line {n m : Node} (h : n.Paths m) : m.line = n.line := by rw [h.rest]
theorem pins {n m : Node} (h : n.Paths m) : m.pins = n.pins := by rw [h.rest]
theorem clk {n m : Node} (h : n.Paths m) : m.clk = n.clk := by rw [h.rest]
theorem op {n m : Node} (h : n.Paths m) : m.op = n.op := by rw [h.rest]
theorem runTime {n m : Node} (h : n.Paths m) : m.runTime = n.runTime := by rw [h.rest]
theorem cfg {n m : Node} (h : n.Paths m) : m.cfg = n.cfg := by rw [h.rest]
theorem cs {n m : Node} (h : n.Paths m) : m.cs = n.cs := by rw [h.rest]
theorem au {n m : Node} (h : n.Paths m) : m.au = n.au := by rw [h.rest]
theorem cc {n m : Node} (h : n.Paths m) : m.cc = n.cc := by rw [h.rest]
theorem pe {n m : Node} (h : n.Paths m) : m.pe = n.pe := by rw [h.rest]
theorem te {n m : Node} (h : n.Paths m) : m.te = n.te := by rw [h.rest]
theorem pc {n m : Node} (h : n.Paths m) : m.pc = n.pc := by rw [h.rest]

end Node.Paths

open Node.Paths

theorem Node.report_paths (n : Node) (b : ReportBody) : n.Paths (n.report b) := ⟨rfl, Reports.offer_prefix _ _ _⟩
theorem Node.setPath_paths (n : Node) (x : Side) (p : PathSide) : n.Paths (n.setPath x p) := ⟨rfl, List.prefix_rfl⟩
theorem Node.pathTo_paths (n : Node) (x : Side) (p : PathSide) (c : PathCause) : n.Paths (n.pathTo x p c) :=
  (n.setPath_paths _ _).trans (Node.report_paths _ _)
theorem Node.giveSignal_paths (n : Node) (g : PathSignal) : n.Paths (n.giveSignal g) := ⟨rfl, List.prefix_rfl⟩
theorem Node.enterReachable_paths (n : Node) (x : Side) (p : PathSide) (c : PathCause) : n.Paths (n.enterReachable x p c) := by
  unfold Node.enterReachable
  dsimp only
  split
  · exact n.pathTo_paths _ _ _
  · exact (n.pathTo_paths _ _ _).trans (Node.giveSignal_paths _ _)
theorem Node.enterLost_paths (n : Node) (x : Side) (p : PathSide) (c : PathCause) : n.Paths (n.enterLost x p c) := by
  unfold Node.enterLost
  dsimp only
  split
  · exact ((n.pathTo_paths _ _ _).trans (Node.giveSignal_paths _ _)).trans (Node.enterReachable_paths _ _ _ _)
  · exact (n.pathTo_paths _ _ _).trans (Node.giveSignal_paths _ _)
theorem Node.reachRises_paths (n : Node) (x : Side) (p : PathSide) : n.Paths (n.reachRises x p) := by
  unfold Node.reachRises
  split
  · exact ite (n.setPath_paths _ _) (ite (n.enterReachable_paths _ _ _) (n.pathTo_paths _ _ _))
  · exact n.enterReachable_paths _ _ _
  · exact n.setPath_paths _ _
  · exact n.setPath_paths _ _
theorem Node.reachFalls_paths (n : Node) (x : Side) (p : PathSide) : n.Paths (n.reachFalls x p) := by
  unfold Node.reachFalls
  split
  · exact ite (n.enterLost_paths _ _ _) (n.pathTo_paths _ _ _)
  · exact n.enterLost_paths _ _ _
  · exact n.setPath_paths _ _
  · exact n.setPath_paths _ _
theorem Node.formReach_paths (n : Node) (x : Side) : n.Paths (n.formReach x) :=
  ite (refl n) (ite (n.reachRises_paths _ _) (n.reachFalls_paths _ _))
theorem Node.switchTiming_paths (n : Node) (next : TimingSource) (c : TimingCause) : n.Paths (n.switchTiming next c) :=
  ⟨rfl, Reports.offer_prefix _ _ _⟩
theorem Node.timingFailed_paths (n : Node) (l : Line) : n.Paths (n.timingFailed l) :=
  ite (refl n) (ite (n.switchTiming_paths _ _) (n.switchTiming_paths _ _))
theorem Node.selectTiming_paths (n : Node) : n.Paths n.selectTiming := by
  unfold Node.selectTiming
  dsimp only
  split
  · exact ite (n.switchTiming_paths _ _) (ite (n.switchTiming_paths _ _) (refl n))
  · exact n.timingFailed_paths _
  · exact n.timingFailed_paths _
theorem Node.timingRevert_paths (n : Node) : n.Paths n.timingRevert := ite (n.switchTiming_paths _ _) (refl n)
theorem Node.lineChanged_paths (n : Node) (l : Line) : n.Paths (n.lineChanged l) := by
  unfold Node.lineChanged
  refine (n.formReach_paths l.side).trans ?_
  dsimp only
  split
  · exact Node.selectTiming_paths _
  · have h : (n.formReach l.side).Paths { n.formReach l.side with
        timing := { (n.formReach l.side).timing with clean := (n.formReach l.side).timing.clean.set l 0 } } :=
      ⟨rfl, List.prefix_rfl⟩
    exact h.trans (Node.selectTiming_paths _)
theorem Node.holdOffEnd_paths (n : Node) (x : Side) : n.Paths (n.holdOffEnd x) := ite (n.enterLost_paths _ _ _) (refl n)
theorem Node.wtrEnd_paths (n : Node) (x : Side) : n.Paths (n.wtrEnd x) := ite (n.enterReachable_paths _ _ _) (refl n)
theorem Node.forceOut_paths (n : Node) (x : Side) : n.Paths (n.forceOut x) :=
  ite (refl n) (ite (n.pathTo_paths _ _ _) (n.enterLost_paths _ _ _))
theorem Node.forceClear_paths (n : Node) (x : Side) : n.Paths (n.forceClear x) :=
  ite (refl n) (ite (n.enterReachable_paths _ _ _) (n.pathTo_paths _ _ _))

/-! ## The two sides -/

@[simp] theorem Node.pathOf_other_setPath (n : Node) (x : Side) (p : PathSide) :
    (n.setPath x.other p).pathOf x = n.pathOf x := by cases x <;> rfl
@[simp] theorem Node.pathOf_giveSignal (n : Node) (g : PathSignal) (x : Side) : (n.giveSignal g).pathOf x = n.pathOf x := rfl
@[simp] theorem Node.pathOf_pathTo (n : Node) (x : Side) (p : PathSide) (c : PathCause) : (n.pathTo x p c).pathOf x = p := by
  simp [Node.pathTo]
@[simp] theorem Node.pathOf_pathTo_other (n : Node) (x : Side) (p : PathSide) (c : PathCause) :
    (n.pathTo x p c).pathOf x.other = n.pathOf x.other := by simp [Node.pathTo]
@[simp] theorem Node.pathOf_other_pathTo (n : Node) (x : Side) (p : PathSide) (c : PathCause) :
    (n.pathTo x.other p c).pathOf x = n.pathOf x := by simp [Node.pathTo]
@[simp] theorem Node.sig_pathTo (n : Node) (x : Side) (p : PathSide) (c : PathCause) : (n.pathTo x p c).sig = n.sig := rfl

theorem Node.pathOf_enterReachable (n : Node) (x : Side) (p : PathSide) (c : PathCause) :
    (n.enterReachable x p c).pathOf x = { p with state := .reachable, initial := false, timer := 0 } := by
  unfold Node.enterReachable; dsimp only; split <;> simp
theorem Node.pathOf_enterReachable_other (n : Node) (x : Side) (p : PathSide) (c : PathCause) :
    (n.enterReachable x p c).pathOf x.other = n.pathOf x.other := by
  unfold Node.enterReachable; dsimp only; split <;> simp
theorem Node.pathOf_other_enterReachable (n : Node) (x : Side) (p : PathSide) (c : PathCause) :
    (n.enterReachable x.other p c).pathOf x = n.pathOf x := by
  unfold Node.enterReachable; dsimp only; split <;> simp
theorem Node.pathOf_enterLost (n : Node) (x : Side) (p : PathSide) (c : PathCause) :
    (n.enterLost x p c).pathOf x = { p with state := .lost, timer := 0 } := by
  unfold Node.enterLost; dsimp only; split
  · rw [Node.pathOf_other_enterReachable]; simp
  · simp
/-- The other side of one that enters LOST keeps its reach-present. -/
theorem Node.reach_enterLost_other (n : Node) (x : Side) (p : PathSide) (c : PathCause) :
    ((n.enterLost x p c).pathOf x.other).reach = (n.pathOf x.other).reach := by
  unfold Node.enterLost; dsimp only; split
  · rw [Node.pathOf_enterReachable]; simp
  · simp

/-- After reach-present has been formed it holds what the line gives (R28). -/
theorem Node.reach_formReach (n : Node) (x : Side) :
    ((n.formReach x).pathOf x).reach = (n.line.get x.line).reaches n.cfg.hopLimit := by
  unfold Node.formReach; dsimp only
  split
  · rename_i h; exact h.symm
  · split
    · rename_i h
      rw [h]
      unfold Node.reachRises
      repeat' split
      all_goals simp [Node.pathOf_enterReachable]
    · rename_i h
      simp only [Bool.not_eq_true] at h
      rw [h]
      unfold Node.reachFalls
      repeat' split
      all_goals simp [Node.pathOf_enterLost]
/-- Forming a side's reach-present leaves the other side's. -/
theorem Node.reach_formReach_other (n : Node) (x : Side) :
    ((n.formReach x).pathOf x.other).reach = (n.pathOf x.other).reach := by
  unfold Node.formReach; dsimp only
  split
  · rfl
  · split
    · unfold Node.reachRises
      repeat' split
      all_goals simp [Node.pathOf_enterReachable_other]
    · unfold Node.reachFalls
      repeat' split
      all_goals simp [Node.reach_enterLost_other]
/-- A change on a line forms its side's reach-present (R28). -/
theorem Node.reach_lineChanged (n : Node) (l : Line) :
    ((n.lineChanged l).pathOf l.side).reach = (n.line.get l).reaches n.cfg.hopLimit := by
  have h : ∀ m : Node, m.selectTiming.path = m.path := by
    intro m
    unfold Node.selectTiming Node.timingFailed Node.switchTiming
    dsimp only
    repeat' split
    all_goals rfl
  unfold Node.lineChanged
  dsimp only [Node.pathOf]
  rw [h]
  have := n.reach_formReach l.side
  rw [Line.side_line] at this
  split <;> exact this
theorem Node.timing_formReach (n : Node) (x : Side) : (n.formReach x).timing = n.timing := by
  unfold Node.formReach Node.reachRises Node.reachFalls Node.enterLost Node.enterReachable
  dsimp only
  repeat' split
  all_goals rfl

end Sys2Proof.Machine
end

