-- ==== Sys2Proof/WellFormed.lean ====
section
/-! DEFINITION. Which commands the pins of the part can carry: the bounds that the operands' types do not give.
`exec` runs every command; an ill-formed one names an event that no wire can bring. -/

namespace Sys2Proof

/-- A received frame's position lies in the 15,360 bit positions of a frame period, and a monitor sampler finds at most
15,360 disagreements in a frame (R7, R20); a tributary frame asserts frame-enable for at least one byte and a poll reply
has begun with a byte (R203, R178). -/
def Instr.wellFormed : Instr → Bool
  | .lineFrameReceived _ position _ disagreements =>
      decide (position < Config.frameBits) && decide (disagreements ≤ Config.frameBits)
  | .tributaryFrameReceived _ frame => !frame.bytes.isEmpty
  | .pollReplyEnd bytes => !bytes.isEmpty
  | .pollReplyGap bytes => !bytes.isEmpty
  | _ => true

end Sys2Proof
end

