-- ==== Sys2Proof/Tests/Slice0.lean ====
section
/-! SUPPORT. Tests of one command each on small states, with what the spec's text and tables give, and for every statement of the
obligations that has hypotheses a state and operands that meet them (`test_meets_…`), clause by clause. -/

set_option Elab.async false
namespace Sys2Proof.Tests
open Sys2Proof Sys2Proof.Machine

/-! ## Small states -/

/-- The state that a command leaves. -/
def after (c : Instr) (s : State) : State :=
  match exec c s with
  | .next t => t
  | .fault _ => s
  | .refused _ => s

def req (kind : Byte) (body : List Byte) : Request := { kind := kind, tag := 0x1234#16, body := body }
/-- A node, and an idle link with the request WAITING in place 0. -/
def asking (n : Node) (kind : Byte) (body : List Byte) : State :=
  { node := n, pending := []
    link := { places := #v[some ⟨req kind body, .waiting⟩, none, none, none], arrivals := [0] } }
/-- A node, and a link that sends the reply of place 0. -/
def sending (n : Node) (reply : List Byte) (act : After) : State :=
  { node := n, pending := []
    link := { places := #v[some ⟨req 0x02#8 [], .sending reply act⟩, none, none, none], tx := .place 0 } }
/-- A node with nothing on its link. -/
def at0 (n : Node) : State := { node := n, link := {}, pending := [] }
def receiving (bs : List Byte) (gap : Nat) : State := { node := {}, pending := [], link := { rx := .frame bs gap } }
/-- The body of the reply in place 0. -/
def replyOf (s : State) : List Byte :=
  match s.link.stageOf 0 with
  | some (.answered b _) => b
  | some (.sending b _) => b
  | _ => []

def running : Node := { op := .running, cfg := { nodeNumber := 40 }, runTime := 5000#32 }

/-! ## Ill-formed commands -/

def darkFrame : LineFrame := { overhead := Vector.replicate 48 0, cells := Vector.replicate 936 0 }
/-- R7: a frame period has the 15,360 positions 0 to 15,359. -/
theorem test_frame_position_15360_is_refused : (Instr.lineFrameReceived .u 15360 darkFrame 0).wellFormed = false := by decide
theorem test_frame_position_15359_is_accepted : (Instr.lineFrameReceived .u 15359 darkFrame 15360).wellFormed = true := by decide
/-- R20: no more disagreements than bits. -/
theorem test_15361_disagreements_are_refused : (Instr.lineFrameReceived .d 0 darkFrame 15361).wellFormed = false := by decide
theorem test_empty_tributary_frame_is_refused : (Instr.tributaryFrameReceived 0 { bytes := [] }).wellFormed = false := by decide
theorem test_empty_poll_reply_is_refused : (Instr.pollReplyEnd []).wellFormed = false := by decide
theorem test_empty_poll_gap_is_refused : (Instr.pollReplyGap []).wellFormed = false := by decide

/-! ## The machine and the management link -/

/-- R206: held, a byte of the link is ignored. -/
theorem test_meets_ResetInputHoldsThePart :
    let s := at0 { pins := { resetLow := true } }
    s.node.pins.resetLow = true ∧ Instr.linkByteReceived 0x7E#8 false ≠ .powerOn ∧
      after (.linkByteReceived 0x7E#8 false) s = s ∧ (after (.readyInputChange 3 true) s).node.pins.ready[3] = true := by
  decide +kernel

/-- R192, a reply before a report. -/
theorem test_meets_TransmitterSendsRepliesBeforeReports :
    let report : Report := { body := .frameReject .gap none none 0, runTime := 0, lost := false }
    let n : Node := { reports := { queue := [report] } }
    let place : Place := ⟨req 0x01#8 [], .answered [0x00#8] .nothing⟩
    let a : State := { node := n, pending := [], link := { places := #v[some place, none, none, none], formed := [.place 0] } }
    let b : State := { node := n, pending := [], link := { busy := [⟨0x01#8, 7#16⟩], formed := [.busy] } }
    (sending n [] .nothing).link.tx ≠ .idle ∧
    (a.link.tx = .idle ∧ a.link.formed = .place 0 :: [] ∧ a.link.places[(0 : Fin 4)] = some place ∧ a.kick.link.tx = .place 0) ∧
    (b.link.tx = .idle ∧ b.link.formed = .busy :: [] ∧ b.kick.link.tx = .busy) ∧
    ((at0 n).link.tx = .idle ∧ (at0 n).link.formed = [] ∧ n.reports.queue ≠ [] ∧ (at0 n).kick.link.tx = .report) ∧
    (at0 {}).node.reports.queue = [] := by decide +kernel

def report0 : Report := { body := .frameReject .gap none none 0, runTime := 0, lost := false }
/-- R193: the 32nd report joins, the 33rd is discarded and sets the mark. R189: the end of each kind of frame. -/
theorem test_meets_TransmitterSendsRepliesBeforeReports_and_frees_them :
    let full : Node := { reports := { queue := List.replicate 32 report0, lost := 65535 } }
    let near : Node := { reports := { queue := List.replicate 31 report0, lostMark := true } }
    let busy : State := { node := {}, pending := [], link := { tx := .busy, busy := [⟨0x01#8, 7#16⟩] } }
    let rep : State := { node := full, pending := [], link := { tx := .report } }
    (near.reports.queue.length < 32 ∧ (near.report report0.body).reports.queue.getLast?.map (·.lost) = some true) ∧
    (32 ≤ full.reports.queue.length ∧ (full.report report0.body).reports.lost = 65535) ∧
    ((sending {} [0x00#8] .nothing).awake ∧ (after .replySent (sending {} [0x00#8] .nothing)).link.stageOf 0 = none) ∧
    (busy.awake ∧ busy.link.busy = ⟨0x01#8, 7#16⟩ :: [] ∧ (after .replySent busy).link.busy = []) ∧
    (rep.awake ∧ rep.link.tx = .report ∧ rep.node.reports.queue = report0 :: List.replicate 31 report0 ∧
      (after .reportSent rep).node.reports.queue.length = 31) := by decide +kernel

/-- R187: code 1 is 230,400 bit/s, code 4 the highest, 5 is no rate; the rate changes at the end of the reply. -/
theorem test_meets_LinkRateAndResetActAfterTheirReplies :
    let ask (b : List Byte) := asking {} 0x02#8 b
    ((ask [0x04#8]).asks 0 (req 0x02#8 [0x04#8]) ∧ linkRateOf 4 = some .r1843200 ∧
      replyOf (after .setLink (ask [0x04#8])) = [0x00#8, 0x00#8, 0xFF#8, 0x04#8]) ∧
    ((ask [0x05#8]).asks 0 (req 0x02#8 [0x05#8]) ∧ replyOf (after .setLink (ask [0x05#8])) = [0x04#8, 0x00#8, 0x00#8]) ∧
    ((ask []).asks 0 (req 0x02#8 []) ∧ replyOf (after .setLink (ask [])) = [0x02#8, 0x00#8, 0xFF#8]) ∧
    (let s := sending {} [] (.rate .r230400)
     s.awake ∧ s.link.rx = .hunting ∧ LinkRate.r230400 ≠ s.link.rate ∧ (after .replySent s).link.rate = .r230400) ∧
    (let s0 := sending {} [] (.rate .r230400)
     let s : State := { s0 with link := { s0.link with rx := .frame [0x01#8] 3 } }
     s.link.rx = .frame [0x01#8] 3 ∧ (after .replySent s).link.rejects.rateChange = 1) := by decide +kernel

/-- R196: the rate alone is kept. -/
theorem test_meets_LinkRateAndResetActAfterTheirReplies_reset :
    ((asking running 0x04#8 []).asks 0 (req 0x04#8 []) ∧ (after .reset (asking running 0x04#8 [])).node = running) ∧
    (let s : State := { node := {}, pending := [], link := { resetTaken := true } }
     s.awake ∧ s.link.resetTaken = true ∧ Instr.nodeStatus ∈ requestRows) ∧
    (let s0 := sending running [] .reset
     let s : State := { s0 with link := { s0.link with rate := .r460800 } }
     s.awake ∧ s.link.tx = .place 0 ∧ (after .replySent s).link.rate = .r460800 ∧ (after .replySent s).node.op = .config) :=
  by decide +kernel

/-- R188: 7Eh alone begins a frame. -/
theorem test_meets_ReceivedBytesAreTakenOrRejected :
    ((at0 {}).awake ∧ (at0 {}).link.rx = .hunting ∧
      (after (.linkByteReceived 0x7E#8 false) (at0 {})).link.rx = .frame [] 0 ∧
      (after (.linkByteReceived 0x7F#8 false) (at0 {})).link.stray = 1) ∧
    (let s := receiving [0x00#8] 10
     s.awake ∧ s.link.rx = .frame [0x00#8] 10 ∧ tooLong ([0x00#8] ++ [0x04#8]) = false ∧
       frameWhole ([0x00#8] ++ [0x04#8]) = false ∧
       (after (.linkByteReceived 0x04#8 false) s).link.rx = .frame [0x00#8, 0x04#8] 0) := by decide +kernel

/-- The IDENTIFY frame with tag 0102h but for its last check byte. -/
def identifyHead : List Byte :=
  let bs := [0x00#8, 0x00#8, 0x01#8, 0x01#8, 0x02#8]
  bs ++ (be2 (check16 bs).toNat).take 1
def identifyLast : Byte := (be2 (check16 [0x00#8, 0x00#8, 0x01#8, 0x01#8, 0x02#8]).toNat).getD 1 0
/-- R189: a place, a BUSY answer as the 8th, OVERRUN at 8, and a wrong check. -/
theorem test_meets_WholeFrameIsOfferedToTheBuffer :
    let held : Vector (Option Place) 4 := Vector.replicate 4 (some ⟨req 0x01#8 [], .waiting⟩)
    let with' (k : Nat) (places : Vector (Option Place) 4) : State := { node := {}, pending := [], link := {
      rx := .frame identifyHead 10, places := places, tx := .report, busy := List.replicate k ⟨0x01#8, 7#16⟩ } }
    let f := identifyHead ++ [identifyLast]
    (tooLong f = false ∧ frameWhole f = true ∧ check16 (f.take (f.length - 2)) = BitVec.ofNat 16 (numAt f (f.length - 2) 2)) ∧
    ((with' 0 (Vector.replicate 4 none)).link.places[(0 : Fin 4)] = none ∧
      (after (.requestFrameReceived identifyLast) (with' 0 (Vector.replicate 4 none))).link.places[(0 : Fin 4)] =
        some ⟨{ kind := 0x01#8, tag := 0x0102#16, body := [] }, .waiting⟩) ∧
    ((∀ j : Fin 4, (with' 7 held).link.places[j] ≠ none) ∧ (with' 7 held).link.busy.length < 8 ∧
      (after (.requestFrameReceived identifyLast) (with' 7 held)).link.busyCount = 1) ∧
    (8 ≤ (with' 8 held).link.busy.length ∧
      (after (.requestFrameReceived identifyLast) (with' 8 held)).link.rejects.overrun = 1) ∧
    (let g := identifyHead ++ [identifyLast ^^^ 1#8]
     frameWhole g = true ∧ check16 (g.take (g.length - 2)) ≠ BitVec.ofNat 16 (numAt g (g.length - 2) 2) ∧
      (after (.requestFrameReceived (identifyLast ^^^ 1#8)) (with' 0 held)).link.rejects.badCheck = 1) := by decide +kernel

/-- R188: 1,025 is too long, a gap of 11 ticks ends the frame. -/
theorem test_meets_ReceivedBytesAreTakenOrRejected_rejected :
    let s := receiving [0x04#8] 10
    let g := receiving [0x04#8] 11
    (s.awake ∧ s.link.rx = .frame [0x04#8] 10 ∧ 1024 < numAt ([0x04#8] ++ [0x01#8]) 0 2 ∧
      (after (.frameTooLong 0x01#8) s).link.rejects.tooLong = 1) ∧
    (g.link.rx = .frame [0x04#8] 11 ∧ (after .frameGap g).link.rejects.gap = 1) ∧
    ((after .frameByteError s).link.rejects.byteError = 1 ∧ numAt ([0x04#8] ++ [0x00#8]) 0 2 = 1024 ∧
      tooLong ([0x04#8] ++ [0x00#8]) = false) := by decide +kernel

/-! ### Invariants -/

/-- A link with a request WAITING is in order, and a step with NODE_STATUS in front goes on. -/
theorem test_meets_StepKeepsLinkInOrder :
    let s := asking running 0x05#8 []
    LinkInOrder s ∧ LinkInOrder (s.withPending [.nodeStatus]) ∧
      ∃ t, step (s.withPending [.nodeStatus]) = .next t :=
  ⟨⟨by decide, by decide, by decide, by decide, by decide, by decide, by decide, by decide⟩,
   ⟨by decide, by decide, by decide, by decide, by decide, by decide, by decide, by decide⟩, ⟨_, rfl⟩⟩

theorem test_meets_StepKeepsStoresInOrder :
    let n : Node := { running with reports := { queue := [report0] }, te := { store := [(3, 1#8)] } }
    let s : State := { node := n, link := { tx := .report }, pending := [.reportSent] }
    StoresInOrder s ∧ ∃ t, step s = .next t := ⟨⟨by decide, by decide, by decide, by decide⟩, ⟨_, rfl⟩⟩

/-- Two cells allotted, one of them the header of a placed service 3 of class C on side A. -/
def svcC (id : Nat) (x : Side) (cells : List Nat) : Service :=
  { id := id, cls := .c, level := 2, prot := .reroute, primary := x, current := some x, rate := 64000, mode := .nodeDefault
    modeUsed := .nearestEven, binding := .packet 0 0 4 0, full := 2, state := .active, adm := some id, cells := cells }
def placedNode : Node := { running with
  au := { allot := [⟨5, some 3, none⟩, ⟨7, some 3, none⟩], services := [svcC 3 .a [5, 7]], admCounter := 3 }
  cs := { live := [⟨5, some 3, none⟩, ⟨7, some 3, none⟩] }
  pe := { svcs := [{ id := 3, attached := true, live := { a := [5, 7] } }] } }
theorem placedNode_in_order : TablesInOrder placedNode :=
  ⟨by decide, by decide, by decide, by decide⟩
theorem test_meets_StepKeepsTablesInOrder :
    TablesInOrder placedNode ∧ ∃ t, step ((at0 placedNode).withPending [.stagingApply]) = .next t :=
  ⟨placedNode_in_order, ⟨_, rfl⟩⟩

/-- Two services of the levels 2 and 3 SHED, the flag set; RELEASE_SERVICE of one goes on. -/
theorem test_meets_StepKeepsEconomyMode :
    let n : Node := { placedNode with au := { placedNode.au with
      allot := [⟨5, none, none⟩, ⟨7, none, none⟩], economy := true
      services := [{ svcC 3 .a [] with state := .shed }, { svcC 4 .b [] with state := .shed, level := 3 }] } }
    TablesInOrder n ∧ EconomyHolds n ∧ n.au.economy = true ∧
      ∃ t, step ((asking n 0x10#8 [0x04#8]).withPending [.releaseService]) = .next t :=
  ⟨⟨by decide, by decide, by decide, by decide⟩, ⟨by decide, by decide⟩, rfl, ⟨_, rfl⟩⟩

/-- Level 2 uses two halves, at its ceiling. -/
theorem test_meets_StepKeepsTheCeilings :
    let n : Node := { placedNode with au := { placedNode.au with map := { ceiling := #v[1872, 1872, 2, 1872] } } }
    TablesInOrder n ∧ CeilingsHold n ∧ n.levelUse 2 = 2 ∧ ∃ t, step ((at0 n).withPending [.pathRestoredRevert .a]) = .next t :=
  ⟨⟨by decide, by decide, by decide, by decide⟩, by unfold CeilingsHold; decide, by decide, ⟨_, rfl⟩⟩

/-- Port 3 ANSWERED with its service 59, port 6 QUEUED with its cadence, port 7 in its clear guard with its service 63. -/
def callsNode : Node :=
  let call (p : Fin 8) (c : Nat) : Service :=
    { svcC (56 + p.val) .a [c] with cls := .e, level := 0, prot := .dual, binding := .phone p.val, full := 1, current := none }
  let n : Node := { placedNode with
    au := { allot := [⟨5, some 59, some 59⟩, ⟨7, some 63, some 63⟩], services := [call 3 5, call 7 7] }
    cc := { waiting := [6] } }
  ((n.setPhone 3 { set := { enabled := true }, call := .answered, liveCell := some 5 }).setPhone 6
    { set := { enabled := true }, call := .queued, cadence := some ⟨.wait, true, 0, 3000, 500⟩ }).setPhone 7
    { set := { enabled := true }, call := .clearing, timer := some (.clearGuard, 0) }
theorem test_meets_StepKeepsCallsInOrder :
    TablesInOrder callsNode ∧ CallsInOrder callsNode ∧ ∃ t, step ((at0 callsNode).withPending [.clearGuardExpired 7]) = .next t :=
  ⟨⟨by decide, by decide, by decide, by decide⟩,
   ⟨by decide +kernel, by decide +kernel, by decide +kernel, by decide, by decide +kernel, by decide +kernel⟩, ⟨_, rfl⟩⟩

/-- The largest lead, 64, and a record that falls due at the next frame start. -/
theorem test_meets_StepKeepsStagingInOrder :
    let n : Node := { running with
      clk := { frame := 65530#16, started := true }, cfg := { nodeNumber := 40, lead := 64 }
      cs := { staging := [⟨3, .c, {}, 65531#16⟩, ⟨4, .c, {}, 58#16⟩] } }
    StagingInOrder n ∧ ∃ t, step ((at0 n).withPending [.stagingApply]) = .next t :=
  ⟨⟨by decide, by decide, by decide +kernel, by decide +kernel, by decide +kernel⟩, ⟨_, rfl⟩⟩

/-- Transfers 0 and 2 with two blocks and one, the first complete; an abort of the first goes on. -/
theorem test_meets_StepKeepsBlocksInOrder :
    let x : Transfer := { service := 3, page := 9, declared := 4000, targets := [(0, 1)], chunk := 512, state := .deliveryWait
                          received := 4000, blocks := [63, 0] }
    let n : Node := { running with te := { recs := #v[some x, none, some { x with received := 2048, blocks := [5] }, none] } }
    BlocksInOrder n ∧ ∃ t, step ((asking n 0x1B#8 [0x00#8]).withPending [.transferAbort]) = .next t :=
  ⟨⟨by decide +kernel, by decide +kernel⟩, ⟨_, rfl⟩⟩

/-- A queue at its quota of 4 KiB; a pass goes on. -/
theorem test_meets_StepKeepsQueuesInOrder :
    let n : Node := { placedNode with
      pe := { svcs := [{ id := 3, queue := [{ data := List.replicate 1024 0#8, stamp := 0 }], attached := true }] } }
    let n : Node := { n with au := { n.au with services := [{ svcC 3 .a [5, 7] with binding := .packet 0 0 1 0 }] } }
    TablesInOrder n ∧ QueuesInOrder n ∧ ∃ t, step ((at0 n).withPending [.pathRestoredRevert .a]) = .next t :=
  ⟨⟨by decide, by decide, by decide, by decide⟩, ⟨by decide, by decide, by decide +kernel, by decide +kernel⟩, ⟨_, rfl⟩⟩

/-! ### Status requests -//-! ### Status requests -/

def openTransfer : Transfer :=
  { service := 3, page := 9, declared := 4000, targets := [(0, 1)], chunk := 512, state := .receiving }
def statusNode : Node := { placedNode with te := { recs := #v[none, none, some openTransfer, none] } }
/-- The reply to a request of a kind with a body. -/
def answer (c : Instr) (n : Node) (kind : Byte) (body : List Byte) : List Byte := replyOf (after c (asking n kind body))

/-- R198, R200: status OK, no flag, no detail; family, part and revision of R198, RUNNING, 115,200 bit/s, node 40. -/
theorem test_identify_replies_who_it_is : answer .identify running 0x01#8 [] =
    [0x00#8, 0x00#8, 0xFF#8, 0x45#8, 0x09#8, 0x70#8, 0x01#8, 0x01#8, 0x00#8, 0x28#8] := by decide +kernel

/-- The hypotheses of every clause, each with an OK answer. -/
theorem test_meets_StatusRequestsAnswerAndChangeNothing :
    (∀ q ∈ ([(.identify, 0x01#8, []), (.nodeStatus, 0x05#8, []), (.lineStatus, 0x09#8, [0x01#8]), (.pathStatus, 0x0B#8, []),
        (.mapStatus, 0x0D#8, [0x03#8, 0x28#8, 0x80#8]), (.serviceStatusOne, 0x11#8, [0x00#8, 0x03#8]),
        (.serviceStatusSummary, 0x11#8, [0x01#8, 0x00#8]), (.shedList, 0x12#8, []), (.callStatus, 0x16#8, [0x07#8]),
        (.portStatusPort, 0x19#8, [0x00#8, 0x03#8]), (.portStatusService, 0x19#8, [0x01#8, 0x03#8]),
        (.transferStatusOne, 0x1C#8, [0x00#8, 0x02#8]), (.transferStatusAll, 0x1C#8, [0x01#8, 0x00#8]),
        (.stationRead, 0x1F#8, [0x07#8])] : List (Instr × Byte × List Byte)),
      (asking statusNode q.2.1 q.2.2).asks 0 (req q.2.1 q.2.2) ∧ (answer q.1 statusNode q.2.1 q.2.2).head? = some 0x00#8) ∧
    f2 [0x03#8, 0x28#8, 0x80#8] 0 + f1 [0x03#8, 0x28#8, 0x80#8] 2 = 936 ∧ (statusNode.svc 3).isSome = true ∧
    (statusNode.peOf 3).isSome = true ∧ (statusNode.xfer 2).isSome = true := by decide +kernel

/-! ### START and refusals -/

def startable : Node := { cfg := { nodeNumber := 250 }, line := ⟨{ enabled := true }, {}⟩, pc := { enabled := true } }
/-- R195: node number 250, one line enabled. -/
theorem test_meets_StartTakesThePartToRunning :
    ((asking startable 0x03#8 []).asks 0 (req 0x03#8 []) ∧ startable.op = .config ∧ startable.cfg.nodeNumber ≠ 0 ∧
      answer .start startable 0x03#8 [] = [0x00#8, 0x00#8, 0xFF#8, 0xFA#8, 0x01#8] ∧
      (after .start (asking startable 0x03#8 [])).node.line.u.state = .seeking) ∧
    (running.op = .running ∧ answer .start running 0x03#8 [] = [0x06#8, 0x00#8, 0xFF#8]) ∧
    (({} : Node).cfg.nodeNumber = 0 ∧ answer .start {} 0x03#8 [] = [0x07#8, 0x00#8, 0xFF#8]) := by decide +kernel

/-- R190: kind 00h and kinds from 20h on are unknown. R194: NOT_STARTED before the length. -/
theorem test_meets_RefusedRequestsChangeNothing :
    ((asking {} 0x20#8 []).asks 0 (req 0x20#8 []) ∧ 32 ≤ (0x20#8).toNat ∧
      answer .unknownKindRequest {} 0x20#8 [] = [0x03#8, 0x00#8, 0xFF#8] ∧
      (asking {} 0x00#8 []).asks 0 (req 0x00#8 []) ∧ answer .unknownKindRequest {} 0x00#8 [] = [0x03#8, 0x00#8, 0xFF#8]) ∧
    (({} : Node).op = .config ∧
      ∀ q ∈ ([(.marginScan, 0x08#8, []), (.transferOpen, 0x1A#8, []), (.pathForceClear, 0x0A#8, [0x00#8, 0x01#8]),
        (.pathForceSet, 0x0A#8, []), (.callControlAnswer, 0x15#8, [0x09#8, 0x00#8]), (.callControlHold, 0x15#8, [0x00#8, 0x01#8]),
        (.callControlUnhold, 0x15#8, [0x00#8, 0x02#8]), (.callControlClear, 0x15#8, [0x00#8, 0x03#8]),
        (.callControlRing, 0x15#8, [0x00#8, 0x04#8])] : List (Instr × Byte × List Byte)),
      (asking {} q.2.1 q.2.2).asks 0 (req q.2.1 q.2.2) ∧ answer q.1 {} q.2.1 q.2.2 = [0x05#8, 0x00#8, 0xFF#8]) :=
  by decide +kernel

/-- A SERVICE_STATUS of an id without a record. -/
theorem test_meets_RefusedRequestsChangeNothing_in_the_node :
    let s := asking running 0x11#8 [0x00#8, 0x05#8]
    s.asks 0 (req 0x11#8 [0x00#8, 0x05#8]) ∧ s.link.stageOf 0 = some .waiting ∧
      (∃ t, exec .serviceStatusOne s = .next t ∧
        t.link.stageOf 0 = some (.sending [0x0B#8, 0x00#8, 0xFF#8] .nothing)) ∧
      ([0x0B#8, 0x00#8, 0xFF#8] : List Byte).head? ≠ some 0x00#8 :=
  ⟨by decide, by decide, ⟨_, rfl, by decide +kernel⟩, by decide⟩

/-! ## Line ports and paths -/

def ovh (reach : Bool) (hop : Nat) : Overhead :=
  { node := 9#8, count := 0, reach := reach, hop := hop, request := some 5, applied := 5, rxTrained := true
    remoteDefect := false, economy := false }
/-- A port UP with a confirmed copy that shows reach at a hop count. -/
def upPort (hop : Nat) : LinePort :=
  { state := .up, enabled := true, training := .trained, trained := some 5, request := some 5, rxTrained := true
    confirmed := some (ovh true hop) }
/-- The node of 2.5: number 40, hop counts 38 and 209, both sides REACHABLE, timing from line U. -/
def node40 : Node := { running with
  line := ⟨upPort 38, upPort 209⟩, timing := { source := .lineU }
  path := ⟨{ state := .reachable, initial := false, reach := true }, { state := .reachable, initial := false, reach := true }⟩ }
/-- The node that an event leaves. -/
def event (c : Instr) (n : Node) : Node := (after c (at0 n)).node
def lineCauses (n : Node) : List (LineState × LineCause) :=
  n.reports.queue.filterMap fun r => match r.body with | .lineEvent _ _ new c _ _ => some (new, c) | _ => none
def pathCauses (n : Node) : List (Side × PathState × PathCause) :=
  n.reports.queue.filterMap fun r => match r.body with | .pathEvent x _ new c _ _ _ _ => some (x, new, c) | _ => none

/-- R30: the bounds of the ranges; a new number is refused in RUNNING (R30). -/
def setNodeBody (number : Byte) : List Byte :=
  [number, 0xFA#8, 0x27#8, 0x10#8, 0x03#8, 0x84#8, 0x01#8, 0x02#8, 0x40#8]
theorem test_meets_SetNodeReplacesTheSettings :
    let b := setNodeBody 0x00#8
    ((asking node40 0x06#8 b).asks 0 (req 0x06#8 b) ∧ b.length = 9 ∧ f1 b 0 ≤ 250 ∧ 1 ≤ f1 b 1 ∧ f1 b 1 = 250 ∧
      f2 b 2 = 10000 ∧ f2 b 2 % 10 = 0 ∧ f2 b 4 = 900 ∧ prefOf (f1 b 6) = some .dFirst ∧ roundingOf (f1 b 7) = some .up ∧
      f1 b 8 = 64 ∧ (after .setNode (asking node40 0x06#8 b)).node.cfg = ⟨40, 250, 10000, 900, .dFirst, .up, 64⟩) ∧
    (let c := setNodeBody 0xFA#8
     node40.op = .running ∧ f1 c 0 ≠ 0 ∧ f1 c 0 ≠ node40.cfg.nodeNumber ∧ f1 c 0 = 250 ∧
      answer .setNode node40 0x06#8 c = [0x08#8, 0x00#8, 0xFF#8]) := by decide +kernel
/-- R41: a preference that is repeated has no effect on timing, be a revert due; the other one reverts the source. -/
theorem test_set_node_reverts_on_a_changed_preference_only :
    let due (src : TimingSource) : Node := { node40 with timing := { source := src, clean := ⟨40000, 40000⟩ } }
    let set (src : TimingSource) (pref : Byte) :=
      (after .setNode (asking (due src) 0x06#8 ((setNodeBody 0x00#8).set 6 pref))).node.timing.source
    node40.cfg.pref = .uFirst ∧ set .lineD 0x00#8 = .lineD ∧ set .lineU 0x01#8 = .lineD ∧
      (event .timingRevert (due .lineD)).timing.source = .lineU := by decide +kernel

/-- R5: thresholds 4,000 and 3,999, dwell 100, 1,440 minutes. -/
def lineSetBody (line on : Byte) (sd : Nat) : List Byte :=
  [line, on] ++ be2 sd ++ be2 4000 ++ be2 100 ++ be1 255 ++ be2 1440
theorem test_meets_LineSetConfiguresItsPort :
    let dark : Node := { node40 with line := ⟨{ upPort 38 with scan := none }, {}⟩ }
    (let b := lineSetBody 0x00#8 0x01#8 3999
     (asking node40 0x07#8 b).asks 0 (req 0x07#8 b) ∧ b.length = 11 ∧ lineOf (f1 b 0) = some .u ∧ boolOf (f1 b 1) = some true ∧
      f2 b 2 = 3999 ∧ f2 b 4 = 4000 ∧ f2 b 6 = 100 ∧ f2 b 9 = 1440 ∧ node40.line.u.state ≠ .disabled ∧
      (after .lineSet (asking node40 0x07#8 b)).node.line.u.periodic = some 345600000) ∧
    (let b := lineSetBody 0x01#8 0x01#8 1
     lineOf (f1 b 0) = some .d ∧ dark.op = .running ∧ dark.line.d.state = .disabled ∧
      lineCauses (after .lineSet (asking dark 0x07#8 b)).node = [(.seeking, .enabled)]) ∧
    (let b := lineSetBody 0x00#8 0x00#8 1
     boolOf (f1 b 1) = some false ∧ dark.line.u.state ≠ .disabled ∧
      (lineCauses (after .lineSet (asking dark 0x07#8 b)).node).head? = some (.disabled, .disabled) ∧
      (let sent : NoticeSending := ⟨⟨3, .c, .a, 0, [5]⟩, 40, 7#8, 1⟩
       let m := (after .lineSet (asking { node40 with cs := { line :=
         ⟨{ sending := some sent, forward := some [1#8] }, { lost := 2 }⟩ } } 0x07#8 b)).node
       m.cs.line.d.lost = 3 ∧ m.cs.line.u.waiting = [sent.notice] ∧ m.cs.line.u.sending = none)) ∧
    (let b := lineSetBody 0x00#8 0x00#8 4000
     f2 b 4 ≤ f2 b 2 ∧ answer .lineSet node40 0x07#8 b = [0x04#8, 0x00#8, 0x03#8]) := by decide +kernel

def aMeas (frames errors : Nat) : Meas := { dwell := 100, allowance := 0, frames := frames, errors := errors }
def scanning (frames errors : Nat) : Node :=
  { node40 with line := ⟨{ upPort 38 with scan := some { origin := .requested, meas := aMeas frames errors } }, upPort 209⟩ }
/-- R22, R23, R20: each clause. -/
theorem test_meets_ScansStartAndMoveOnByPosition :
    let ask (n : Node) := asking n 0x08#8 [0x00#8]
    let per (k : Nat) : Node := { node40 with line := ⟨{ upPort 38 with minutes := 1, periodic := some k }, upPort 209⟩ }
    let quick (preset errors : Nat) : Node := { running with line := ⟨{
      state := .training, training := .search preset (.measure { dwell := 16, allowance := 0, frames := 16, errors := errors })
        (List.replicate preset 3) }, {}⟩ }
    ((ask node40).asks 0 (req 0x08#8 [0x00#8]) ∧ node40.line.u.state = .up ∧ node40.line.u.scan = none ∧
      answer .marginScan node40 0x08#8 [0x00#8] = [0x00#8, 0x00#8, 0xFF#8, 0x01#8, 0x90#8, 0x00#8]) ∧
    (running.line.u.state ≠ .up ∧ answer .marginScan running 0x08#8 [0x00#8] = [0x08#8, 0x00#8, 0xFF#8]) ∧
    ((scanning 0 0).line.u.scan.isSome = true ∧
      answer .marginScan (scanning 0 0) 0x08#8 [0x00#8] = [0x01#8, 0x00#8, 0xFF#8]) ∧
    ((per 0).line.u.periodic = some 0 ∧ (event (.periodicScanDue .u) (per 0)).line.u.periodic = some 240000) ∧
    ((per 1).line.u.periodic ≠ some 0) ∧
    ((∃ m, (aMeas 100 0).judge = .go m ∧ m.position = 1) ∧ (∃ e, (aMeas 100 1).judge = .done e ∧ e.grade = .failing) ∧
      (event (.marginPositionDone .u) (scanning 100 1)).line.u.result.map (·.width) = some 0 ∧
      (event (.marginPositionDone .u) (scanning 99 1)).line.u.result = none) ∧
    ((quick 9 0).line.u.training = .search 9 (.measure { dwell := 16, allowance := 0, frames := 16 }) (List.replicate 9 3) ∧
      (event (.marginPositionDone .u) (quick 9 1)).line.u.request = some 10 ∧ (quick 9 1).line.u.training ≠ .trained) ∧
    ((event (.marginPositionDone .u) (quick 10 1)).line.u.trained = some 5 ∧
      (event (.marginPositionDone .u) (quick 10 1)).line.u.state = .training) := by
  refine ⟨by decide +kernel, by decide +kernel, by decide +kernel, by decide +kernel, by decide +kernel,
    ⟨⟨_, rfl, by decide +kernel⟩, ⟨_, rfl, by decide +kernel⟩, by decide +kernel, by decide +kernel⟩, by decide +kernel,
    by decide +kernel⟩

/-- The worked quick measurement of 1.8: positions −5 to +7 clean. -/
theorem test_worked_quick_measurement :
    let err (k : Int) : Nat := if -5 ≤ k ∧ k ≤ 7 then 0 else 3
    (({ dwell := 16, allowance := 0 } : Meas).run err 33) = .done
      { left := 5, right := 7, width := 13, grade := .fair, edgeLeft := some 3, edgeRight := some 3, measured := 15 } := by
  decide +kernel
theorem test_meets_MeasurementFindsTheMargins :
    (let err (k : Int) : Nat := if k = 0 then 1 else 0; 0 < err 0) ∧ (let err (_ : Int) : Nat := 0; err 0 ≤ 0) := by decide
theorem test_meets_TrainingSearchTurnsOnItsCounts_chosen :
    ([0, 9, 0, 0, 9, 0, 9, 0, 0, 9, 0] : List Nat).length = 11 ∧ choosePreset [0, 9, 0, 0, 9, 0, 9, 0, 0, 9, 0] = 4 := by decide

/-- R17, R18: the counts 32, 8 and 4,000, and one below each. -/
theorem test_meets_TrainingSearchTurnsOnItsCounts :
    let at' (t : Training) : Node := { running with line := ⟨{ state := .training, training := t }, {}⟩ }
    let widths (w : Nat) := List.replicate 10 w
    (event (.presetConfirmTimeout .u) (at' (.search 3 (.confirm 31) [1, 1, 1]))).line.u.request = none ∧
    (event (.presetConfirmTimeout .u) (at' (.search 9 (.confirm 32) (List.replicate 9 1)))).line.u.request = some 10 ∧
    ((widths 0 ++ [0]).getD (choosePreset (widths 0 ++ [0])) 0 = 0 ∧
      lineCauses (event (.presetConfirmTimeout .u) (at' (.search 10 (.confirm 32) (widths 0)))) = [(.training, .trainingFailed)]) ∧
    (0 < (widths 2 ++ [0]).getD (choosePreset (widths 2 ++ [0])) 0 ∧
      (event (.presetConfirmTimeout .u) (at' (.search 10 (.confirm 32) (widths 2)))).line.u.trained = some 5 ∧
      (at' .none).line.u.confirmed.any (·.rxTrained) = false) ∧
    (let both : Node := { running with line := ⟨{
       state := .training, training := .search 10 (.confirm 32) (widths 2), confirmed := some (ovh true 3) }, {}⟩ }
     both.line.u.confirmed.any (·.rxTrained) = true ∧
      lineCauses (event (.presetConfirmTimeout .u) both) = [(.up, .trained)]) ∧
    (event (.settleFramesEnd .u) (at' (.search 0 (.settle 7) []))).line.u.training = .search 0 (.settle 7) [] ∧
    (event (.settleFramesEnd .u) (at' (.search 0 (.settle 8) []))).line.u.training =
      .search 0 (.measure { dwell := 16, allowance := 0 }) [] ∧
    (event (.trainingRetry .u) (at' (.pause 3999))).line.u.training = .pause 3999 ∧
    (event (.trainingRetry .u) (at' (.pause 4000))).line.u.training = .search 0 .request [] := by decide +kernel

/-- A frame with the marker or without, its check field, and the rest of the overhead as node 41 sends it with reach. -/
def aFrame (good : Bool) (check : List Byte) : LineFrame :=
  { overhead := Vector.ofFn fun i =>
      ((if good then [0xF6#8] else [0xF7#8]) ++ [0x28#8, 0x5A#8, 0xC3#8, 41#8, 0#8, 1#8, 1#8, 209#8, 5#8, 5#8, 1#8, 0#8]
        ++ List.replicate 33 0#8 ++ check).getD i 0
    cells := Vector.replicate 936 0 }
/-- R7: the first, second and third good marker; a missing one; a frame elsewhere before the boundary comes round, and after. -/
theorem test_meets_AlignmentIsFoundAndLost :
    let at' (k past : Nat) : Node :=
      { running with line := ⟨{ state := .seeking, enabled := true, goodMarkers := k, boundary := 77, trialPast := past }, {}⟩ }
    let f := aFrame true [0#8, 0#8]
    let g := aFrame false [0#8, 0#8]
    (f.overhead.toList.take 4 = [0xF6#8, 0x28#8, 0x5A#8, 0xC3#8] ∧ g.overhead.toList.take 4 ≠ [0xF6#8, 0x28#8, 0x5A#8, 0xC3#8] ∧
      (at' 0 0).hasSignal .u = true) ∧
    (event (.lineFrameReceived .u 76 f 0) (at' 0 0)).line.u.boundary = 76 ∧
    (event (.lineFrameReceived .u 77 g 0) (at' 0 0)).line.u.goodMarkers = 0 ∧
    (let m := (event (.lineFrameReceived .u 76 f 0) (at' 2 100)).line.u
     m.goodMarkers = 2 ∧ m.boundary = 77 ∧ m.trialPast = 15359) ∧
    (let m := (event (.lineFrameReceived .u 100 f 0) (at' 2 100)).line.u; m.goodMarkers = 1 ∧ m.boundary = 100) ∧
    (event (.lineFrameReceived .u 77 g 0) (at' 2 0)).line.u.goodMarkers = 0 ∧
    (event (.lineFrameReceived .u 77 f 0) (at' 1 0)).line.u.goodMarkers = 2 ∧
    lineCauses (event (.lineFrameReceived .u 77 f 0) (at' 2 0)) = [(.training, .aligned)] := by decide +kernel
/-- R7: markers at P, at Q, at P and at P align the port at P, for a trial looks 1,920 bytes after its boundary only. -/
theorem test_a_marker_elsewhere_does_not_end_a_trial :
    let f := aFrame true [0#8, 0#8]
    let n : Node := { running with line := ⟨{ state := .seeking, enabled := true }, {}⟩ }
    let m := [77, 5000, 77, 77].foldl (fun m q => event (.lineFrameReceived .u q f 0) m) n
    m.line.u.state = .training ∧ m.line.u.boundary = 77 := by decide +kernel

/-- R10: a frame that bears the check of the one before confirms it; another counts one errored frame; without signal, elsewhere
and after three wrong markers. -/
theorem test_meets_FrameConfirmsOrFailsTheOneBefore :
    let before : PendingFrame := ⟨(aFrame true []).overhead.toList, 0x1234#16, false, true⟩
    let p : LinePort := { upPort 38 with pendingFrame := some before, win := { frames := 3999, errors := 39, sdThr := 40, sfThr := 400 } }
    let n : Node := { node40 with line := ⟨p, upPort 209⟩ }
    let good := Instr.lineFrameReceived .u 0 (aFrame true [0x12#8, 0x34#8]) 0
    let bad := Instr.lineFrameReceived .u 0 (aFrame true [0x12#8, 0x35#8]) 0
    let m : Node := { node40 with line := ⟨{ p with wrongMarkers := 3 }, upPort 209⟩ }
    (p.state = .up ∧ p.training = .trained ∧ p.win.frames < 4000 ∧ p.scan = none ∧ n.hasSignal .u = true ∧
      before.markerWrong = false ∧ markerGood (aFrame true [0x12#8, 0x34#8]).overhead.toList = true) ∧
    (before.check = checkField (aFrame true [0x12#8, 0x34#8]).overhead.toList ∧
      (event good n).line.u.confirmed.map (·.hop) = some 209) ∧
    (before.check ≠ checkField (aFrame true [0x12#8, 0x35#8]).overhead.toList ∧ before.inUp = true ∧
      lineCauses (event bad n) = [(.up, .sdSet)]) ∧
    ((event (.lineFrameReceived .u 1 (aFrame true []) 0) n).line.u.win.frames = 3999) ∧
    (lineCauses (event (.lineFrameReceived .u 0 (aFrame false []) 0) m)).getLast? = some (.seeking, .alignmentLost) := by
  decide +kernel
/-- R13: the thresholds in force are those set when the window's first frame is received, not those of a later LINE_SET. -/
theorem test_a_window_takes_its_thresholds_with_its_first_frame :
    let take (n : Node) := event (.lineFrameReceived .u 0 (aFrame true []) 0) n
    let with' (w : Window) : Node := { node40 with line := ⟨{ upPort 38 with sdThr := 7, sfThr := 9, win := w }, upPort 209⟩ }
    (take (with' { last := 4, sdThr := 40, sfThr := 400 })).line.u.win = { frames := 1, last := 4, sdThr := 7, sfThr := 9 } ∧
    (take (with' { frames := 1, sdThr := 40, sfThr := 400 })).line.u.win = { frames := 2, sdThr := 40, sfThr := 400 } := by
  decide +kernel

/-- R8, R7; event 1 of the example of 2.5: line D loses signal, side B begins its hold-off of 200 frames. -/
theorem test_meets_AlignmentIsFoundAndLost_signal :
    let seek : Node := { running with line := ⟨{ state := .seeking, goodMarkers := 2 }, {}⟩ }
    (at0 node40).awake ∧ seek.line.u.state = .seeking ∧ (event (.signalLost .u .modulePresent) seek).line.u.goodMarkers = 0 ∧
    seek.line.d.state = .disabled ∧ node40.line.d.state = .up ∧ node40.line.d.scan = none ∧
    (let m := event (.signalLost .d .signalDetect) node40
     lineCauses m = [(.seeking, .signalLost)] ∧ pathCauses m = [(.b, .holdOff, .reachLost)] ∧ m.path.d.timer = 200 ∧
      m.timing.source = .lineU) := by decide +kernel

/-- R14, R15: at the defaults 40 and 400, SF clears after two windows below 40, SD below 20. -/
theorem test_meets_WindowEndJudgesSdAndSf :
    let at' (frames errors below : Nat) : Node := { node40 with line := ⟨{ upPort 38 with
      sd := true, sf := true, win := { frames := frames, errors := errors, below := below, sdThr := 40, sfThr := 400 } }, upPort 209⟩ }
    ((at' 4000 20 1).line.u.state = .up ∧ 4000 ≤ (at' 4000 20 1).line.u.win.frames) ∧
    lineCauses (event (.errorWindowEnd .u) (at' 4000 20 1)) = [(.up, .sfClear)] ∧
    lineCauses (event (.errorWindowEnd .u) (at' 4000 19 1)) = [(.up, .sfClear), (.up, .sdClear)] ∧
    lineCauses (event (.errorWindowEnd .u) (at' 4000 40 1)) = [] ∧
    lineCauses (event (.errorWindowEnd .u) { at' 4000 19 1 with line := (at' 4000 19 1).line.set .u { (at' 4000 19 1).line.u with
      sf := false } }) = [(.up, .sdClear)] ∧
    (event (.errorWindowEnd .u) (at' 3999 0 1)).line.u.win.frames = 3999 := by decide +kernel

/-- Events 2 and 6 of the example of 2.5, and a WTR that has run out. -/
theorem test_meets_TimersAndForcingMoveTheirSides :
    let path (a b : PathState) (t : Nat) : Node := { node40 with path :=
      ⟨{ state := a, initial := false, timer := t }, { state := b, initial := false, reach := true, timer := 7 }⟩ }
    ((path .holdOff .reachable 0).path.u.state = .holdOff ∧
      (event (.holdOffExpired .a) (path .holdOff .reachable 0)).sig.au = [.lost .a]) ∧
    ((path .holdOff .waitRestore 0).path.d.state = .waitRestore ∧
      pathCauses (event (.holdOffExpired .a) (path .holdOff .waitRestore 0)) =
        [(.a, .lost, .holdOffExpired), (.b, .reachable, .otherSideLost)]) ∧
    (event (.wtrExpired .a) (path .waitRestore .lost 0)).sig.pe = [.restored .a] ∧
    (event (.holdOffExpired .a) (path .holdOff .reachable 1)).path.u.timer = 1 ∧
    (event (.wtrExpired .b) (path .lost .waitRestore 0)).path.d.timer = 7 := by decide +kernel

/-- R28, R32 to R36: each row. The hop count 39 is at the limit, 40 above it (R28). -/
theorem test_meets_ReachMovesLostAndReachableSides :
    let n (p : PathSide) (hop : Nat) (hold : Nat) : Node :=
      { running with cfg := { hopLimit := 39, holdOff := hold }, line := ⟨upPort hop, upPort 5⟩, path := ⟨p, {}⟩ }
    let st (p : PathSide) (hop hold : Nat) := ((n p hop hold).formReach .a).path.u
    (upPort 39).reaches 39 = true ∧ (upPort 40).reaches 39 = false ∧
    (st { reach := true } 39 50).state = .lost ∧
    (st { forced := true } 39 50).state = .lost ∧ (st {} 39 50).state = .reachable ∧
    (st { initial := false } 39 50) = { state := .waitRestore, initial := false, reach := true, timer := 1200000 } ∧
    (st { initial := false, state := .holdOff, timer := 3 } 39 50).state = .reachable ∧
    (st { initial := false, state := .reachable, reach := true } 40 50) = { state := .holdOff, initial := false, timer := 200 } ∧
    (st { initial := false, state := .reachable, reach := true } 40 0).state = .lost ∧
    (n { initial := false, state := .reachable, reach := true } 39 50).formReach .a =
      n { initial := false, state := .reachable, reach := true } 39 50 ∧
    (st { initial := false, state := .waitRestore, timer := 9, reach := true } 40 50).state = .lost ∧
    (st { initial := false, state := .holdOff, timer := 9, reach := true } 40 50).reach = false ∧
    (st { initial := false, state := .waitRestore, timer := 9 } 39 50).state = .waitRestore ∧
    (st { initial := false, forced := true, reach := true } 40 50).reach = false := by decide +kernel

/-- R36. -/
theorem test_meets_TimersAndForcingMoveTheirSides_forced :
    let n (forced reach : Bool) (st : PathState) : Node :=
      { node40 with path := ⟨{ state := st, initial := false, forced := forced, reach := reach }, node40.path.d⟩ }
    let set (m : Node) := after .pathForceSet (asking m 0x0A#8 [0x00#8, 0x00#8])
    let clr (m : Node) := after .pathForceClear (asking m 0x0A#8 [0x00#8, 0x01#8])
    ((asking node40 0x0A#8 [0x00#8, 0x00#8]).asks 0 (req 0x0A#8 [0x00#8, 0x00#8]) ∧ node40.op = .running ∧
      sideOf (f1 [0x00#8, 0x00#8] 0) = some .a ∧ f1 [0x00#8, 0x00#8] 1 = 0) ∧
    replyOf (set (n true true .lost)) = [0x00#8, 0x00#8, 0xFF#8, 0x02#8] ∧
    (set (n false false .lost)).node.path.u.forced = true ∧ (set (n false true .reachable)).node.sig.au = [.lost .a] ∧
    (clr (n false true .reachable)).node = n false true .reachable ∧ (clr (n true false .lost)).node.path.u.state = .lost ∧
    (clr (n true true .lost)).node.sig.au = [.restored .a] ∧
    replyOf (clr (n true true .lost)) = [0x00#8, 0x00#8, 0xFF#8, 0x00#8] := by decide +kernel

/-- R40: 40,000 clean frames, not 39,999. Event 5 of the example of 2.5: the source leaves line U for line D. -/
theorem test_meets_TimingFollowsTheQualifyingLine :
    let onD (k : Nat) : Node := { node40 with timing := { source := .lineD, clean := ⟨k, 0⟩ } }
    let sf (a b : Bool) (src : TimingSource) : Node :=
      { node40 with line := ⟨{ upPort 38 with sf := a }, { upPort 209 with sf := b }⟩, timing := { source := src } }
    (at0 node40).awake ∧ (event .timingRevert (onD 40000)).timing.source = .lineU ∧
    (event .timingRevert (onD 39999)).timing.source = .lineD ∧
    (sf false false .lineU).selectTiming = sf false false .lineU ∧
    (sf true false .lineU).selectTiming.timing.source = .lineD ∧ (sf true true .lineU).selectTiming.timing.source = .local ∧
    (sf false false .local).selectTiming.timing.source = .lineU ∧ (sf true false .local).selectTiming.timing.source = .lineD ∧
    (sf true true .local).selectTiming.timing.source = .local ∧
    (event (.signalLost .u .modulePresent) node40).timing.source = .lineD := by decide +kernel

/-! ## The cell switch -/

/-- R44, R186: the first frame start leaves the count at 0; the fourth of a run makes a tick due; nothing is sent in CONFIG. -/
theorem test_meets_FrameStartCountsAndBeginsFrames :
    let voice : Vector CellVal 8 := Vector.replicate 8 0
    let wrap : Node := { clk := { frame := 0xFFFF#16, started := true, phase := 3 } }
    (at0 {}).awake ∧ (at0 {}).settle = at0 {} ∧ (event (.frameStart voice) {}).clk = { started := true, phase := 1 } ∧
    (event (.frameStart voice) wrap).clk = { frame := 0, started := true, phase := 0, tickDue := true } ∧
    (event (.frameStart voice) wrap).line.u.txFrame = none ∧
    (event (.frameStart voice) node40).path = node40.path ∧ node40.line.u.state ≠ .disabled ∧ (at0 node40).settle = at0 node40 := by
  decide +kernel

/-- A node whose port 0 is in a call state, as the test names it. -/
def voiceNode (ph : Phone) : Node :=
  ({ node40 with cs := { line := ⟨{ presented := some (List.replicate 936 7#16) }, {}⟩ } } : Node).setPhone 0 ph
/-- R116, R117: a port enabled in RUNNING takes the voice bus's cell and sends that of its call's cell on side A; another port
sends idle fill. -/
theorem test_meets_FrameStartCountsAndBeginsFrames_voice :
    let voice : Vector CellVal 8 := #v[3#16, 4#16, 0, 0, 0, 0, 0, 0]
    let m := event (.frameStart voice) (voiceNode
      { set := { enabled := true }, call := .answered, liveCell := some 935, selected := some .a })
    m.op = .running ∧ (m.phone 0).set.enabled = true ∧ (m.phone 0).voiceIn = 3#16 ∧ (m.phone 0).voiceOut = 7#16 ∧
    (m.phone 1).set.enabled = false ∧ (m.phone 1).voiceIn = 0xD5D5#16 ∧ (m.phone 1).voiceOut = 0xD5D5#16 := by decide +kernel
/-- R119: each row. -/
theorem test_meets_TonesFollowTheCallState :
    let tone (c : CallState) (x : Option Side) (on : Bool) : Byte := ((event (.frameStart (Vector.replicate 8 0)) (voiceNode {
      set := { enabled := true }, call := c, selected := x
      cadence := if c = .queued then some ⟨.wait, on, 0, 3000, 500⟩ else none })).phone 0).toneOut
    [CallState.idle, .held, .ringing, .clearing].map (fun c => tone c none true) = [0x00#8, 0x00#8, 0x00#8, 0x04#8] ∧
    tone .queued none true = 0x02#8 ∧ tone .queued none false = 0x00#8 ∧ tone .opened none true = 0x03#8 ∧
    tone .opened (some .b) true = 0x01#8 ∧ tone .answered none true = 0x03#8 ∧ tone .answered (some .a) true = 0x00#8 := by
  decide +kernel

/-- R50: held for eight frame starts; R52: idle fill in an idle half. -/
theorem test_meets_CellsPassOrCarryTheirHalves :
    let w : SwitchLine := { presented := some [1#16], hold := 8 }
    let n : Node := { placedNode with
      line := ⟨{}, { state := .up, enabled := true }⟩, cs := { placedNode.cs with line := ⟨w, {}⟩ } }
    (({ w with newest := some [2#16], arrived := 3 }).present false).skipped = 2 ∧ w.newest = none ∧ (w.present false).repeated = 1 ∧
    ({ w with hold := 7 }).hold < 8 ∧ (({ w with hold := 7 }).present true).hold = 8 ∧ 8 ≤ w.hold ∧
    (at0 n).awake ∧ n.line.u.state = .disabled ∧ (event (.lineHoldEnd .u) n).cs.line.u.presented = none ∧
    n.line.d.state ≠ .disabled ∧ (event (.lineHoldEnd .d) n).cs = n.cs ∧
    n.cs.live.Pairwise (·.cell < ·.cell) ∧ entryOf n.cs.live 0 = none ∧
    (entryOf n.cs.live 5).map (fun e => (e.owner .a, e.owner .b)) = some (some 3, none) := by decide +kernel

/-- The example of 3.4: release at 1000 with lead 8, then lead 4, placements at 1003 and 1004, a second change at 1006. -/
def atFrame (f : BitVec 16) (lead : Nat) (n : Node) : Node :=
  { n with clk := { frame := f, started := true }, cfg := { n.cfg with lead := lead } }
def at1006 : Node :=
  let n := (atFrame 1000#16 8 running).handHalves 12 .c {}
  let n := (atFrame 1003#16 4 n).handHalves 20 .c { a := [40, 41] }
  let n := (atFrame 1004#16 4 n).handHalves 7 .c { a := [44, 45] }
  (atFrame 1006#16 4 n).handHalves 20 .c { a := [40, 41, 43] }
theorem test_release_and_regrant_example :
    at1006.cs.staging.map (fun r => (r.id, r.set.a, r.eff.toNat)) = [(12, [], 1008), (7, [44, 45], 1008), (20, [40, 41, 43], 1010)] ∧
    at1006.cs.line.u.waiting.map (fun m => (m.id, m.cells)) = [(12, []), (20, [40, 41, 43]), (7, [44, 45])] := by decide +kernel
theorem test_meets_StagingRecordsAreMadeAndApplied :
    let n := atFrame 1007#16 4 { at1006 with cs := { at1006.cs with live := [⟨44, none, none⟩] } }
    n.cfg.lead ≤ 65535 ∧ (at0 n).awake ∧ running.cs.staging = [] ∧ n.cs.staging.map (·.id) = [12, 7, 20] ∧
    n.cs.staging.map (·.eff) = [1008#16, 1008#16, 1010#16] ∧ n.clk.frame + 1 = 1008#16 ∧
    (event .stagingApply n).cs.staging.map (·.id) = [7, 20] ∧
    (entryOf (event .stagingApply (event .stagingApply n)).cs.live 44).bind (·.a) = some 7 ∧
    (event .stagingApply (atFrame 1006#16 4 n)).cs.staging = n.cs.staging := by decide +kernel

/-- The fragment counts of 3.5. -/
theorem test_fragment_counts :
    let m (k : Nat) : Notice := { id := 1, cls := .t, sides := .both, eff := 0, cells := List.range k }
    [0, 2, 11, 12, 33, 96].map (fun k => ((m k).bytes.length, (m k).fragments)) =
      [(6, 1), (10, 1), (28, 1), (30, 2), (72, 3), (198, 8)] := by decide +kernel

/-- R58, R59, R61: a notice of two fragments, the second of them, a forwarded field and the empty field; a replaced field is
counted on the line that received it; an own number is reported at first and after a minute's frame starts. -/
theorem test_meets_NoticesGoOutAndAreForwarded :
    let notice : Notice := { id := 1, cls := .t, sides := .both, eff := 0, cells := List.range 12 }
    let own (w : SwitchLine) : Node := { node40 with cs := { line := ⟨w, {}⟩ } }
    let sent (w : SwitchLine) : List Byte :=
      ((event (.frameStart (Vector.replicate 8 0)) (own w)).line.u.txFrame.map fun t => (t.overhead.drop 13).take 33).getD []
    let queue (w : SwitchLine) := (event (.frameStart (Vector.replicate 8 0)) (own w)).cs.line.u
    let field : List Byte := 9#8 :: List.replicate 32 1#8
    ((at0 (own {})).settle = at0 (own {}) ∧ sent {} = List.replicate 33 0#8) ∧
    ((sent { waiting := [notice], seq := 255#8 }).take 5 = [40#8, 255#8, 0#8, 2#8, 28#8] ∧
      (queue { waiting := [notice], seq := 255#8 }).seq = 0#8 ∧
      (queue { waiting := [notice] }).sending = some ⟨notice, 40, 0#8, 1⟩) ∧
    ((sent { sending := some ⟨notice, 40, 6#8, 1⟩ }).take 5 = [40#8, 6#8, 1#8, 2#8, 2#8] ∧
      (queue { sending := some ⟨notice, 40, 6#8, 1⟩ }).sending = none) ∧
    (sent { forward := some field, waiting := [notice] } = field ∧
      (queue { forward := some field, waiting := [notice] }).waiting = [notice]) ∧
    ((own { forward := some [2#8] }).noticeConfirmed .d field).cs.line.u.forward = some field ∧
    ((own { forward := some [2#8] }).noticeConfirmed .d field).cs.line.d.lost = 1 ∧
    ((own {}).noticeConfirmed .d [0#8]) = own {} ∧ (running.noticeConfirmed .d field).cs.line.u.forward = none ∧
    (let again (age : Nat) : Node := { node40 with cs := { conflictAge := some age } }
     (node40.noticeConfirmed .d [40#8]).reports.queue.length = 1 ∧
      ((again 239999).noticeConfirmed .d [40#8]).reports.queue.length = 0 ∧
      ((again 240000).noticeConfirmed .d [40#8]).reports.queue.length = 1) := by decide +kernel

def freeNine : Node := { placedNode with
  au := { placedNode.au with allot := placedNode.au.allot ++ [⟨9, none, none⟩] }
  cs := { placedNode.cs with live := placedNode.cs.live ++ [⟨9, none, none⟩] } }
/-- R46, R47: cell 935 is the last; a cell in use and a cell not allotted refuse a REMOVE, naming it. -/
theorem test_meets_AllotmentGainsAndLosesCells :
    TablesInOrder placedNode ∧ TablesInOrder freeNine ∧
    (let add := [0x00#8, 0x00#8, 0x02#8, 0x03#8, 0xA7#8, 0x00#8, 0x05#8]
     let rem (x : Byte) := [0x01#8, 0x00#8, 0x01#8, 0x00#8, x]
     ((asking placedNode 0x0C#8 add).asks 0 (req 0x0C#8 add) ∧ add.length = 3 + 2 * f2 add 1 ∧ allotmentCells add = [935, 5] ∧
       f1 add 0 = 0 ∧ (answer .setAllotmentAdd placedNode 0x0C#8 add) = [0x00#8, 0x00#8, 0xFF#8, 0x00#8, 0x01#8]) ∧
     (allotmentCells (rem 0x09#8) = [9] ∧ freeNine.allotted 9 = true ∧ freeNine.cellInUse 9 = false ∧
       answer .setAllotmentRemove freeNine 0x0C#8 (rem 0x09#8) = [0x00#8, 0x00#8, 0xFF#8, 0x00#8, 0x01#8]) ∧
     (freeNine.allotted 6 = false ∧
       answer .setAllotmentRemove freeNine 0x0C#8 (rem 0x06#8) = [0x14#8, 0x00#8, 0xFF#8, 0x00#8, 0x06#8]) ∧
     (freeNine.cellInUse 7 = true ∧ answer .setAllotmentRemove freeNine 0x0C#8 (rem 0x07#8) = [0x13#8, 0x00#8, 0xFF#8, 0x00#8, 0x07#8])) :=
  ⟨placedNode_in_order, ⟨by decide, by decide, by decide, by decide⟩, by decide +kernel⟩

/-! ## The admission unit -/

/-- The table of 4.3: NEAREST_EVEN, DOWN and UP. -/
theorem test_grant_figures :
    let row (k : Machine.Class) (r : Nat) := [Rounding.nearestEven, .down, .up].map fun m =>
      ((grantOf k m r).cells, (grantOf k m r).clamped)
    row .t 2048000 = [(33, false), (33, false), (33, false)] ∧ row .c 150000 = [(3, false), (3, false), (4, false)] ∧
    row .c 160000 = [(4, false), (3, false), (4, false)] ∧ row .w 96000 = [(2, false), (2, false), (3, false)] ∧
    row .w 9600 = [(2, true), (2, true), (2, false)] ∧ row .t 6079000 = [(96, false), (95, false), (96, false)] ∧
    row .e 64000 = [(1, false), (1, false), (1, false)] := by decide +kernel

/-- The node of 4.9 before its five requests: twelve cells, the ceiling of level 2 at 8, port 0 enabled. -/
def node49 : Node :=
  let cells := [0, 1, 2, 3, 12, 13, 14, 15, 24, 25, 26, 27].map fun c => (⟨c, none, none⟩ : HalfEntry)
  { node40 with
    au := { allot := cells, map := { ceiling := #v[1872, 1872, 8, 1872] } }, cs := { live := cells }
    pe := { ports := #v[{ enabled := true }, {}, {}, {}] } }
theorem node49_in_order : TablesInOrder node49 := ⟨by decide, by decide, by decide, by decide⟩
def defBody (id cls prot prim rate floor mode wait order channel : Nat) : List Byte :=
  [id, cls, prot, prim].flatMap be1 ++ be4 rate ++ be4 floor ++ [mode, 0, wait, order, 0, 0, channel, 4].flatMap be1 ++ be2 0
def define (n : Node) (b : List Byte) : Node := (after .defineService (asking n 0x0F#8 b)).node
/-- A record's state, cells, admission and shed order numbers. -/
structure Placing where
  state : SvcState
  cells : List Nat
  adm : Option Nat
  shedNo : Option Nat
  deriving DecidableEq, Repr
def placedOf (n : Node) (id : Nat) : Option Placing := (n.svc id).map fun v => ⟨v.state, v.cells, v.adm, v.shedNo⟩
def reasonOf (n : Node) (id : Nat) : Option ShedReason := (n.svc id).bind (·.reason)
def req1 := defBody 3 1 2 0 128000 0 0 0 0 0
def req2 := defBody 5 2 1 0 160000 96000 0 0 1 1
def req3 := defBody 9 4 1 1 9600 0 3 1 0 2
def req4 := defBody 11 2 1 0 300000 150000 1 0 0 3
def req5 := defBody 20 2 1 0 128000 0 0 1 0 4
def after3 : Node := define (define (define node49 req1) req2) req3
/-- Requests 1 to 3 of 4.9. -/
theorem test_run_of_definitions_1_to_3 :
    placedOf after3 3 = some ⟨.active, [0, 1, 2], some 1, none⟩ ∧ placedOf after3 5 = some ⟨.active, [3, 12, 13, 24], some 2, none⟩ ∧
    placedOf after3 9 = some ⟨.active, [3, 12], some 3, none⟩ := by decide +kernel
/-- Requests 4 and 5 of 4.9, and the pass of 5.3 after the ceiling of level 2 has been raised to 12. -/
theorem test_run_of_definitions_4_and_5_and_the_raised_ceiling :
    let n := define (define after3 req4) req5
    let raise := [1#8, 2#8, 3#8, 3#8] ++ [1872, 1872, 12, 1872].flatMap be2 ++ [0#8, 1#8, 1#8, 1#8, 0#8, 0#8]
    let m := (after .setLevels (asking n 0x0E#8 raise)).node
    placedOf n 11 = some ⟨.reduced, [14, 15, 25], some 4, none⟩ ∧ placedOf n 20 = some ⟨.shed, [], none, some 1⟩ ∧
    (List.range 4).map n.levelUse = [0, 6, 7, 2] ∧ placedOf m 11 = some ⟨.active, [14, 15, 25, 26, 27], some 4, none⟩ ∧
    placedOf m 20 = some ⟨.shed, [], none, some 1⟩ := by decide +kernel
/-- The SPREAD placement of 4.4, its ranks when cells 0 and 12 are not usable, and no placement above the ceiling. -/
theorem test_meets_PlacementTakesUsableCellsInOrder :
    TablesInOrder node49 ∧
    (let v : Service := { svcC 3 .a [] with order := .spread, prot := .dual, level := 3 }
     let n : Node := { node49 with au := { node49.au with allot := node49.au.allot.filter fun e => e.cell != 0 && e.cell != 12 } }
     node49.plainCells v .a 5 = some [0, 1, 12, 13, 24] ∧ n.plainCells v .a 5 = some [1, 2, 13, 14, 24] ∧
     node49.plainCells { v with order := .linear } .a 5 = some [0, 1, 2, 3, 12] ∧
     node49.plainCells { v with level := 2 } .a 5 = none ∧ node49.plainCells v .a 13 = none) :=
  ⟨node49_in_order, by decide +kernel⟩

/-- R78: a checked definition; with economy mode, without a usable side, without room, and with a wrong id. -/
theorem test_meets_DefinitionPlacesShedsOrRefuses :
    TablesInOrder node49 ∧ TablesInOrder { node49 with path := ⟨{}, {}⟩ } ∧
    TablesInOrder { node49 with au := { node49.au with economy := true } } ∧
    (let checks (n : Node) (b : List Byte) := firstRefusal (commonChecks n false b 22 ++ defineChecks n b)
     let lost : Node := { node49 with path := ⟨{}, {}⟩ }
     let eco : Node := { node49 with au := { node49.au with economy := true } }
     let big (wait : Nat) := defBody 3 2 1 0 6080000 0 0 wait 0 0
     (asking node49 0x0F#8 req2).asks 0 (req 0x0F#8 req2) ∧
     checks node49 (defBody 56 1 2 0 128000 0 0 0 0 0) = some (refusal .idReserved) ∧
     (checks node49 req2 = none ∧ node49.au.economy = false ∧ node49.targetSide (node49.recordOf (definitionOf req2)) = some .a ∧
       node49.plainCells (node49.recordOf (definitionOf req2)) .a 4 = some [0, 1, 12, 24]) ∧
     (checks eco req2 = none ∧ 2 ≤ (eco.recordOf (definitionOf req2)).level ∧
       reasonOf (define eco req2) 5 = some .economy) ∧
     (lost.usable .a = false ∧ lost.usable .b = false ∧ reasonOf (define lost req2) 5 = some .pathLost) ∧
     (checks node49 (big 1) = none ∧ reasonOf (define node49 (big 1)) 3 = some .noRoom) ∧
     answer .defineService node49 0x0F#8 (big 0) = [0x11#8, 0x00#8, 0xFF#8] ∧
     (let v := node49.recordOf (definitionOf (big 0)); node49.attempts v .a (v.fullAttempts ++ v.floorAttempts) = none)) :=
  ⟨node49_in_order, ⟨by decide, by decide, by decide, by decide⟩, ⟨by decide, by decide, by decide, by decide⟩, by decide +kernel⟩

theorem after3_in_order : TablesInOrder after3 :=
  ⟨by decide +kernel, by decide +kernel, by decide +kernel, by decide +kernel⟩
/-- R78, R91: request 4 of 4.9 fails at its full grant and is REDUCED at its floor; a class whose level may pre-empt sheds service 9
for its full grant. -/
theorem test_meets_DefinitionPlacesShedsOrRefuses_at_the_floor :
    let v4 := after3.recordOf (definitionOf req4)
    let hungry := defBody 40 1 0 0 448000 0 0 0 0 4
    let v := after3.recordOf (definitionOf hungry)
    TablesInOrder after3 ∧ (asking after3 0x0F#8 req4).asks 0 (req 0x0F#8 req4) ∧
    firstRefusal (commonChecks after3 false req4 22 ++ defineChecks after3 req4) = none ∧
    after3.targetSide v4 = some .a ∧ after3.plainCells v4 .a v4.full = none ∧ after3.au.map.mayPreempt v4.level = false ∧
    v4.floor = some 3 ∧ (after3.plainCells v4 .a 3).isSome = true ∧
    (firstRefusal (commonChecks after3 false hungry 22 ++ defineChecks after3 hungry) = none ∧ after3.plainCells v .a v.full = none ∧
      after3.au.map.mayPreempt v.level = true ∧ (after3.preemptCells v .a v.full).isSome = true ∧
      (placedOf (define after3 hungry) 40).map (·.state) = some .active ∧ reasonOf (define after3 hungry) 9 = some .preEmpted) :=
  ⟨after3_in_order, by decide +kernel⟩

/-- The six cells of the example of 5.2, with services 1, 4 and 6 in them. -/
def node52 : Node :=
  let e (k a b : Nat) : HalfEntry := ⟨k, some a, some b⟩
  let cells := [e 0 1 1, e 1 1 1, e 2 1 1, e 3 1 1, e 4 4 6, e 5 4 6]
  let t : Service := { svcC 1 .a [0, 1, 2, 3] with cls := .t, level := 1, prot := .dual, current := none, full := 4 }
  let w : Service := { svcC 6 .b [4, 5] with cls := .w, level := 3, adm := some 3 }
  { node40 with
    au := { allot := cells, services := [t, { svcC 4 .a [4, 5] with adm := some 2 }, w], admCounter := 3, shedCounter := 1 }
    cs := { live := cells }, pe := { svcs := [{ id := 1 }, { id := 4 }, { id := 6 }] } }
theorem node52_in_order : TablesInOrder node52 := ⟨by decide, by decide, by decide, by decide⟩
/-- Event 1 of the example of 5.2: the call service 58 sheds 6 with shed number 2 and 4 with 3, and takes cell 4. -/
theorem test_meets_PreEmptionShedsOnlyEligibleServices :
    TablesInOrder node52 ∧
    (let v : Service := { id := 58, cls := .e, level := 0, prot := .dual, primary := .a, rate := 64000, mode := .nodeDefault
                          modeUsed := .nearestEven, binding := .phone 2, full := 1, state := .active }
     node52.svc 58 = none ∧ node52.plainCells v .a 1 = none ∧ (node52.preemptCells v .a 1).map (·.2) = some [4] ∧
     (node52.preemptCells v .a 1).map (fun q => (placedOf q.1 6, placedOf q.1 4)) =
       some (some ⟨.shed, [], some 3, some 2⟩, some ⟨.shed, [], some 2, some 3⟩)) :=
  ⟨node52_in_order, by decide +kernel⟩

/-- The example of 5.2 where pruning spares service 30: 31 and 22 are shed, in that order, and service 57 takes cell 13. -/
theorem test_meets_PreEmptionShedsOnlyEligibleServices_spared :
    let cells : List HalfEntry := [⟨10, some 21, some 30⟩, ⟨11, some 21, some 31⟩, ⟨12, some 22, some 30⟩, ⟨13, some 22, some 31⟩]
    let w (id adm : Nat) (x : Side) (own : List Nat) : Service :=
      { svcC id x own with cls := if x = .a then .c else .w, level := if x = .a then 2 else 3, adm := some adm }
    let n : Node := { node40 with
      au := { allot := cells, services := [w 21 5 .a [10, 11], w 22 8 .a [12, 13], w 30 6 .b [10, 12], w 31 7 .b [11, 13]] }
      cs := { live := cells } }
    let v : Service := { id := 57, cls := .e, level := 0, prot := .dual, primary := .a, rate := 64000, mode := .nodeDefault
                         modeUsed := .nearestEven, binding := .phone 1, full := 1, state := .active }
    (n.victims 0).map (·.id) = [31, 30, 22, 21] ∧ n.svc 57 = none ∧
    (n.preemptCells v .a 1).map (fun q => (q.2, [21, 22, 30, 31].map fun id => (placedOf q.1 id).map fun p => (p.state, p.shedNo))) =
      some ([13], [some (.active, none), some (.shed, some 2), some (.active, none), some (.shed, some 1)]) := by decide +kernel

/-- R83. -/
theorem test_meets_ReleaseRemovesTheService :
    let go (n : Node) (id : Byte) := answer .releaseService n 0x10#8 [id]
    (asking node52 0x10#8 [0x04#8]).asks 0 (req 0x10#8 [0x04#8]) ∧ (node52.svc 4).isSome = true ∧
    go node52 0x04#8 = [0x00#8, 0x00#8, 0xFF#8] ∧ go node52 0x37#8 = [0x0B#8, 0x00#8, 0xFF#8] ∧
    go node52 0x38#8 = [0x09#8, 0x00#8, 0xFF#8] ∧ go node52 0x3F#8 = [0x09#8, 0x00#8, 0xFF#8] ∧
    go node52 0x40#8 = [0x04#8, 0x00#8, 0x00#8] ∧ go node52 0xFF#8 = [0x04#8, 0x00#8, 0x00#8] := by decide +kernel

/-- R68: the refusals of 4.9, and both answers. -/
theorem test_meets_SetLevelsReplacesTheClassMap :
    let n := define (define after3 req4) req5
    let body (c ceil2 : Nat) := [1, c, 3, 3].flatMap be1 ++ [1872, 1872, ceil2, 1872].flatMap be2 ++ [0#8, 1#8, 1#8, 1#8, 0#8, 0#8]
    let b := body 2 7
    (asking n 0x0E#8 b).asks 0 (req 0x0E#8 b) ∧
    firstRefusal (commonChecks n false b 18 ++ levelFieldChecks b ++ classInUseChecks n b ++ ceilingChecks n b) = none ∧
    answer .setLevels n 0x0E#8 (body 2 7) = [0x00#8, 0x00#8, 0xFF#8] ∧
    answer .setLevels n 0x0E#8 (body 2 6) = [0x12#8, 0x00#8, 0xFF#8, 0x02#8, 0x00#8, 0x07#8] ∧
    answer .setLevels n 0x0E#8 (body 3 8) = [0x0D#8, 0x00#8, 0xFF#8, 0x02#8] := by decide +kernel

/-- R104, R106. -/
theorem test_meets_EconomyModeKeepsHighLevelsShed :
    TablesInOrder node52 ∧ TablesInOrder { node52 with au := { node52.au with economy := true } } ∧
    (let eco (n : Node) : Node := { n with au := { n.au with economy := true } }
     (asking node52 0x13#8 [0x00#8]).asks 0 (req 0x13#8 [0x00#8]) ∧ node52.au.economy = false ∧
     answer .economyEnter node52 0x13#8 [0x00#8] = [0x00#8, 0x00#8, 0xFF#8, 0x01#8, 0x02#8] ∧
     answer .economyEnter (eco node52) 0x13#8 [0x00#8] = [0x00#8, 0x00#8, 0xFF#8, 0x01#8, 0x00#8] ∧
     answer .economyLeave (eco node52) 0x13#8 [0x01#8] = [0x00#8, 0x00#8, 0xFF#8, 0x00#8, 0x00#8] ∧
     answer .economyLeave node52 0x13#8 [0x01#8] = [0x00#8, 0x00#8, 0xFF#8, 0x00#8, 0x00#8]) :=
  ⟨node52_in_order, ⟨by decide, by decide, by decide, by decide⟩, by decide +kernel⟩

def lostA : Node := { placedNode with
  path := ⟨{ initial := false }, { state := .reachable, initial := false, reach := true }⟩, sig := { au := [.lost .a] } }
def fullLostA : Node :=
  let cells : List HalfEntry := [⟨5, some 3, some 4⟩, ⟨7, some 3, some 4⟩]
  { lostA with
    au := { lostA.au with allot := cells, services := [svcC 3 .a [5, 7], svcC 4 .b [5, 7]] }, cs := { lostA.cs with live := cells } }
/-- R100: the mover of a lost side A goes to the free halves of B, or is shed. -/
theorem test_meets_NoRerouteServiceStaysOnALostSide :
    TablesInOrder lostA ∧ TablesInOrder fullLostA ∧ (at0 lostA).awake ∧ lostA.usable .a = false ∧
    lostA.sig.au.find? (fun g => decide (g.side = .a)) = some (.lost .a) ∧ (event (.pathLostReroute .b) lostA).sig = lostA.sig ∧
    ((event (.pathLostReroute .a) lostA).svc 3).map (·.current) = some (some .b) ∧
    ((event (.pathLostReroute .a) fullLostA).svc 3).bind (·.reason) = some .pathLost :=
  ⟨⟨by decide, by decide, by decide, by decide⟩, ⟨by decide, by decide, by decide, by decide⟩, by decide +kernel⟩

/-- The eight cells and the services 2, 5, 8, 9 and 12 of the example of 5.5, as side A is lost. -/
def node55 : Node :=
  let e (k : Nat) (a b : Option Nat) : HalfEntry := ⟨k, a, b⟩
  let cells := [e 0 (some 2) (some 8), e 1 (some 2) (some 8), e 2 (some 2) (some 9), e 3 (some 5) (some 9), e 4 (some 5) (some 9),
                e 5 none (some 12), e 6 none (some 12), e 7 none none]
  let service (id adm level : Nat) (cls : Machine.Class) (x : Side) (own : List Nat) : Service :=
    { svcC id x own with cls := cls, level := level, adm := some adm, full := own.length }
  { lostA with
    au := { allot := cells, admCounter := 5
            services := [service 2 1 1 .t .a [0, 1, 2], service 5 2 2 .c .a [3, 4], service 8 3 3 .w .b [0, 1],
                         { service 9 4 3 .s .b [2, 3, 4] with floor := some 2 }, service 12 5 2 .c .b [5, 6]] }
    cs := { live := cells } }
def lost55 : Node := event (.pathLostReroute .a) node55
def restored55 : Node := event (.pathRestoredRevert .a) { lost55 with path := node40.path, sig := { au := [.restored .a] } }
def stands (n : Node) (id : Nat) : Option (SvcState × Option Side × List Nat × Option Nat) :=
  (n.svc id).map fun v => (v.state, v.current, v.cells, v.adm)
def shedAs (n : Node) (id : Nat) : Option (SvcState × Option ShedReason × Option Nat) :=
  (n.svc id).map fun v => (v.state, v.reason, v.shedNo)
/-- Event 1 of the example of 5.5: the movers of a lost side A. -/
theorem test_meets_NoRerouteServiceStaysOnALostSide_movers :
    TablesInOrder node55 ∧ (at0 node55).awake ∧ node55.usable .a = false ∧
    [2, 8].map (stands lost55) = [some (.active, some .b, [2, 3, 4], some 1), some (.active, some .b, [0, 1], some 3)] ∧
    [shedAs (moverServed .a node55 2) 9, shedAs lost55 9, shedAs lost55 5] =
      [some (.shed, some .preEmpted, some 1), some (.shed, some .preEmpted, some 1), some (.shed, some .pathLost, some 2)] ∧
    [1, 2, 3].map lost55.levelUse = [3, 2, 2] :=
  ⟨⟨by decide, by decide, by decide, by decide⟩, by decide +kernel, by decide +kernel, by decide +kernel, by decide +kernel, by decide +kernel⟩
/-- Event 3 of the example of 5.5: what the revert and the pass place once side A is restored. -/
theorem test_restored_side_brings_its_services_back :
    [2, 5, 9].map (stands restored55) = [some (.active, some .a, [0, 1, 2], some 1), some (.active, some .a, [3, 4], some 6),
      some (.active, some .b, [2, 3, 4], some 7)] := by decide +kernel
/-- R97: what one entry of the shed list takes, and an entry of level 3 in economy mode. -/
theorem test_meets_EconomyModeKeepsHighLevelsShed_pass :
    let v : Service := { svcC 9 .b [] with cls := .s, level := 3, state := .shed, reason := some .pathLost, shedNo := some 2
                                           full := 3, floor := some 2, current := none }
    let n (economy : Bool) (free : List Nat) : Node :=
      { node40 with au := { allot := free.map fun k => ⟨k, none, none⟩, services := [v], economy := economy, admCounter := 5 },
                     cs := { live := free.map fun k => ⟨k, none, none⟩ } }
    TablesInOrder (n false [0, 1]) ∧
    ((restoredService (n false [0, 1]) 9).bind (placedOf · 9)).map (fun p => (p.state, p.cells, p.adm)) =
      some (.reduced, [0, 1], some 6) ∧
    ((n false [0, 1]).pass.svc 9).map (fun w => (w.state, w.cells, w.current)) = some (.reduced, [0, 1], some .b) ∧
    ((n false [0, 1, 2]).pass.svc 9).map (·.state) = some .active ∧ (restoredService (n true [0, 1, 2]) 9).isNone = true ∧
    ((n true [0, 1, 2]).pass.svc 9).map (·.state) = some .shed := by
  exact ⟨⟨by decide, by decide, by decide, by decide⟩, by decide +kernel⟩

/-- R38: a receiver takes the path lost and the path restored of a cut-short WAIT_RESTORE in either order; of two signals of one
side it takes the first (log 48). -/
theorem test_signals_of_two_sides_are_taken_in_either_order :
    let gs : List PathSignal := [.lost .a, .restored .b]
    let n : Node := { lostA with sig := ⟨gs, gs, gs⟩ }
    (event (.pathRestoredRevert .b) n).sig.au = [.lost .a] ∧ (event (.pathLostReroute .a) n).sig.au = [.restored .b] ∧
    (event (.callReselect (.restored .b)) n).sig.cc = [.lost .a] ∧
    (event (.dualReceiveReselect (.restored .b)) n).sig.pe = [.lost .a] ∧
    (event (.pathRestoredRevert .a) { n with sig := { au := [.lost .a, .restored .a] } }).sig.au = [.lost .a, .restored .a] := by
  decide +kernel

/-- R103. -/
theorem test_meets_RestoredPathBringsServicesHome :
    let n : Node := { placedNode with
      path := node40.path, sig := { au := [.restored .b] }
      au := { placedNode.au with services := [{ svcC 3 .b [5, 7] with current := some .a }] } }
    let full : Node := { n with au := { n.au with allot := [⟨5, some 3, some 4⟩, ⟨7, some 3, some 4⟩] } }
    (at0 n).awake ∧ n.sig.au.find? (fun g => decide (g.side = .b)) = some (.restored .b) ∧ (n.away.filter fun v => decide (v.primary = .b)).length = 1 ∧
    ((event (.pathRestoredRevert .b) n).svc 3).map (·.current) = some (some .b) ∧
    ((event (.pathRestoredRevert .b) full).svc 3).map (·.current) = some (some .a) ∧
    (event (.pathRestoredRevert .a) n).sig = n.sig ∧ n.au.allot = placedNode.au.allot := by decide +kernel

/-! ## The call controller -/

/-- Node 40 with one port as given, cell 20 allotted and free. -/
def phoneNode (p : Fin 8) (ph : Phone) : Node :=
  ({ node40 with au := { allot := [⟨20, none, none⟩] }, cs := { live := [⟨20, none, none⟩] } } : Node).setPhone p ph
def onSet : PhoneSettings := { enabled := true }
def callOutcomes (n : Node) : List (CallState × CallOutcome) :=
  n.reports.queue.filterMap fun r => match r.body with | .callEvent _ _ _ new o _ _ _ _ _ _ _ => some (new, o) | _ => none

/-- R112, R114: the third differing sample, the debounce of 100 ms; without a tick due nothing moves. -/
theorem test_meets_LoopsAreSampledAndMeasured :
    let high : Vector Bool 8 := Vector.replicate 8 true
    let n (due : Bool) (k : Nat) : Node :=
      { phoneNode 0 { set := onSet, sampling := true, differing := k } with clk := { tickDue := due } }
    let off : Node := { phoneNode 0 { set := onSet, sampling := true, level := true, time := 99 } with clk := { tickDue := true } }
    let s (m : Node) : State := { at0 m with link := { rx := .frame [] 0 } }
    (s (n false 2)).awake ∧ (after (.msTick high) (s (n false 2))).node.cc.phones = (n false 2).cc.phones ∧
    ((s (n true 2)).setPins { (n true 2).pins with loops := high }).settleTick = (s (n true 2)).setPins { (n true 2).pins with loops := high } ∧
    ((after (.msTick high) (s (n true 2))).node.phone 0).acceptDue = true ∧
    ((after (.msTick high) (s (n true 1))).node.phone 0).acceptDue = false ∧
    (after (.msTick high) (s (n true 1))).node.runTime = 5001#32 ∧ (after (.msTick high) (s (n true 1))).link.rx = .frame [] 1 ∧
    ((after (.msTick high) (s off)).node.phone 0).hookDue = true := by decide +kernel

/-- R113, R115: 60 ms is a flash, 59 and 600 are none; the count holds at 65,535 with the mark (R113, log 46). -/
theorem test_meets_LoopsAreSampledAndMeasured_accepted :
    let low (t : Nat) (c : CallState) := phoneNode 1 { set := onSet, acceptDue := true, time := t, call := c }
    let high := phoneNode 1 { set := onSet, acceptDue := true, level := true, time := 65535 }
    (at0 high).awake ∧ ((event (.loopAcceptedRise 1) (low 59 .opened)).phone 1).flashes = 0 ∧
    ((event (.loopAcceptedRise 1) (low 600 .opened)).phone 1).flashes = 0 ∧
    callOutcomes (event (.loopAcceptedRise 1) (low 60 .opened)) = [(.opened, .flash)] ∧
    callOutcomes (event (.loopAcceptedRise 1) (low 599 .queued)) = [] ∧
    ((event (.loopAcceptedRise 1) (low 599 .queued)).phone 1).flashes = 1 ∧
    ((event (.loopAcceptedFall 1) high).phone 1).lastHigh = 65535 ∧ ((event (.loopAcceptedFall 1) high).phone 1).saturated = true ∧
    (let both := phoneNode 1 { set := onSet, acceptDue := true, hookDue := true, level := true, time := 100 }
     (event (.loopAcceptedFall 1) both) = event (.loopAcceptedFall 1) (event (.offHookConfirmed 1) both) ∧
      (both.phone 1).hook = .onHook ∧ ((event (.offHookConfirmed 1) both).phone 1).hookDue = false ∧
      ((event (.loopAcceptedFall 1) both).phone 1).level = false) ∧
    ((event (.loopAcceptedRise 1) high).phone 1).time = 65535 ∧ ((event (.loopAcceptedFall 1) (low 9 .idle)).phone 1).time = 9 := by
  decide +kernel

theorem phoneNode_in_order (p : Fin 8) (ph : Phone) : TablesInOrder (phoneNode p ph) :=
  ⟨by simp [phoneNode, Node.setPhone], by simp [phoneNode, Node.setPhone], by simp [phoneNode, Node.setPhone],
   by simp [phoneNode, Node.setPhone]⟩
/-- 6.7 at 10,102, 60,602 and 90,102, and the other rows of R121 to R125. -/
theorem test_meets_HookChangesActOnTheCall :
    TablesInOrder (phoneNode 3 { set := onSet, hookDue := true }) ∧
    TablesInOrder (({ node40 with au := {} } : Node).setPhone 3 { set := onSet, hookDue := true }) ∧
    (let lift (c : CallState) (lock : Bool) : Node :=
       event (.offHookConfirmed 3) (phoneNode 3 { set := onSet, hookDue := true, call := c, clearLock := lock })
     let down (c : CallState) (hold : Bool) : Node := event (.onHookConfirmed 3)
       (phoneNode 3 { set := onSet, hook := .offHook, hookDue := true, call := c, holdRequested := hold, clearLock := true })
     let bare : Node := ({ node40 with au := {} } : Node).setPhone 3 { set := onSet, hookDue := true }
     (at0 (lift .idle true)).awake ∧ ((lift .idle true).phone 3).call = .idle ∧ ((lift .queued false).phone 3).hook = .offHook ∧
     callOutcomes (lift .held false) = [(.answered, .resumed)] ∧ callOutcomes (lift .ringing false) = [(.answered, .answered)] ∧
     callOutcomes (lift .idle false) = [(.opened, .placed)] ∧ ((lift .idle false).phone 3).selected = some .a ∧
     ((lift .idle false).svc 59).map (·.cells) = some [20] ∧
     callOutcomes (event (.offHookConfirmed 3) bare) = [(.queued, .queued)] ∧
     ((down .idle false).phone 3).clearLock = false ∧ callOutcomes (down .queued false) = [(.idle, .abandoned)] ∧
     callOutcomes (down .answered true) = [(.held, .held)] ∧ callOutcomes (down .opened false) = [(.clearing, .callerCleared)] ∧
     ((down .answered true).phone 3).timer = some (.heldLimit, 900000) ∧
     ((event (.onHookConfirmed 3) bare).phone 3).hookDue = true) :=
  ⟨phoneNode_in_order 3 _, ⟨by decide, by decide, by decide, by decide⟩, by decide +kernel⟩

/-- R130, R124 to R126. -/
theorem test_meets_CallTimersAndCadencesRunOut :
    let cad (on : Bool) (k : Nat) := phoneNode 2 { set := onSet, cadence := some ⟨.ring, on, k, 5000, 1000⟩ }
    let tim (t : CallTimer) (k : Nat) (c : CallState) := phoneNode 2 { set := onSet, call := c, timer := some (t, k) }
    let phase (m : Node) := (m.phone 2).cadence.map fun d => (d.onPhase, d.elapsed)
    (at0 (cad true 0)).awake ∧ phase (event (.cadenceOffPhase 2) (cad true 1000)) = some (false, 1000) ∧
    phase (event (.cadenceOffPhase 2) (cad true 999)) = some (true, 999) ∧
    phase (event (.cadencePeriodStart 2) (cad false 5000)) = some (true, 0) ∧
    phase (event (.cadencePeriodStart 2) (cad false 4999)) = some (false, 4999) ∧
    callOutcomes (event (.heldLimitExpired 2) (tim .heldLimit 0 .held)) = [(.clearing, .heldLimit)] ∧
    callOutcomes (event (.ringTimeoutExpired 2) (tim .ringTimeout 0 .ringing)) = [(.clearing, .noAnswer)] ∧
    callOutcomes (event (.clearGuardExpired 2) (tim .clearGuard 0 .clearing)) = [(.idle, .ended)] ∧
    (2 : Fin 8) ∉ (tim .clearGuard 0 .clearing).cc.waiting ∧
    callOutcomes (event (.heldLimitExpired 2) (tim .heldLimit 1 .held)) = [] ∧
    callOutcomes (event (.clearGuardExpired 2) (tim .ringTimeout 0 .ringing)) = [] := by decide +kernel

/-- R126: with a clear guard of 0 the calls that a hook change, a timer or CLEAR ends are IDLE at once, and a handset lifted
without clear-lock calls again. -/
theorem test_a_clear_guard_of_0_ends_at_once :
    let quick (ph : Phone) : Node :=
      let n := phoneNode 2 { ph with set := onSet }
      { n with cc := { n.cc with common := { n.cc.common with clearGuard := 0 } } }
    let held := quick { call := .held, timer := some (.heldLimit, 0) }
    let lifted := quick { call := .ringing, timer := some (.ringTimeout, 0), hook := .offHook }
    (2 : Fin 8) ∉ held.cc.waiting ∧ held.cc.common.clearGuard = 0 ∧
    callOutcomes (event (.onHookConfirmed 2) (quick { call := .opened, hook := .offHook, hookDue := true })) =
      [(.clearing, .callerCleared), (.idle, .ended)] ∧
    callOutcomes (event (.heldLimitExpired 2) held) = [(.clearing, .heldLimit), (.idle, .ended)] ∧
    callOutcomes (event (.ringTimeoutExpired 2) lifted) = [(.clearing, .noAnswer), (.idle, .ended), (.opened, .placed)] ∧
    answer .callControlClear held 0x15#8 [0x02#8, 0x03#8] = [0x00#8, 0x00#8, 0xFF#8, 0x00#8] ∧
    callOutcomes (event (.clearGuardExpired 2) (phoneNode 2 { set := onSet, call := .clearing, hook := .offHook, timer := some (.clearGuard, 0) }))
      = [(.idle, .ended), (.opened, .placed)] := by decide +kernel

/-- R122 to R128: a state that the action takes, and one that it does not. -/
theorem test_meets_CallControlActsInItsStates :
    let go (cmd : Instr) (action : Byte) (c : CallState) := answer cmd (phoneNode 7 { set := onSet, call := c }) 0x15#8 [0x07#8, action]
    let ok (st : Byte) : List Byte := [0x00#8, 0x00#8, 0xFF#8, st]
    let wrong : List Byte := [0x08#8, 0x00#8, 0xFF#8]
    (asking (phoneNode 7 {}) 0x15#8 [0x07#8, 0x00#8]).asks 0 (req 0x15#8 [0x07#8, 0x00#8]) ∧ f1 [0x07#8, 0x00#8] 0 = (7 : Fin 8).val ∧
    go .callControlAnswer 0x00#8 .opened = ok 0x03#8 ∧ go .callControlAnswer 0x00#8 .ringing = wrong ∧
    go .callControlHold 0x01#8 .held = ok 0x04#8 ∧ go .callControlHold 0x01#8 .clearing = wrong ∧
    go .callControlUnhold 0x02#8 .answered = ok 0x03#8 ∧ go .callControlUnhold 0x02#8 .queued = wrong ∧
    go .callControlClear 0x03#8 .queued = ok 0x00#8 ∧ go .callControlClear 0x03#8 .ringing = ok 0x06#8 ∧
    go .callControlClear 0x03#8 .idle = wrong ∧ go .callControlRing 0x04#8 .idle = ok 0x05#8 ∧
    go .callControlRing 0x04#8 .opened = wrong ∧
    answer .callControlRing (({ node40 with au := {} } : Node).setPhone 7 { set := onSet }) 0x15#8 [0x07#8, 0x04#8] =
      [0x11#8, 0x00#8, 0xFF#8] ∧
    answer .callControlAnswer (phoneNode 7 { call := .opened }) 0x15#8 [0x07#8, 0x00#8] = wrong := by decide +kernel

def phoneBody (on : Byte) : List Byte :=
  [0x00#8, 0x07#8, on] ++ be2 65535 ++ [0x01#8] ++ [1000, 5000, 1000].flatMap be2 ++ [0x00#8, 0x01#8, 0x01#8]
/-- R109, R110, R132: the bounds of the ranges. -/
theorem test_meets_PhoneSettingsAndRingTest :
    let ask (n : Node) (on : Byte) := asking n 0x14#8 (phoneBody on)
    let common := [0x01#8, 0x3C#8] ++ be2 300 ++ [0x1E#8] ++ [10000, 9900, 1000, 900].flatMap be2
    let b := phoneBody 0x01#8
    ((ask running 0x01#8).asks 0 (req 0x14#8 b) ∧ f1 b 0 = 0 ∧ b.length = 15 ∧ f1 b 1 = (7 : Fin 8).val ∧ sideOf (f1 b 5) = some .b ∧
      f2 b 6 = 1000 ∧ f2 b 8 = 5000 ∧ f2 b 10 = 1000 ∧ f1 b 12 ≤ 1 ∧ f1 b 13 ≤ 1 ∧ polarityOf (f1 b 14) = some .inverted ∧
      ((after .phoneSetPort (ask running 0x01#8)).node.phone 7).sampling = true) ∧
    (answer .phoneSetPort (phoneNode 7 { set := onSet, call := .held }) 0x14#8 (phoneBody 0x00#8) = [0x08#8, 0x00#8, 0xFF#8] ∧
      ((after .phoneSetPort (ask (phoneNode 7 { set := onSet, sampling := true }) 0x00#8)).node.phone 7).sampling = false) ∧
    (common.length = 13 ∧ common[0]? = some 0x01#8 ∧ f1 common 1 = 60 ∧ f2 common 2 = 300 ∧ f1 common 4 = 30 ∧
      f2 common 5 = 10000 ∧ f2 common 7 + 100 = f2 common 5 ∧ f2 common 9 = 1000 ∧ f2 common 11 + 100 = f2 common 9 ∧
      (after .phoneSetCommon (asking {} 0x14#8 common)).node.cc.common = ⟨60, 300, 30, 10000, 9900, 1000, 900⟩) ∧
    ((after .ringTestOn (asking (phoneNode 7 { set := onSet }) 0x17#8 [0x07#8, 0x01#8])).node.phone 7).testDrive = true ∧
    ((after .ringTestOff (asking (phoneNode 7 { set := onSet, testDrive := true }) 0x17#8 [0x07#8, 0x00#8])).node.phone 7).testDrive
      = false ∧
    answer .ringTestOn (phoneNode 7 { set := onSet, call := .queued }) 0x17#8 [0x07#8, 0x01#8] = [0x08#8, 0x00#8, 0xFF#8] := by
  decide +kernel

/-- 6.7 at 120,000: path lost A, the call hears side B; R146: the DUAL service too, losing sync. -/
theorem test_meets_PathSignalsReselectReceiveSides :
    let call : Service := { svcC 59 .a [20] with cls := .e, level := 0, prot := .dual, binding := .phone 3, full := 1, current := none }
    let n : Node := ({ node40 with
      path := ⟨{ initial := false }, node40.path.d⟩, sig := { cc := [.lost .a], pe := [.lost .a] }
      au := { allot := [⟨20, some 59, some 59⟩], services := [{ svcC 3 .a [4] with prot := .dual }, call] }
      pe := { svcs := [{ id := 3, attached := true, live := { a := [4], b := [4] }, selected := some .a, inSync := true }] } } : Node).setPhone
        3 { set := onSet, call := .answered, selected := some .a }
    (at0 n).awake ∧ n.sig.cc.find? (fun g => decide (g.side = .a)) = some (.lost .a) ∧
    n.sig.pe.find? (fun g => decide (g.side = .a)) = some (.lost .a) ∧
    ((event (.callReselect (.lost .a)) n).phone 3).selected = some .b ∧ callOutcomes (event (.callReselect (.lost .a)) n) = [] ∧
    ((event (.dualReceiveReselect (.lost .a)) n).peOf 3).map (fun v => (v.selected, v.inSync, v.counts.syncLosses)) =
      some (some .b, false, 1) ∧
    (event (.callReselect (.restored .a)) n).sig = n.sig := by decide +kernel

/-! ## The packet engine -/

def packetNode (quota used : Nat) : Node :=
  { placedNode with
    au := { placedNode.au with services := [{ svcC 3 .a [5, 7] with binding := .packet 0 0 quota 0 }] }
    pe := { ports := #v[{ enabled := true }, { enabled := true }, {}, {}]
            svcs := [{ id := 3, attached := true, queue := if used = 0 then [] else [{ data := List.replicate used 0#8, stamp := 0 }] }] } }
/-- R137, R139, R150, R151: each clause, the quota of 1 KiB at its bound. -/
theorem test_meets_TributaryFramesEnterAndLeave :
    let f (ch : Nat) : List Byte := ({ channel := ch, data := [0x41#8, 0x42#8] } : ChannelFrame).bytes
    let arrives (k : Fin 4) (bs : List Byte) := Instr.tributaryFrameReceived k { bytes := bs }
    let queued (m : Node) := (m.peOf 3).map fun v => (v.queue.length, v.counts.quotaDrops, v.counts.poolDrops)
    let full : Node := { packetNode 32 0 with pe := { (packetNode 32 0).pe with svcs := [{ id := 3, attached := true },
      { id := 4, queue := List.replicate 384 { data := [0#8], stamp := 0 } }] } }
    let out : Node := (packetNode 1 0).setPort 0 { enabled := true, recv := [⟨0, [1#8]⟩, ⟨0, [2#8]⟩] }
    (at0 out).awake ∧ (packetNode 1 0).port 2 = {} ∧ (event (arrives 2 (f 0)) (packetNode 1 0)).pe = (packetNode 1 0).pe ∧
    readTributary [0#8] = none ∧ ((event (arrives 0 [0#8]) (packetNode 1 0)).port 0).counts.inputErrors = 1 ∧
    (packetNode 1 0).boundTo 7 = none ∧ ((event (arrives 0 (f 7)) (packetNode 1 0)).port 0).counts.unbound = 1 ∧
    (packetNode 1 0).boundTo 0 = some 3 ∧ queued (event (arrives 0 (f 0)) (packetNode 1 1022)) = some (2, 0, 0) ∧
    queued (event (arrives 0 (f 0)) (packetNode 1 1023)) = some (1, 1, 0) ∧ full.pe.poolFree = 0 ∧
    queued (event (arrives 0 (f 0)) full) = some (0, 0, 1) ∧
    ((event (.outputFrameBegin 0) out).port 0).sending = some (2000, ⟨0, [1#8]⟩) ∧
    ((event (.tributaryFrameSent 0) (event (.outputFrameBegin 0) out)).port 0).recv = [⟨0, [2#8]⟩] ∧
    (event (.outputFrameBegin 1) out).pe = out.pe ∧ (event (.tributaryFrameSent 0) out).pe = out.pe := by decide +kernel
/-- R136: a frame that had begun before the port operated is ignored at its end. -/
theorem test_a_frame_partly_received_while_disabled_is_ignored :
    let f : List Byte := ({ channel := 0, data := [0x41#8, 0x42#8] } : ChannelFrame).bytes
    event (.tributaryFrameReceived 0 { bytes := f, whole := false }) (packetNode 1 0) = packetNode 1 0 ∧
    ((event (.tributaryFrameReceived 0 { bytes := f, whole := true }) (packetNode 1 0)).peOf 3).map (·.queue.length) = some 1 := by
  decide +kernel

/-- R136, R152. -/
theorem test_meets_PortSettingsAndCountingIntervals :
    let set (n : Node) (b : List Byte) := after .packetPortSet (asking n 0x18#8 b)
    let b (k on : Byte) : List Byte := [k, on] ++ be2 10000 ++ [0x01#8]
    let n (c : Nat) (wrong : Nat) : Node := { running with pe := { interval := some c, ports := #v[{ counts := ⟨wrong, 0, 0, 0⟩ }, {}, {}, {}] } }
    (asking (packetNode 1 0) 0x18#8 (b 0x00#8 0x00#8)).asks 0 (req 0x18#8 (b 0x00#8 0x00#8)) ∧ f2 (b 0x00#8 0x00#8) 2 = 10000 ∧
    replyOf (set (packetNode 1 0) (b 0x00#8 0x00#8)) = [0x10#8, 0x00#8, 0xFF#8] ∧
    ((set (packetNode 1 0) (b 0x01#8 0x00#8)).node.port 1).enabled = false ∧ (packetNode 1 0).portBound 1 = false ∧
    ((set (packetNode 1 0) (b 0x02#8 0x01#8)).node.port 2).rate = 10000 ∧
    (event .countingIntervalEnd (n 3999 1)).pe.interval = some 3999 ∧ (event .countingIntervalEnd (n 4000 1)).reports.queue.length = 1 ∧
    (event .countingIntervalEnd (n 4000 0)).reports.queue = [] ∧ (event .countingIntervalEnd (n 4000 0)).pe.interval = some 0 := by
  decide +kernel

/-- The train stream of 7.3: frames F1 and F2, then F3, a fill marker, and F4 of 20 bytes. -/
theorem test_train_stream :
    let f (len : Nat) : QueuedFrame := { data := (List.range len).map fun i => BitVec.ofNat 8 (i + 1), stamp := 0 }
    let p1 := packTrain 0 0 8 { id := 14, attached := true, live := { a := [30, 31, 32, 33, 34] }, queue := [f 5, f 4] }
    let p2 := packTrain 0 0 8 p1.svc
    let p3 := packTrain 0 0 8 { p2.svc with queue := p2.svc.queue ++ [f 2] }
    let p4 := packTrain 0 0 8 p3.svc
    let p5 := packTrain 0 0 8 { p4.svc with queue := [f 20] }
    let p6 := packTrain 0 0 8 p5.svc
    let p7 := packTrain 0 0 12 (p6.svc.applied .reroute (some .a) { a := [30, 31, 32, 33, 34, 35, 36] })
    let moved := p6.svc.applied .reroute (some .a) { b := [40, 41, 42, 43, 44] }
    [p1, p2, p3, p4, p5, p6, p7].map (·.offset) = [some 0, some 1, some 1, some 0, some 0, none, some 8] ∧
    [p1, p2, p3, p4, p5, p6, p7].map (·.svc.queue.length) = [2, 1, 0, 0, 1, 1, 0] ∧
    p1.bytes.take 7 = [0#8, 5#8, 1#8, 2#8, 3#8, 4#8, 5#8] ∧ p3.bytes[7]? = some 0xFF#8 ∧ p4.bytes = List.replicate 8 0#8 ∧
    (p7.bytes.drop 8) = List.replicate 4 0#8 ∧ moved.counts.abandoned = 1 ∧ moved.queue = [] := by decide +kernel
theorem test_meets_TrainsCarryEveryFrameInOrder :
    let tx : PeService := { id := 55, queue := [{ data := [1#8, 2#8, 3#8], stamp := 0 }] }
    let rx : PeService := { id := 55 }
    tx.id < 56 ∧ rx.id = tx.id ∧ tx.placed = 0 ∧ (∀ q ∈ tx.queue, 1 ≤ q.data.length ∧ q.data.length ≤ 1536) ∧ rx.inSync = false ∧
    (carryTrains 0 2 4 tx rx).frames = [[1#8, 2#8, 3#8]] := by decide +kernel

/-! ## The transfer engine -/

def transferNode (x : Transfer) : Node :=
  { placedNode with te := { recs := #v[none, none, some x, none] }
                    pins := { ready := #v[true, false, true, true] }
                    pe := { ports := Vector.replicate 4 { enabled := true, readyUsed := true }, svcs := [{ id := 3, attached := true }] } }
def rcv (received : Nat) (blocks : List Nat) : Transfer :=
  { service := 3, page := 9, declared := 4000, targets := [(0, 1)], chunk := 512, state := .receiving, received := received, blocks := blocks }
/-- Transfer 2 delivers its page to channel 1 of port 0, from its first byte, with a receive queue that holds so many bytes. -/
def delivering (st : TransferState) (queued : Nat) (asserted : Bool) : Node :=
  let n := transferNode { rcv 4000 [0, 1] with state := st }
  { n.setPort 0 { enabled := true, readyUsed := true, recv := [⟨3, List.replicate queued 0#8⟩] } with
    pins := { ready := Vector.replicate 4 asserted } }
theorem delivering_alone (st : TransferState) (q : Nat) (a : Bool) :
    AloneAt (delivering st q a) 0 2 { rcv 4000 [0, 1] with state := st } 1 := by
  refine ⟨rfl, rfl, ?_⟩
  intro u y hu hy
  revert hu hy
  match u with
  | 0 => intro _ h; cases h
  | 1 => intro _ h; cases h
  | 2 => intro h; exact absurd rfl h
  | 3 => intro _ h; cases h
/-- R166: a delivery whose port's ready input falls waits; one that waits goes on when it returns, with room at the bound of 8,192
bytes and without. -/
theorem test_meets_TransfersOpenAbortReportAndWait_ready :
    let ready (level : Bool) (n : Node) := event (.readyInputChange 0 level) n
    let state (n : Node) := (n.xfer 2).map (·.state)
    AloneAt (delivering .delivering 0 true) 0 2 { rcv 4000 [0, 1] with state := .delivering } 1 ∧
    AloneAt (delivering .deliveryWait 7680 false) 0 2 { rcv 4000 [0, 1] with state := .deliveryWait } 1 ∧
    (state (ready false (delivering .delivering 0 true)) = some .deliveryWait ∧
     state (ready true (delivering .deliveryWait 7681 false)) = some .delivering ∧
     ((ready true (delivering .deliveryWait 7681 false)).port 0).recv.length = 1 ∧
     (((ready true (delivering .deliveryWait 7680 false)).port 0).recv[1]?).map (·.data.length) = some 512 ∧
     ready false (delivering .deliveryWait 0 false) = delivering .deliveryWait 0 false) :=
  ⟨delivering_alone _ _ _, delivering_alone _ _ _, by decide +kernel⟩
/-- R167: a frame sent frees the room that a delivery waits for, of 512 bytes and not of 511. -/
theorem test_meets_TributaryFramesEnterAndLeave_delivery :
    let busy (k : Nat) : Node :=
      let n := delivering .delivering 0 true
      n.setPort 0 { enabled := true, readyUsed := true, sending := some (2000, ⟨3, [1#8]⟩),
                    recv := [⟨3, [1#8]⟩, ⟨3, List.replicate k 0#8⟩] }
    AloneAt (busy 7680) 0 2 { rcv 4000 [0, 1] with state := .delivering } 1 ∧ TakesChunks (busy 7680) 0 ∧
    (((event (.tributaryFrameSent 0) (busy 7680)).port 0).recv.map (·.data.length) = [7680, 512] ∧
     ((event (.tributaryFrameSent 0) (busy 7681)).port 0).recv.map (·.data.length) = [7681]) := by
  refine ⟨⟨rfl, rfl, ?_⟩, by decide +kernel, by decide +kernel⟩
  exact (delivering_alone .delivering 0 true).2.2
/-- R136, R166: disabling the port makes its delivery wait, and its receive queue is discarded; enabling lets it go on. -/
theorem test_meets_PortSettingsAndCountingIntervals_delivery :
    let set (n : Node) (on : Byte) := (after .packetPortSet (asking n 0x18#8 ([0x00#8, on] ++ be2 2000 ++ [0x00#8]))).node
    let bare (st : TransferState) : Node := { delivering st 9 true with au := {} }
    AloneAt (bare .delivering) 0 2 { rcv 4000 [0, 1] with state := .delivering } 1 ∧ (bare .delivering).portBound 0 = false ∧
    (((set (bare .delivering) 0x00#8).xfer 2).map (·.state) = some .deliveryWait ∧
     ((set (bare .delivering) 0x00#8).port 0).counts.discards = 1 ∧
     (((set (bare .deliveryWait) 0x01#8).port 0).recv[1]?).map (·.data.length) = some 512) :=
  ⟨⟨rfl, rfl, (delivering_alone .delivering 9 true).2.2⟩, by decide +kernel, by decide +kernel⟩
/-- R157, R165, R166, R169. -/
theorem test_meets_TransfersOpenAbortReportAndWait :
    let open' : List Byte := [0x03#8, 0x03#8] ++ be4 9 ++ be4 4000 ++ be2 512 ++ [0x01#8, 0x01#8, 0x04#8]
    let n : Node := { transferNode (rcv 0 []) with
      au := { placedNode.au with services := [{ svcC 3 .a [5, 7] with cls := .s, binding := .transfer 0 4 0 }] }
      te := { recs := Vector.replicate 4 none } }
    let shed : Node := { n with au := { n.au with services := n.au.services.map fun v => { v with state := .shed, cells := [] } } }
    let d := transferNode { rcv 4000 [0, 1] with state := .delivering }
    ((asking n 0x1A#8 open').asks 0 (req 0x1A#8 open') ∧ firstRefusal (transferOpenChecks n open') = none ∧
      answer .transferOpen n 0x1A#8 open' = [0x00#8, 0x00#8, 0xFF#8, 0x03#8, 0x00#8, 0xFF#8, 0x40#8] ∧
      n.op = .running ∧ f1 open' 0 = 3 ∧ f4 open' 6 = 4000 ∧ f2 open' 10 = 512 ∧ f1 open' 12 = 1 ∧ open'.length = 13 + 2 * f1 open' 12 ∧
      (∀ j < f1 open' 12, f1 open' (13 + 2 * j) ≤ 3 ∧ f1 open' (14 + 2 * j) ≤ 7 ∧ (n.port (fin4 (f1 open' (13 + 2 * j)))).enabled = true) ∧
      (n.svc (f1 open' 1)).map (·.binding) = some (.transfer 0 4 0) ∧ n.te.recs = Vector.replicate 4 none ∧
      firstRefusal (transferOpenChecks shed open') = none ∧
      answer .transferOpen shed 0x1A#8 open' = [0x00#8, 0x00#8, 0xFF#8, 0x03#8, 0x01#8, 0x00#8, 0x40#8]) ∧
    (answer .transferAbort (transferNode (rcv 7 [0])) 0x1B#8 [0x02#8] =
        [0x00#8, 0x00#8, 0xFF#8, 0x00#8, 0x00#8, 0x00#8, 0x07#8, 0xFF#8, 0xFF#8, 0xFF#8, 0xFF#8, 0xFF#8] ∧
      answer .transferAbort (transferNode (rcv 7 [0])) 0x1B#8 [0x03#8] = [0x16#8, 0x00#8, 0xFF#8]) ∧
    (((event (.stateFrameTimer 2) (transferNode { rcv 7 [0] with timer := 4000 })).xfer 2).map (fun x => (x.timer, x.reported)) = some (0, 7) ∧
      (transferNode (rcv 7 [0])).carries 3 = true ∧ ({ transferNode (rcv 7 [0]) with au := {} } : Node).carries 3 = false ∧
      ((event (.stateFrameTimer 2) (transferNode { rcv 7 [0] with timer := 3999 })).xfer 2).map (·.timer) = some 3999) ∧
    ((∀ t x, (transferNode (rcv 0 [])).xfer t = some x → x.currentPort ≠ some 1) ∧ ((rcv 0 []).currentPort = some 0) ∧ (d.port 0).readyUsed = true ∧
      ((event (.readyInputChange 0 false) d).xfer 2).map (·.state) = some .deliveryWait) := by
  refine ⟨by decide +kernel, by decide +kernel, by decide +kernel, ?_, by decide +kernel, by decide +kernel, by decide +kernel⟩
  have h : ∀ t : Fin 4, ((transferNode (rcv 0 [])).xfer t).all (fun x => x.currentPort != some 1) = true := by decide +kernel
  intro t x hx; have := h t; rw [hx] at this; simpa using this

/-- The transfers of the TRANSFER_EVENTs waiting, with their causes. -/
def transferCauses (n : Node) : List (Nat × TransferCause) :=
  n.reports.queue.filterMap fun r => match r.body with
    | .transferEvent t _ _ _ _ c .. => some (t, c)
    | _ => none
def waiting (blocks : List Nat) : Transfer := { rcv 2048 blocks with service := 40, state := .suspended, reason := some .store }
/-- R155, R162: a ready input that closes two transfers resumes, once both are closed, those that wait for the store, in number
order; an abort frees the blocks that it held, and with none it resumes none though blocks are free. -/
theorem test_store_resumes_at_the_end_of_an_event_that_freed_blocks :
    let last (b : Nat) : Transfer :=
      { rcv 512 [b] with service := 40, declared := 512, state := .deliveryWait }
    let n : Node := { delivering .deliveryWait 0 false with
      te := { recs := #v[some (waiting [4]), some (last 1), some (waiting [5]), some (last 2)] } }
    let abort (blocks : List Nat) : Node :=
      (after .transferAbort (asking { n with te := { recs := #v[some (waiting [4]), none, some (rcv 0 blocks), none] } } 0x1B#8 [0x02#8])).node
    transferCauses (event (.readyInputChange 0 true) n) =
      [(1, .targetReady), (1, .done), (3, .targetReady), (3, .done), (0, .storeFreed), (2, .storeFreed)] ∧
    transferCauses (abort []) = [(2, .aborted)] ∧ transferCauses (abort [7]) = [(2, .aborted), (0, .storeFreed)] := by
  decide +kernel
/-- R83, R169: the release of a TRANSFER service aborts its transfer, and a transfer that waits for the store resumes. -/
theorem test_meets_ReleaseRemovesTheService_transfer :
    let n : Node := { transferNode (rcv 7 [0]) with
      au := { placedNode.au with services := [{ svcC 3 .a [5, 7] with cls := .s, binding := .transfer 0 4 0 }] }
      te := { recs := #v[some (waiting [4]), none, some (rcv 7 [0]), none] } }
    let m := (after .releaseService (asking n 0x10#8 [0x03#8])).node
    (asking n 0x10#8 [0x03#8]).asks 0 (req 0x10#8 [0x03#8]) ∧ (n.svc 3).map (·.binding) = some (.transfer 0 4 0) ∧
    (n.au.allot.any fun e => e.a == some 3) = true ∧ (m.au.allot.any fun e => e.a == some 3 || e.b == some 3) = false ∧
    n.levelUse 2 = 2 ∧ m.levelUse 2 = 0 ∧ m.xfer 2 = none ∧ transferCauses m = [(2, .aborted), (0, .storeFreed)] ∧
    (m.xfer 0).map (·.state) = some .receiving := by decide +kernel

/-- R155, R159 to R161: a segment that crosses into block 1, and each row of R160 at its bound; the steps 2, 3 and 8 of 8.9. -/
theorem test_meets_SegmentsFillThePage :
    let data (k : Nat) : List Byte := List.replicate k 0x5A#8
    let go (received o len : Nat) (blocks : List Nat) := ((transferNode (rcv received blocks)).judgeSegment 2 (rcv received blocks) o (data len)).xfer 2
    let held : Transfer := { rcv 0 (List.range 64) with service := 40, declared := 131072 }
    let full : Node := { transferNode (rcv 2048 []) with te := { recs := #v[some held, none, some (rcv 2048 []), none] } }
    Memory.wf [] = true ∧ ([3, 1] : List Nat).Nodup ∧ 2047 + (data 3).length ≤ 2048 * ([3, 1] : List Nat).length ∧
    (transferNode (rcv 7 [0])).xfer 2 = some (rcv 7 [0]) ∧
    readPage (writePage [] [3, 1] 2047 [1#8, 2#8, 3#8]) [3, 1] 2047 3 = [1#8, 2#8, 3#8] ∧
    Memory.read (writePage [] [3, 1] 2047 [1#8, 2#8, 3#8]) 2048 = 2#8 ∧
    (go 3999 3999 2 [0, 1]).map (·.counts.rejected) = some 1 ∧ (go 8 7 1 [0]).map (·.counts.duplicates) = some 1 ∧
    (go 8 9 1 [0]).map (·.counts.gaps) = some 1 ∧ (go 8 8 2 [0]).map (fun x => (x.received, x.blocks)) = some (10, [0]) ∧
    (go 0 0 1 []).map (fun x => (x.received, x.blocks)) = some (1, [0]) ∧ full.freeBlocks = [] ∧
    (go 2048 2048 1 [0]).map (fun x => (x.received, x.blocks)) = some (2049, [0, 1]) ∧
    (let last (level : Bool) : Node := (delivering .receiving 0 level).setXfer 2 (some (rcv 3999 [0, 1]))
     let m (level : Bool) := (last level).judgeSegment 2 (rcv 3999 [0, 1]) 3999 [0x5A#8]
     ¬ TakesChunks (last false) 0 ∧ ((m false).xfer 2).map (fun x => (x.received, x.state)) = some (4000, .deliveryWait) ∧
      TakesChunks (last true) 0 ∧
      ((m true).port 0).recv.map (·.data.length) = [0, 512, 512, 512, 512, 512, 512, 512, 416]) ∧
    ((full.judgeSegment 2 (rcv 2048 []) 2048 [1#8]).xfer 2).map (fun x => (x.state, x.reason)) = some (.suspended, some .store) := by
  decide +kernel

/-! ## The poll controller -/

def pollNode (c : PollController) : Node := { node40 with pc := { c with running := true } }
def station (x : Station) (c : PollController) : Node := (pollNode c).setStation 2 x
/-- R173 to R177. -/
theorem test_meets_PollCyclesMakeStationsDue :
    let eco : Node := { pollNode { cycleDue := true } with au := { economy := true } }
    let due : Station := { enabled := true, fallsDue := true }
    let txn (k : Fin 8) : Option Transaction := some { station := k, attempt := 1, phase := .sending, rate := .r9600 }
    let body : List Byte := [0x01#8, 0x01#8] ++ be2 3600 ++ be2 2000 ++ [0xFF#8]
    let sta (a : Byte) : List Byte := [0x02#8, 0x01#8, a] ++ be2 599
    (at0 eco).awake ∧ (event .pollCycleStart (pollNode { len := 7 })).pc.len = 7 ∧
    (event .pollCycleStart eco).pc.len = 960000 ∧ (event .pollCycleStart (pollNode { cycleDue := true })).pc.len = 240000 ∧
    ((event (.stationDue 2) (station { enabled := true } {})).station 2).counts.polls = 0 ∧
    ((event (.stationDue 2) (station due { txn := txn 2 })).station 2).counts.misses = 1 ∧
    (event (.stationDue 2) (station due {})).pc.txn = txn 2 ∧
    (event (.stationDue 2) (station due { txn := txn 5 })).pc.queue = [(2, 5000#32)] ∧
    (event (.stationDue 2) (station due { txn := txn 5, queue := [(7, 4000#32), (1, 5000#32), (4, 5000#32)] })).pc.queue =
      [(7, 4000#32), (1, 5000#32), (2, 5000#32), (4, 5000#32)] ∧
    ((asking running 0x1D#8 body).asks 0 (req 0x1D#8 body) ∧ f2 body 2 = 3600 ∧ f2 body 4 = 2000 ∧ f1 body 6 = 255 ∧
      (∀ x ∈ running.pc.stations, x.offset < 10 * f2 body 2) ∧ (after .pollSet (asking running 0x1D#8 body)).node.pc.startWait = true) ∧
    ((asking running 0x1E#8 (sta 0xF7#8)).asks 0 (req 0x1E#8 (sta 0xF7#8)) ∧ f1 (sta 0xF7#8) 2 = 247 ∧
      f2 (sta 0xF7#8) 3 < 10 * running.pc.interval ∧
      ((after .stationSet (asking (station { reading := some ⟨[1#8], 0⟩ } {}) 0x1E#8 (sta 0xF7#8))).node.station 2).reading = none ∧
      answer .stationSet (station due { txn := txn 2 }) 0x1E#8 (sta 0xF7#8) = [0x01#8, 0x00#8, 0xFF#8]) := by decide +kernel

/-- R175, R201: the address is judged before the enabled code, which the second check is the first to read. -/
theorem test_station_set_reads_enabled_after_the_address :
    let sta (on address : Byte) (offset : Nat) : List Byte := [0x02#8, on, address] ++ be2 offset
    answer .stationSet running 0x1E#8 (sta 0x02#8 0x00#8 0) = [0x04#8, 0x00#8, 0x02#8] ∧
    answer .stationSet running 0x1E#8 (sta 0x02#8 0x01#8 600) = [0x04#8, 0x00#8, 0x03#8] ∧
    answer .stationSet running 0x1E#8 (sta 0x02#8 0x01#8 599) = [0x04#8, 0x00#8, 0x01#8] := by decide +kernel

/-- R182: the service named by a POLL_SET is offered the readings unsent, in station order, with their ages; a full queue takes
none. -/
theorem test_meets_PollCyclesMakeStationsDue_weather :
    let body : List Byte := [0x01#8, 0x01#8] ++ be2 60 ++ be2 500 ++ [0x03#8]
    let n (quota used : Nat) : Node :=
      let m : Node := { packetNode quota used with
        au := { placedNode.au with services := [{ svcC 3 .a [5, 7] with cls := .w, binding := .poll quota 0 }] } }
      (m.setStation 6 { address := 9, reading := some ⟨[0x11#8], 4000#32⟩, unsent := true }).setStation 2
        { address := 8, reading := some ⟨[0x22#8, 0x33#8], 4999#32⟩, unsent := true }
    let m := (after .pollSet (asking (n 1 0) 0x1D#8 body)).node
    let full := (after .pollSet (asking (n 1 1024) 0x1D#8 body)).node
    f1 body 6 ≤ 55 ∧ ((n 1 0).svc 3).map (·.binding) = some (.poll 1 0) ∧ ((n 1 0).station 2).unsent = true ∧
    ((m.peOf 3).map fun v => v.queue.map (·.data)) =
      some [[2#8, 8#8, 0#8, 0#8, 0#8, 1#8, 2#8, 0x22#8, 0x33#8], [6#8, 9#8, 0#8, 0#8, 0x03#8, 0xE8#8, 1#8, 0x11#8]] ∧
    (m.station 6).unsent = false ∧ (full.station 6).unsent = true ∧ (full.station 6).counts.forwardDrops = 1 := by decide +kernel

/-- R178 to R181, R183: 500 ticks of timeout; the third failure in a row; an answer of address 17. -/
theorem test_meets_PollAttemptsAreJudged :
    let at' (f attempt : Nat) (p : PollPhase) : Node :=
      station { enabled := true, address := 17, state := .answering, failures := f }
        { txn := some { station := 2, attempt := attempt, phase := p, rate := .r9600 } }
    let covered (a : Byte) : List Byte := [a, 0x52#8, 0x01#8, 0x99#8]
    let reply (a : Byte) : List Byte := covered a ++ be2 (check16 (covered a)).toNat
    let phase (m : Node) := m.pc.txn.map fun t => (t.attempt, t.phase)
    (at0 (at' 0 1 .sending)).awake ∧ phase (event .pollTelegramSent (at' 0 1 .sending)) = some (1, .waiting 0 500) ∧
    phase (event .pollReplyStart (at' 0 1 (.waiting 499 500))) = some (1, .receiving) ∧
    phase (event .pollReplyTimeout (at' 0 1 (.waiting 499 500))) = some (1, .waiting 499 500) ∧
    phase (event .pollReplyTimeout (at' 0 1 (.waiting 500 500))) = some (2, .sending) ∧
    ((event .pollReplyTimeout (at' 2 2 (.waiting 500 500))).station 2).state = .silent ∧
    ((event .pollReplyTimeout (at' 1 2 (.waiting 500 500))).station 2).state = .answering ∧
    ((event (.pollReplyGap [0#8]) (at' 0 1 .receiving)).station 2).counts.badReplies = 1 ∧
    judgeReply 17 [0#8] = .badReply ∧ judgeReply 17 (reply 18#8) = .wrongAddress ∧
    ((event (.pollReplyEnd (reply 18#8)) (at' 0 1 .receiving)).station 2).counts.wrongAddress = 1 ∧
    ((event (.pollReplyEnd (reply 17#8)) (at' 2 1 .receiving)).station 2).reading = some ⟨[0x99#8], 5000#32⟩ ∧
    (at' 2 1 .receiving).weatherOpen = none ∧ (event .lateReplyRunEnd (at' 0 1 .sending)).pc.late = 1 ∧
    (event .lateReplyRunEnd running).pc.late = 0 := by decide +kernel

end Sys2Proof.Tests
end

section
/-! SUPPORT. What power-on leaves of each record of the node (R199, R206). -/

namespace Sys2Proof.Machine

/-! ## Power-on (R199, R206) -/

theorem Node.phone_powerOn (n : Node) (p : Fin 8) : n.powerOn.phone p = {} := by
  simp [Node.powerOn, Node.phone]
theorem Node.port_powerOn (n : Node) (k : Fin 4) : n.powerOn.port k = {} := by
  simp [Node.powerOn, Node.port]
theorem Node.xfer_powerOn (n : Node) (t : Fin 4) : n.powerOn.xfer t = none := by
  simp [Node.powerOn, Node.xfer]
theorem Node.station_powerOn (n : Node) (k : Fin 8) : n.powerOn.station k = {} := by
  simp [Node.powerOn, Node.station]
theorem Node.line_powerOn (n : Node) (l : Line) : n.powerOn.line.get l = {} := by cases l <;> rfl
theorem Node.pathOf_powerOn (n : Node) (x : Side) : n.powerOn.pathOf x = {} := by cases x <;> rfl
theorem Node.switchLine_powerOn (n : Node) (l : Line) : n.powerOn.cs.line.get l = {} := by cases l <;> rfl
/-- No service stands after power-on, so no place of the packet engine is bound. -/
theorem Node.boundTo_powerOn (n : Node) (place : Nat) : n.powerOn.boundTo place = none := rfl
/-- No transfer holds a block after power-on: the whole bulk store is free. -/
theorem Node.freeBlocks_powerOn (n : Node) : n.powerOn.freeBlocks.length = 64 := by
  have h : n.powerOn.freeBlocks = ({} : Node).freeBlocks := rfl
  rw [h]; decide

theorem Node.poolFree_powerOn (n : Node) : n.powerOn.pe.poolFree = 384 := rfl
/-- The class map of R67 and the economy flag of R108; no cell is allotted and no service stands. -/
theorem Node.au_powerOn (n : Node) : n.powerOn.au =
    ⟨[], [], ⟨1, 2, 3, 3, #v[1872, 1872, 1872, 1872], #v[false, true, true], #v[true, false, false]⟩, 0, 0, false⟩ := rfl

/-- Settles O16: each record of the node at power-on is the one with its default values, and those are the stated ones. -/
theorem powerOnLeavesTheStatedValues : Obligations.PowerOnLeavesTheStatedValues := by
  intro s
  refine ⟨s.powerValues, rfl, rfl, ?_⟩
  simp only [State.powerValues, Node.phone_powerOn, Node.port_powerOn, Node.xfer_powerOn, Node.station_powerOn,
    Node.line_powerOn, Node.pathOf_powerOn, Node.switchLine_powerOn, Node.boundTo_powerOn, Node.freeBlocks_powerOn,
    Node.poolFree_powerOn, Node.au_powerOn]
  simp [Node.powerOn]

end Sys2Proof.Machine
end

section
/-! SUPPORT. A margin measurement over fixed error counts comes to its end (R20). -/

namespace Sys2Proof.Machine

/-! ## Margin measurements (R20)

A measurement over fixed error counts keeps, on each side, a run of clean positions (`MeasSide.Runs`). Each judged position
lengthens an open run by one or stops it, so the positions left to judge (`MeasSide.left`) fall by one each time. -/

/-- The side holds a run of clean positions over `errors`: still open, or ended as `CleanRun` says. -/
structure MeasSide.Runs (errors : Nat → Nat) (allowance : Nat) (x : MeasSide) : Prop where
  clean : ∀ j, 1 ≤ j → j ≤ x.clean → errors j ≤ allowance
  isOpen : x.stopped = false → x.clean < 16 ∧ x.edge = none
  ended : x.stopped = true → CleanRun errors allowance x.clean x.edge

/-- The most positions that the side has still to judge. -/
def MeasSide.left (x : MeasSide) : Nat := if x.stopped then 0 else 16 - x.clean
/-- The positions of the side judged so far: its run and the one that stopped it. -/
def MeasSide.judged (x : MeasSide) : Nat := x.clean + x.edge.toList.length
/-- The side after the position beyond its open run has been judged. -/
def MeasSide.after (errors : Nat → Nat) (allowance : Nat) (x : MeasSide) : MeasSide :=
  x.judge (decide (errors (x.clean + 1) ≤ allowance)) (errors (x.clean + 1))

theorem MeasSide.runs_init (errors : Nat → Nat) (allowance : Nat) : ({} : MeasSide).Runs errors allowance where
  clean := fun j h1 h2 => absurd (h1.trans h2) (by decide)
  isOpen := fun _ => ⟨by decide, rfl⟩
  ended := fun h => absurd h (by decide)

section judge
variable {errors : Nat → Nat} {allowance : Nat} {x : MeasSide}

theorem MeasSide.after_clean (h : errors (x.clean + 1) ≤ allowance) :
    x.after errors allowance = { clean := x.clean + 1, stopped := x.clean + 1 == 16, edge := none } := by
  simp [MeasSide.after, MeasSide.judge, h]
theorem MeasSide.after_unclean (h : allowance < errors (x.clean + 1)) :
    x.after errors allowance = { x with stopped := true, edge := some (errors (x.clean + 1)) } := by
  simp [MeasSide.after, MeasSide.judge, h]

/-- An open run stays a run when its next position is judged. -/
theorem MeasSide.Runs.after (h : x.Runs errors allowance) (hs : x.stopped = false) :
    (x.after errors allowance).Runs errors allowance := by
  obtain ⟨hlt, -⟩ := h.isOpen hs
  rcases Nat.lt_or_ge allowance (errors (x.clean + 1)) with hu | hc
  · rw [MeasSide.after_unclean hu]
    exact ⟨h.clean, by simp, fun _ => ⟨hlt.le, h.clean, by simp [hlt.ne, hu]⟩⟩
  · rw [MeasSide.after_clean hc]
    have hrun : ∀ j, 1 ≤ j → j ≤ x.clean + 1 → errors j ≤ allowance := by
      intro j h1 h2
      rcases Nat.of_le_succ h2 with hj | hj
      · exact h.clean j h1 hj
      · exact hj ▸ hc
    refine ⟨hrun, fun he => ⟨?_, rfl⟩, fun he => ⟨hlt, hrun, ?_⟩⟩
    · have : x.clean + 1 ≠ 16 := by simpa using he
      simp only; omega
    · simpa using he

/-- Judging a position of an open run uses up one of the positions left. -/
theorem MeasSide.Runs.left_after (h : x.Runs errors allowance) (hs : x.stopped = false) :
    (x.after errors allowance).left + 1 ≤ x.left := by
  obtain ⟨hlt, -⟩ := h.isOpen hs
  rcases Nat.lt_or_ge allowance (errors (x.clean + 1)) with hu | hc
  · simp [MeasSide.after_unclean hu, MeasSide.left, hs]; omega
  · simp only [MeasSide.after_clean hc, MeasSide.left, hs]
    split <;> simp <;> omega

/-- One more position of the side has been judged. -/
theorem MeasSide.Runs.judged_after (h : x.Runs errors allowance) (hs : x.stopped = false) :
    (x.after errors allowance).judged = x.judged + 1 := by
  obtain ⟨-, hedge⟩ := h.isOpen hs
  rcases Nat.lt_or_ge allowance (errors (x.clean + 1)) with hu | hc
  · simp [MeasSide.after_unclean hu, MeasSide.judged, hedge]
  · simp [MeasSide.after_clean hc, MeasSide.judged, hedge]

end judge

/-- Both sides hold runs over the fixed error counts `err`, and every judged position is position 0 or one of a side's. -/
structure Meas.Runs (err : Int → Nat) (m : Meas) : Prop where
  neg : m.neg.Runs (fun k : Nat => err (-k)) m.allowance
  pos : m.pos.Runs (fun k : Nat => err k) m.allowance
  measured : m.measured = m.neg.judged + m.pos.judged + 1

/-- The measurement stands at the position beyond the open run of one side. -/
def Meas.AtOpen (m : Meas) : Prop :=
  (m.position = -((m.neg.clean + 1 : Nat) : Int) ∧ m.neg.stopped = false) ∨
  (m.position = ((m.pos.clean + 1 : Nat) : Int) ∧ m.pos.stopped = false)

/-- What a measurement that has come to its end leaves (R20). -/
def MeasEnd.Finds (err : Int → Nat) (allowance : Nat) (e : MeasEnd) : Prop :=
  CleanRun (fun k : Nat => err (-k)) allowance e.left e.edgeLeft ∧
  CleanRun (fun k : Nat => err k) allowance e.right e.edgeRight ∧
  e.width = e.left + e.right + 1 ∧
  e.grade = (if min e.left e.right ≤ 3 then .poor else if min e.left e.right ≤ 7 then .fair else .good) ∧
  e.measured = e.width + e.edgeLeft.toList.length + e.edgeRight.toList.length

/-- The measurement goes on to the open run of a side, or both runs have ended and it is done. -/
theorem Meas.next_cases (m : Meas) (negFirst : Bool) :
    (∃ position, m.next negFirst = .go { m with position := position, frames := 0, errors := 0 } ∧
      Meas.AtOpen { m with position := position, frames := 0, errors := 0 }) ∨
    (m.neg.stopped = true ∧ m.pos.stopped = true ∧ m.next negFirst = .done
      { left := m.neg.clean, right := m.pos.clean, width := m.neg.clean + m.pos.clean + 1
        grade := gradeOf (min m.neg.clean m.pos.clean), edgeLeft := m.neg.edge, edgeRight := m.pos.edge
        measured := m.measured }) := by
  cases hn : m.neg.stopped <;> cases hp : m.pos.stopped <;> cases negFirst <;>
    simp [Meas.next, Meas.moveTo, Meas.AtOpen, hn, hp]

theorem Meas.Runs.finds {err : Int → Nat} {m : Meas} (h : m.Runs err) (hn : m.neg.stopped = true)
    (hp : m.pos.stopped = true) : MeasEnd.Finds err m.allowance
      { left := m.neg.clean, right := m.pos.clean, width := m.neg.clean + m.pos.clean + 1
        grade := gradeOf (min m.neg.clean m.pos.clean), edgeLeft := m.neg.edge, edgeRight := m.pos.edge
        measured := m.measured } := by
  refine ⟨h.neg.ended hn, h.pos.ended hp, rfl, rfl, ?_⟩
  have := h.measured
  simp only [MeasSide.judged] at this ⊢
  omega

/-- A position of the negative side is judged, and the positive side goes next. -/
theorem Meas.judge_of_neg (m : Meas) (h : m.position < 0) : m.judge = Meas.next { m with
    measured := m.measured + 1, neg := m.neg.judge (decide (m.errors ≤ m.allowance)) m.errors } false := by
  simp [Meas.judge, h.ne, Int.not_lt.2 h.le]
/-- A position of the positive side is judged, and the negative side goes next. -/
theorem Meas.judge_of_pos (m : Meas) (h : 0 < m.position) : m.judge = Meas.next { m with
    measured := m.measured + 1, pos := m.pos.judge (decide (m.errors ≤ m.allowance)) m.errors } true := by
  simp [Meas.judge, h.ne', h]

/-- Judging a position of an open run keeps the runs and uses up one of the positions left. -/
theorem Meas.Runs.judge {err : Int → Nat} {m : Meas} (h : m.Runs err) (ho : m.AtOpen) :
    ∃ (m' : Meas) (negFirst : Bool),
      ({ m with frames := m.dwell, errors := err m.position } : Meas).judge = m'.next negFirst ∧ m'.Runs err ∧
      m'.allowance = m.allowance ∧ m'.neg.left + m'.pos.left + 1 ≤ m.neg.left + m.pos.left := by
  obtain ⟨hneg, hpos, hmeas⟩ := h
  rcases ho with ⟨hat, hs⟩ | ⟨hat, hs⟩
  · have hafter : m.neg.judge (decide (err m.position ≤ m.allowance)) (err m.position) =
        m.neg.after (fun k : Nat => err (-k)) m.allowance := by rw [hat]; rfl
    refine ⟨_, _, Meas.judge_of_neg _ (show m.position < 0 by omega), ?_⟩
    dsimp only
    rw [hafter]
    have hjudged := hneg.judged_after hs
    have hleft := hneg.left_after hs
    exact ⟨⟨hneg.after hs, hpos, by dsimp only; omega⟩, rfl, by omega⟩
  · have hafter : m.pos.judge (decide (err m.position ≤ m.allowance)) (err m.position) =
        m.pos.after (fun k : Nat => err k) m.allowance := by rw [hat]; rfl
    refine ⟨_, _, Meas.judge_of_pos _ (show 0 < m.position by omega), ?_⟩
    dsimp only
    rw [hafter]
    have hjudged := hpos.judged_after hs
    have hleft := hpos.left_after hs
    exact ⟨⟨hneg, hpos.after hs, by dsimp only; omega⟩, rfl, by omega⟩

/-- One more judgement than `fuel` begins with the position in hand. -/
theorem Meas.run_succ (err : Int → Nat) (fuel : Nat) (m : Meas) : m.run err (fuel + 1) =
    match ({ m with frames := m.dwell, errors := err m.position } : Meas).judge with
    | .go m => Meas.run err fuel m
    | .done e => .done e := rfl

/-- With as many judgements as positions left, the measurement comes to its end. -/
theorem Meas.Runs.run_done {err : Int → Nat} (fuel : Nat) : ∀ {m : Meas}, m.Runs err → m.AtOpen →
    m.neg.left + m.pos.left ≤ fuel → ∃ e, m.run err fuel = .done e ∧ e.Finds err m.allowance := by
  induction fuel with
  | zero =>
    intro m h ho hleft
    obtain ⟨m', _, _, _, _, hless⟩ := h.judge ho
    omega
  | succ fuel ih =>
    intro m h ho hleft
    obtain ⟨m', negFirst, hjudge, h', hall, hless⟩ := h.judge ho
    rw [Meas.run_succ, hjudge]
    rcases m'.next_cases negFirst with ⟨position, hnext, ho'⟩ | ⟨hn, hp, hnext⟩
    · rw [hnext, ← hall]
      exact ih (m := { m' with position := position, frames := 0, errors := 0 }) ⟨h'.neg, h'.pos, h'.measured⟩ ho'
        (show m'.neg.left + m'.pos.left ≤ fuel by omega)
    · rw [hnext, ← hall]
      exact ⟨_, rfl, h'.finds hn hp⟩

/-- Settles O25: an unclean position 0 ends the measurement at once; after a clean one the 32 positions of the two sides are left,
and `Meas.Runs.run_done` brings the measurement to its end. -/
theorem measurementFindsTheMargins : Obligations.MeasurementFindsTheMargins := by
  intro err dwell allowance start
  refine ⟨fun hu => ?_, fun hc => ?_⟩
  · have : ¬ err 0 ≤ allowance := by omega
    simp [start, Meas.run, Meas.judge, this]
  · have hjudge : ({ start with frames := start.dwell, errors := err 0 } : Meas).judge =
        .go { start with position := 1, measured := 1 } := by
      simp [start, Meas.judge, Meas.next, Meas.moveTo, hc]
    have hruns : Meas.Runs err { start with position := 1, measured := 1 } :=
      ⟨MeasSide.runs_init _ _, MeasSide.runs_init _ _, rfl⟩
    rw [Meas.run_succ, hjudge]
    exact hruns.run_done 32 (.inr ⟨rfl, rfl⟩) (Nat.le_refl 32)

end Sys2Proof.Machine
end

section
/-! SUPPORT. The events of a line command by command, the choice of a preset and the end of the training search (R17 to R19). -/

namespace Sys2Proof.Machine

/-! ## What the events of a line command: each is one operation of the node -/

section events
variable {s : State} (l : Line)
theorem exec_errorWindowEnd (h : s.awake) : exec (.errorWindowEnd l) s = .next (s.became (s.node.windowEnd l)) :=
  onNode_awake s (·.windowEnd l) h
theorem exec_presetConfirmTimeout (h : s.awake) :
    exec (.presetConfirmTimeout l) s = .next (s.became (s.node.confirmTimeout l)) := onNode_awake s (·.confirmTimeout l) h
theorem exec_settleFramesEnd (h : s.awake) : exec (.settleFramesEnd l) s = .next (s.became (s.node.settleEnd l)) :=
  onNode_awake s (·.settleEnd l) h
theorem exec_marginPositionDone (h : s.awake) :
    exec (.marginPositionDone l) s = .next (s.became (s.node.positionDone l)) := onNode_awake s (·.positionDone l) h
theorem exec_trainingRetry (h : s.awake) : exec (.trainingRetry l) s = .next (s.became (s.node.retryEnd l)) :=
  onNode_awake s (·.retryEnd l) h
theorem exec_periodicScanDue (h : s.awake) : exec (.periodicScanDue l) s = .next (s.became (s.node.periodicDue l)) :=
  onNode_awake s (·.periodicDue l) h
theorem exec_lineFrameReceived (h : s.awake) (position d : Nat) (f : LineFrame) :
    exec (.lineFrameReceived l position f d) s = .next (s.became (s.node.lineFrame l position f d)) :=
  onNode_awake s (·.lineFrame l position f d) h
end events

/-! ## A change on a line: what the path monitor leaves as it was -/

section lineChanged
variable (n : Node) (l : Line)
@[simp] theorem Node.lineChanged_line : (n.lineChanged l).line = n.line := (n.lineChanged_paths l).line
@[simp] theorem Node.lineChanged_cs : (n.lineChanged l).cs = n.cs := (n.lineChanged_paths l).cs
end lineChanged

section lineEvent
variable (n : Node) (l : Line) (old : LineState) (cause : LineCause)
@[simp] theorem Node.lineEvent_line : (n.lineEvent l old cause).line = n.line := rfl
@[simp] theorem Node.lineEvent_cs : (n.lineEvent l old cause).cs = n.cs := rfl
end lineEvent

/-! ## The choice of a preset (R18) -/

/-- `better` orders the presets by width, then by distance from preset 5, then by number. -/
theorem better_iff (widths : List Nat) (x y : Nat) : better widths x y = true ↔
    widths.getD y 0 < widths.getD x 0 ∨ (widths.getD x 0 = widths.getD y 0 ∧
      (distance5 x < distance5 y ∨ (distance5 x = distance5 y ∧ x < y))) := by
  simp [better]
theorem better_trans {widths : List Nat} {x y z : Nat} (hxy : better widths x y = true) (hyz : better widths y z = true) :
    better widths x z = true := by
  rw [better_iff] at *; omega
/-- Of two presets the one is better, or the other. -/
theorem better_of_not_better {widths : List Nat} {x y : Nat} (h : ¬ better widths x y = true) (hne : x ≠ y) :
    better widths y x = true := by
  rw [better_iff] at *; omega
theorem not_better_self (widths : List Nat) (x : Nat) : ¬ better widths x x = true := by
  rw [better_iff]; omega
/-- What is not better than a preset is not better than one at least as good. -/
theorem not_better_of_not_better {widths : List Nat} {p b c : Nat} (hpb : ¬ better widths p b = true)
    (hbc : ¬ better widths b c = true) : ¬ better widths p c = true := by
  rw [better_iff] at *; omega

/-- The better of two presets, the first of them where neither is. -/
def keepBetter (widths : List Nat) (b p : Nat) : Nat := if better widths p b then p else b

/-- The preset kept from a list is one of those offered, and none of them is better. -/
theorem foldl_keepBetter (widths : List Nat) (l : List Nat) : ∀ b,
    (l.foldl (keepBetter widths) b = b ∨ l.foldl (keepBetter widths) b ∈ l) ∧
    ∀ p, p = b ∨ p ∈ l → ¬ better widths p (l.foldl (keepBetter widths) b) = true := by
  induction l with
  | nil =>
    intro b
    refine ⟨.inl rfl, fun p hp => ?_⟩
    obtain rfl : p = b := by simpa using hp
    exact not_better_self widths p
  | cons x l ih =>
    intro b
    obtain ⟨hmem, hbest⟩ := ih (keepBetter widths b x)
    have hkept : keepBetter widths b x = b ∨ keepBetter widths b x = x := by
      unfold keepBetter; split <;> simp
    have hb : ¬ better widths b (keepBetter widths b x) = true := by
      unfold keepBetter; split
      · rename_i h; exact fun h' => not_better_self widths x (better_trans h h')
      · exact not_better_self widths b
    have hx : ¬ better widths x (keepBetter widths b x) = true := by
      unfold keepBetter; split
      · exact not_better_self widths x
      · assumption
    rw [List.foldl_cons]
    refine ⟨?_, fun p hp => ?_⟩
    · rcases hmem with h | h
      · rw [h]; rcases hkept with hk | hk <;> simp [hk]
      · simp [h]
    · have hkeep := hbest _ (.inl rfl)
      rcases hp with rfl | hp
      · exact not_better_of_not_better hb hkeep
      · rcases List.mem_cons.1 hp with rfl | hp
        · exact not_better_of_not_better hx hkeep
        · exact hbest p (.inr hp)

theorem choosePreset_le (widths : List Nat) : choosePreset widths ≤ 10 := by
  rcases (foldl_keepBetter widths (List.range 11) 0).1 with h | h
  · exact h.trans_le (by decide)
  · exact Nat.le_of_lt_succ (List.mem_range.1 h)
theorem better_choosePreset {widths : List Nat} {p : Nat} (hp : p ≤ 10) (hne : p ≠ choosePreset widths) :
    better widths (choosePreset widths) p = true :=
  better_of_not_better ((foldl_keepBetter widths (List.range 11) 0).2 p (.inr (List.mem_range.2 (by omega)))) hne
theorem distance5_eq (p : Nat) : distance5 p = max (p - 5) (5 - p) := by
  unfold distance5; split <;> omega

/-! ## The end of the search (R18, R19) -/

theorem Node.testTrained_of_not {n : Node} {l : Line}
    (h : ¬ ((n.line.get l).state = .training ∧ (n.line.get l).rxTrained = true ∧
      (n.line.get l).confirmed.any (·.rxTrained) = true)) : n.testTrained l = n := by
  unfold Node.testTrained
  exact if_neg (by simpa [and_assoc] using h)

/-- The port as it enters UP (R19). -/
def LinePort.intoUp (p : LinePort) : LinePort :=
  { p with state := .up, win := {}, periodic := if p.minutes = 0 then none else some (240000 * p.minutes) }

theorem Node.testTrained_of {n : Node} {l : Line} (hs : (n.line.get l).state = .training)
    (hr : (n.line.get l).rxTrained = true) (hc : (n.line.get l).confirmed.any (·.rxTrained) = true) :
    n.testTrained l = ((n.setLine l (n.line.get l).intoUp).lineEvent l .training .trained).lineChanged l := by
  unfold Node.testTrained
  exact if_pos (by simp [hs, hr, hc])

/-- Eleven widths end the search as `SearchEnds` says. -/
theorem Node.chooseTrained_ends (s : State) (l : Line) (widths : List Nat) :
    SearchEnds s l widths (.next (s.became (s.node.chooseTrained l widths))) := by
  unfold SearchEnds
  intro n p best both trained
  refine ⟨fun h0 => ?_, fun hpos hnot => ?_, fun hpos hboth => ?_⟩
  · have : n.chooseTrained l widths = _ := if_pos h0
    rw [this]
    simp [Node.lineEvent, Node.modLine, p]
  · have : n.chooseTrained l widths = (n.setLine l trained).testTrained l := if_neg hpos.ne'
    rw [this, Node.testTrained_of_not]
    simpa [trained, both] using hnot
  · have hm : n.chooseTrained l widths =
        ((n.setLine l trained.intoUp).lineEvent l .training .trained).lineChanged l := by
      have hc : n.chooseTrained l widths = (n.setLine l trained).testTrained l := if_neg hpos.ne'
      obtain ⟨hstate, hfar⟩ := hboth
      have hget : (n.setLine l trained).line.get l = trained := by simp
      rw [hc, Node.testTrained_of (by rwa [hget]) (by rw [hget]) (by rwa [hget]), hget]
      simp [Node.setLine]
    have hp := Node.lineChanged_paths ((n.setLine l trained.intoUp).lineEvent l .training .trained) l
    refine ⟨_, rfl, ?_⟩
    rw [hm]
    refine ⟨by simp [LinePort.intoUp, trained], by simp, ?_, hp.pins, hp.clk, hp.op, hp.runTime, hp.cfg, hp.cs, hp.au, hp.cc,
      hp.pe, hp.te, hp.pc⟩
    simpa [Node.lineEvent, LinePort.intoUp, trained] using hp.grows

/-- A preset before the last that has been scored gives way to the next; the last one ends the search. -/
theorem Node.scorePreset_of_lt (n : Node) (l : Line) {preset : Nat} (h : preset < 10) (width : Nat) (widths : List Nat) :
    n.scorePreset l preset width widths =
      n.setLine l ((n.line.get l).tryPreset (preset + 1) (widths ++ [width])) := if_pos h
theorem Node.scorePreset_ends (s : State) (l : Line) {preset : Nat} (h : 10 ≤ preset) (width : Nat) (widths : List Nat) :
    SearchEnds s l (widths ++ [width]) (.next (s.became (s.node.scorePreset l preset width widths))) := by
  rw [Node.scorePreset, if_neg (Nat.not_lt.2 h)]
  exact Node.chooseTrained_ends s l _

section counts
variable {n : Node} {l : Line} {preset k : Nat} {widths : List Nat}

/-- R17 step 2: the count of frames without the confirmation decides. -/
theorem Node.confirmTimeout_eq (h : (n.line.get l).training = .search preset (.confirm k) widths) :
    n.confirmTimeout l = if 32 ≤ k then n.scorePreset l preset 0 widths else n := by
  simp [Node.confirmTimeout, h]
/-- R17 step 4: the count of settle frames decides. -/
theorem Node.settleEnd_eq (h : (n.line.get l).training = .search preset (.settle k) widths) :
    n.settleEnd l = if 8 ≤ k then
      n.setLine l { n.line.get l with training := .search preset (.measure quickMeas) widths } else n := by
  simp [Node.settleEnd, h, Node.modLine]
/-- R18: the count of frames of the pause decides. -/
theorem Node.retryEnd_eq (h : (n.line.get l).training = .pause k) :
    n.retryEnd l = if 4000 ≤ k then n.setLine l ((n.line.get l).tryPreset 0 []) else n := by
  simp [Node.retryEnd, h, Node.modLine]

end counts

/-- Settles O26: the chosen preset is the best under `better_iff`, and each count of frames decides its event. -/
theorem trainingSearchTurnsOnItsCounts : Obligations.TrainingSearchTurnsOnItsCounts := by
  refine ⟨fun widths _ => ⟨choosePreset_le widths, fun p hp hne => ?_⟩, fun s l hs => ?_⟩
  · have hbetter := (better_iff _ _ _).1 (better_choosePreset hp hne)
    simp only [distance5_eq] at hbetter
    exact hbetter.imp_right fun ⟨hw, h⟩ => ⟨hw.symm, h⟩
  · intro n p turned
    rw [exec_presetConfirmTimeout l hs, exec_settleFramesEnd l hs, exec_trainingRetry l hs]
    refine ⟨fun preset k widths ht => ?_, fun preset k widths ht => ?_, fun k ht => ?_⟩
    · rw [Node.confirmTimeout_eq ht]
      refine ⟨fun hk => by rw [if_neg (by omega)], fun hk hlast => ?_, fun hk hlast => ?_⟩
      · rw [if_pos hk, Node.scorePreset_of_lt _ _ hlast]; rfl
      · rw [if_pos hk]; exact Node.scorePreset_ends s l hlast 0 widths
    · rw [Node.settleEnd_eq ht]
      exact ⟨fun hk => by rw [if_neg (by omega)], fun hk => by rw [if_pos hk]; rfl⟩
    · rw [Node.retryEnd_eq ht]
      exact ⟨fun hk => by rw [if_neg (by omega)], fun hk => by rw [if_pos hk]; rfl⟩

end Sys2Proof.Machine
end

section
/-! SUPPORT. Requests answered or refused by their checks, and margin scans (R20 to R24). -/

namespace Sys2Proof.Machine

/-! ## Requests: an owner's checks, passed or failed, and its answer -/

theorem checked_passed {n : Node} {checks : List (Bool × Reply)} {accept : Answer} (h : ∀ c ∈ checks, c.1 = false) :
    checked n checks accept = accept := by
  simp [checked, (firstRefusal_eq_none checks).2 h]
theorem checked_failed {n : Node} {checks : List (Bool × Reply)} {accept : Answer} {r : Reply}
    (h : firstRefusal checks = some r) : checked n checks accept = { node := n, reply := r } := by
  simp [checked, h]

section answers
variable {s : State} {i : Fin 4} {r : Request} {mine : Request → Bool} {own : Link → List Byte → Node → Answer}

/-- An owner that answers OK with its fields leaves the node it gives. -/
theorem handle_ok (h : s.asks i r) (hm : mine r = true) {m : Node} {fields : List Byte}
    (ha : own s.link r.body s.node = { node := m, reply := okReply fields }) :
    handle s mine own = .next (s.replied i r m (okBytes fields)) := by
  rw [handle_asks h own hm, ha]; rfl
/-- An owner that refuses leaves the node as it is. -/
theorem handle_refused (h : s.asks i r) (hm : mine r = true) {reply : Reply}
    (ha : own s.link r.body s.node = { node := s.node, reply := reply }) :
    handle s mine own = .next (s.replied i r s.node reply.bytes) := by
  rw [handle_asks h own hm, ha]

end answers

theorem isKind_of_eq {k : Byte} {r : Request} (h : r.kind = k) : isKind k r = true := by simp [isKind, h]

/-! ## MARGIN_SCAN (R22) -/

/-- A full scan at its first position, with the port's dwell and allowance. -/
def LinePort.firstScan (p : LinePort) (o : Origin) : Scan :=
  { origin := o, meas := { dwell := p.dwell, allowance := p.allowance } }

theorem Node.startScan_eq (n : Node) (l : Line) (o : Origin) :
    n.startScan l o = n.setLine l { n.line.get l with scan := some ((n.line.get l).firstScan o) } := rfl

section marginScan
variable {n : Node} {b : List Byte} {l : Line} (k : Link)

theorem ownMarginScan_ok (hop : n.op = .running) (hlen : b.length = 1) (hl : lineOf (f1 b 0) = some l)
    (hup : (n.line.get l).state = .up) (hs : (n.line.get l).scan = none) :
    ownMarginScan k b n = { node := n.startScan l .requested
                            reply := okReply (be2 (n.line.get l).dwell ++ be1 (n.line.get l).allowance) } := by
  unfold ownMarginScan
  simp only [hl, Option.getD_some]
  exact checked_passed (by simp [commonChecks, bad, hop, hlen, hup, hs])
theorem ownMarginScan_wrongState (hop : n.op = .running) (hlen : b.length = 1) (hl : lineOf (f1 b 0) = some l)
    (hup : (n.line.get l).state ≠ .up) : ownMarginScan k b n = { node := n, reply := refusal .wrongState } := by
  unfold ownMarginScan
  simp only [hl, Option.getD_some]
  exact checked_failed (by simp [firstRefusal, commonChecks, bad, hop, hlen, hup])
theorem ownMarginScan_busy (hop : n.op = .running) (hlen : b.length = 1) (hl : lineOf (f1 b 0) = some l)
    (hup : (n.line.get l).state = .up) (hs : (n.line.get l).scan.isSome = true) :
    ownMarginScan k b n = { node := n, reply := refusal .busy } := by
  unfold ownMarginScan
  simp only [hl, Option.getD_some]
  exact checked_failed (by simp [firstRefusal, commonChecks, bad, hop, hlen, hup, hs])

end marginScan

/-! ## Positions done and scans due (R20, R23, R24) -/

section positions
variable {n : Node} {l : Line}

/-- R17: in the training search the quick measurement decides. -/
theorem Node.positionDone_search {preset : Nat} {q : Meas} {widths : List Nat}
    (h : (n.line.get l).training = .search preset (.measure q) widths) :
    n.positionDone l = if q.due then
      (match q.judge with
       | .go m => n.setLine l { n.line.get l with training := .search preset (.measure m) widths }
       | .done e => n.scorePreset l preset e.width widths) else n := by
  unfold Node.positionDone
  rw [h]; rfl
/-- R24: without a training search the full scan decides. -/
theorem Node.positionDone_scan {c : Scan} (ht : (n.line.get l).training = .none ∨ (n.line.get l).training = .trained)
    (h : (n.line.get l).scan = some c) :
    n.positionDone l = if c.meas.due then
      (match c.meas.judge with
       | .go m => n.setLine l { n.line.get l with scan := some { c with meas := m } }
       | .done e => n.scanDone l c e) else n := by
  unfold Node.positionDone
  rw [h]
  rcases ht with ht | ht <;> rw [ht] <;> rfl
/-- R23: the elapsed interval counts again, and a scan starts unless one is running. -/
theorem Node.periodicDue_eq (h : (n.line.get l).periodic = some 0) :
    n.periodicDue l = n.setLine l { n.line.get l with
      periodic := some (240000 * (n.line.get l).minutes)
      scan := (n.line.get l).scan.or (some ((n.line.get l).firstScan .periodic)) } := by
  unfold Node.periodicDue
  dsimp only
  rw [if_pos h]
  cases hs : (n.line.get l).scan with
  | none => simp [Node.startScan_eq, LinePort.firstScan, Node.setLine]
  | some c => simp

end positions

/-- Settles O24: MARGIN_SCAN by its checks, the due events by the operation that each is, `Node.scorePreset_ends` for preset 10. -/
theorem scansStartAndMoveOnByPosition : Obligations.ScansStartAndMoveOnByPosition := by
  intro s l hs n p started
  rw [exec_periodicScanDue l hs, exec_marginPositionDone l hs]
  refine ⟨fun i r hasks hk hop hlen hl => ⟨fun hup hscan => ?_, fun hup => ?_, fun hup hscan => ?_⟩,
    fun hp => by rw [Node.periodicDue_eq hp]; rfl, fun hp => by rw [Node.periodicDue, if_neg hp],
    fun c ht hc hdue => ?_, fun preset q widths ht hdue => ?_, fun preset q widths ht hdue => ?_, fun c ht hc hdue => ?_⟩
  · exact handle_ok hasks (isKind_of_eq hk) (ownMarginScan_ok _ hop hlen hl hup hscan)
  · exact handle_refused hasks (isKind_of_eq hk) (ownMarginScan_wrongState _ hop hlen hl hup)
  · exact handle_refused hasks (isKind_of_eq hk) (ownMarginScan_busy _ hop hlen hl hup hscan)
  · rw [Node.positionDone_scan ht hc, if_pos (by simpa [Meas.due] using hdue)]
    exact ⟨fun m hm => by rw [hm], fun e he => by rw [he]; rfl⟩
  · rw [Node.positionDone_search ht, if_pos (by simpa [Meas.due] using hdue)]
    refine ⟨fun m hm => by rw [hm], fun e he hlast => ?_, fun e he hlast => ?_⟩
    · rw [he]; dsimp only; rw [Node.scorePreset_of_lt _ _ hlast]; rfl
    · rw [he]; exact Node.scorePreset_ends s l hlast e.width widths
  · rw [Node.positionDone_search ht, if_neg (by simpa [Meas.due] using hdue)]
  · rw [Node.positionDone_scan ht hc, if_neg (by simpa [Meas.due] using hdue)]

end Sys2Proof.Machine
end

section
/-! SUPPORT. The end of an error window, in the order in which SF and SD are judged (R13 to R15). -/

namespace Sys2Proof.Machine

/-! ## SD at a window end (R14) -/

section judgeSd
variable (n : Node) (l : Line) (errors thr : Nat)

/-- An SD that is set stays while SF is set or the count is not below half the threshold (R14). -/
def LinePort.holdsSd (p : LinePort) (errors thr : Nat) : Bool := p.sf || decide (thr ≤ 2 * errors)

/-- An SD that does not stay is cleared and reported. -/
theorem Node.judgeSd_eq : n.judgeSd l errors thr =
    if (n.line.get l).sd && !(n.line.get l).holdsSd errors thr then
      (n.setLine l { n.line.get l with sd := false }).lineEvent l (n.line.get l).state .sdClear
    else n := by
  have hiff : ((n.line.get l).sd && !(n.line.get l).holdsSd errors thr) =
      ((n.line.get l).sd && !(n.line.get l).sf && decide (2 * errors < thr)) := by
    rw [Bool.eq_iff_iff]; simp [LinePort.holdsSd, and_assoc]
  rw [hiff]; rfl
theorem Node.judgeSd_line : (n.judgeSd l errors thr).line =
    n.line.set l { n.line.get l with sd := (n.line.get l).sd && (n.line.get l).holdsSd errors thr } := by
  rw [Node.judgeSd_eq]
  cases hsd : (n.line.get l).sd <;> cases hk : (n.line.get l).holdsSd errors thr
  case true.false => simp
  all_goals
    simp only [Bool.false_and, Bool.and_false, Bool.and_self, Bool.not_true, Bool.not_false, Bool.false_eq_true, if_false]
    rw [← hsd]; exact (Two.set_get _ _).symm
@[simp] theorem Node.judgeSd_cs : (n.judgeSd l errors thr).cs = n.cs := by
  rw [Node.judgeSd_eq]; split <;> rfl
/-- The report of a cleared SD, SF being clear. -/
theorem Node.judgeSd_reports : (n.judgeSd l errors thr).reports =
    (if (n.line.get l).sd && !(n.line.get l).holdsSd errors thr then
      n.report (.lineEvent l (n.line.get l).state (n.line.get l).state .sdClear false false) else n).reports := by
  rw [Node.judgeSd_eq]
  split
  · rename_i h
    have hsf : (n.line.get l).sf = false := by
      simp only [LinePort.holdsSd, Bool.and_eq_true, Bool.not_eq_true', Bool.or_eq_false_iff] at h
      exact h.2.1
    simp [Node.lineEvent, hsf]
  · rfl

end judgeSd

/-! ## The end of a window (R13, R15) -/

/-- The windows in a row, up to 2, whose counts stayed below the SD threshold in force, the one in progress the last. -/
def Window.belowNow (w : Window) : Nat := if w.errors < w.sdThr then min 2 (w.below + 1) else 0

/-- The port at its window's end, SF judged and SD not yet. -/
def LinePort.endWindow (p : LinePort) : LinePort :=
  { p with
    win := { frames := 0, errors := 0, last := p.win.errors, below := p.win.belowNow, sdThr := p.win.sdThr, sfThr := p.win.sfThr }
    sf := p.sf && !decide (p.win.belowNow = 2) }

/-- The node at a window's end, SF judged and a cleared SF reported. -/
def Node.sfJudged (n : Node) (l : Line) : Node :=
  let p := n.line.get l
  let ended := n.setLine l p.endWindow
  if p.sf && !p.endWindow.sf then ended.lineEvent l p.state .sfClear else ended

theorem Node.windowEnd_of_due {n : Node} {l : Line} (hup : (n.line.get l).state = .up)
    (hw : 4000 ≤ (n.line.get l).win.frames) :
    n.windowEnd l = ((n.sfJudged l).judgeSd l (n.line.get l).win.errors (n.line.get l).win.sdThr).lineChanged l := by
  unfold Node.windowEnd
  dsimp only
  rw [if_pos ⟨hup, hw⟩]
  have hbelow : (if (n.line.get l).win.errors < (n.line.get l).win.sdThr then min 2 ((n.line.get l).win.below + 1) else 0) =
      (n.line.get l).win.belowNow := rfl
  rw [hbelow]
  have hsf : ((n.line.get l).sf && !((n.line.get l).sf && (n.line.get l).win.belowNow == 2)) = (n.line.get l).endWindow.sf := by
    cases hf : (n.line.get l).sf <;> simp [LinePort.endWindow, hf]; rfl
  have hclear : ((n.line.get l).sf && (n.line.get l).win.belowNow == 2) =
      ((n.line.get l).sf && !(n.line.get l).endWindow.sf) := by
    cases hf : (n.line.get l).sf <;> simp [LinePort.endWindow, hf]; rfl
  rw [hsf, hclear]; rfl
theorem Node.windowEnd_of_not_due {n : Node} {l : Line}
    (h : (n.line.get l).state ≠ .up ∨ (n.line.get l).win.frames < 4000) : n.windowEnd l = n :=
  if_neg (by rw [not_and_or, Nat.not_le]; exact h)

section sfJudged
variable (n : Node) (l : Line)
@[simp] theorem Node.sfJudged_line : (n.sfJudged l).line = n.line.set l (n.line.get l).endWindow := by
  unfold Node.sfJudged; dsimp only; split <;> rfl
@[simp] theorem Node.sfJudged_cs : (n.sfJudged l).cs = n.cs := by unfold Node.sfJudged; dsimp only; split <;> rfl
/-- The report of a cleared SF (R15). -/
theorem Node.sfJudged_reports : (n.sfJudged l).reports =
    (if (n.line.get l).sf && !(n.line.get l).endWindow.sf then
      n.report (.lineEvent l (n.line.get l).state (n.line.get l).state .sfClear (n.line.get l).sd false) else n).reports := by
  unfold Node.sfJudged
  dsimp only
  split
  · rename_i h
    have hsf : (n.line.get l).endWindow.sf = false := by simpa using (Bool.and_eq_true_iff.1 h).2
    simp only [Node.lineEvent, Node.setLine_line, Two.get_set_same, hsf]; rfl
  · rfl

@[simp] theorem Node.sfJudged_runTime : (n.sfJudged l).runTime = n.runTime := by
  unfold Node.sfJudged; dsimp only; split <;> rfl

end sfJudged

/-- Settles O29: a window's end judges SF (`Node.sfJudged`), then SD (`Node.judgeSd`), and only then does the path monitor
act, which leaves lines and cell switch and whose reports follow. -/
theorem windowEndJudgesSdAndSf : Obligations.WindowEndJudgesSdAndSf := by
  intro s l hs n p w below sf
  rw [exec_errorWindowEnd l hs]
  refine ⟨fun hup hw => ?_, fun h => by rw [Node.windowEnd_of_not_due h]⟩
  have hlines := n.windowEnd_lines l
  have hm := Node.windowEnd_of_due hup hw
  have hpaths := Node.lineChanged_paths ((n.sfJudged l).judgeSd l w.errors w.sdThr) l
  rw [← hm] at hpaths
  refine ⟨_, rfl, ?_, ?_, ?_, hlines.pins, hlines.clk, hlines.op, hlines.runTime, hlines.cfg, ?_, hlines.au, hlines.cc,
    hlines.pe, hlines.te, hlines.pc⟩
  · rw [hpaths.line, Node.judgeSd_line]
    simp only [Two.get_set_same, Node.sfJudged_line]
    rfl
  · intro one two
    refine List.IsPrefix.trans ?_ hpaths.grows
    have hone : (n.sfJudged l).reports = one.reports := by rw [Node.sfJudged_reports, hup]; rfl
    have hrun : one.runTime = n.runTime := by unfold one; split <;> rfl
    have htwo : two.reports = ((n.sfJudged l).judgeSd l w.errors w.sdThr).reports := by
      rw [Node.judgeSd_reports, Node.sfJudged_line, Two.get_set_same]
      change _ = (if p.sd && !(sf || decide (w.sdThr ≤ 2 * w.errors)) then
        (n.sfJudged l).report (.lineEvent l p.state p.state .sdClear false false) else n.sfJudged l).reports
      unfold two
      split
      · rw [Node.report_reports, Node.report_reports, hone, hrun, Node.sfJudged_runTime, hup]
      · exact hone.symm
    rw [htwo]
  · rw [hpaths.line, Node.judgeSd_line]; simp
  · rw [hpaths.cs]; simp

end Sys2Proof.Machine
end

section
/-! SUPPORT. Alignment in SEEKING, the fall of a port, and the loss and return of signal (R7 to R9, R25, R28, R50). -/

namespace Sys2Proof.Machine

/-! ## A port that falls to SEEKING or DISABLED (R9, R25, R28, R50) -/

section dropLine
variable (n : Node) (l : Line) (next : LineState) (cause : LineCause)

@[simp] theorem Node.abortScan_line : (n.abortScan l).line = n.line := by unfold Node.abortScan; split <;> rfl
@[simp] theorem Node.abortScan_cs : (n.abortScan l).cs = n.cs := by unfold Node.abortScan; split <;> rfl
theorem Node.abortScan_of_none {n : Node} {l : Line} (h : (n.line.get l).scan = none) : n.abortScan l = n := by
  unfold Node.abortScan; rw [h]

@[simp] theorem Node.lineFails_line : (n.lineFails l).line = n.line := rfl
/-- The cells of a failed line are given up and its hold count starts again (R50). -/
def SwitchLine.failed (w : SwitchLine) : SwitchLine := { w with hold := 0, newest := none, arrived := 0 }
theorem Node.lineFails_cs : (n.lineFails l).cs = { n.cs with line := n.cs.line.set l (n.cs.line.get l).failed } := rfl

@[simp] theorem Node.dropLine_line : (n.dropLine l next cause).line = n.line.set l ((n.line.get l).letGo next) := by
  simp [Node.dropLine]
@[simp] theorem Node.dropLine_cs :
    (n.dropLine l next cause).cs = { n.cs with line := n.cs.line.set l (n.cs.line.get l).failed } := by
  simp [Node.dropLine, Node.lineFails_cs]

/-- A port without a confirmed copy gives no reach (R28). -/
theorem LinePort.reaches_of_unconfirmed {p : LinePort} (h : p.confirmed = none) (hopLimit : Nat) :
    p.reaches hopLimit = false := by
  simp [LinePort.reaches, h]
theorem Node.dropLine_reach : ((n.dropLine l next cause).pathOf l.side).reach = false := by
  rw [Node.dropLine, Node.reach_lineChanged]
  exact LinePort.reaches_of_unconfirmed (by simp [LinePort.letGo]) _
/-- With no scan to abort, the LINE_EVENT is the first report of the fall (log 85). -/
theorem Node.dropLine_reports {n : Node} {l : Line} (next : LineState) (cause : LineCause)
    (h : (n.line.get l).scan = none) :
    (n.report (.lineEvent l (n.line.get l).state next cause false false)).reports.queue <+:
      (n.dropLine l next cause).reports.queue := by
  rw [Node.dropLine]
  refine List.IsPrefix.trans ?_ (Node.lineChanged_paths _ l).grows
  rw [Node.abortScan_of_none h]
  simp [Node.lineEvent, LinePort.letGo, Node.lineFails]

end dropLine

/-! ## A received frame: what it does before it is taken -/

/-- With no training search and nothing due, a received frame finds nothing to settle (log 1). -/
theorem Node.settleLine_of_quiet {n : Node} {l : Line}
    (ht : (n.line.get l).training = .none ∨ (n.line.get l).training = .trained)
    (hscan : ∀ c, (n.line.get l).scan = some c → c.meas.frames < c.meas.dwell)
    (hwin : (n.line.get l).state ≠ .up ∨ (n.line.get l).win.frames < 4000) : n.settleLine l = n := by
  have hconfirm : n.confirmTimeout l = n := by
    unfold Node.confirmTimeout; rcases ht with ht | ht <;> rw [ht]
  have hsettle : n.settleEnd l = n := by
    unfold Node.settleEnd; rcases ht with ht | ht <;> rw [ht]
  have hposition : n.positionDone l = n := by
    cases hc : (n.line.get l).scan with
    | none => unfold Node.positionDone; rcases ht with ht | ht <;> rw [ht, hc]
    | some c =>
      unfold Node.positionDone
      have hdue : c.meas.due = false := by simpa [Meas.due] using hscan c hc
      rcases ht with ht | ht <;> rw [ht, hc] <;> simp [hdue]
  have hretry : n.retryEnd l = n := by
    unfold Node.retryEnd; rcases ht with ht | ht <;> rw [ht]
  rw [Node.settleLine, hconfirm, hsettle, hposition, hretry, Node.windowEnd_of_not_due hwin]

/-- The pending frame that a received frame makes, taken in UP or not (R10). -/
def pendingOf (f : LineFrame) (inUp : Bool) : PendingFrame :=
  { overhead := f.overhead.toList, check := frameCheck f.overhead.toList f.cells.toList
    markerWrong := !markerGood f.overhead.toList, inUp := inUp }

theorem markerGood_iff (ov : List Byte) : markerGood ov = true ↔ ov.take 4 = [0xF6#8, 0x28#8, 0x5A#8, 0xC3#8] := by
  simp [markerGood, Config.marker]

/-- A frame in SEEKING goes to the marker search (R7). -/
theorem Node.lineFrame_seeking {n : Node} {l : Line} (hsignal : n.hasSignal l = true) (hs : (n.line.get l).state = .seeking)
    (ht : (n.line.get l).training = .none) (hscan : (n.line.get l).scan = none) (position d : Nat) (f : LineFrame) :
    n.lineFrame l position f d =
      n.seek l position (markerGood f.overhead.toList) (pendingOf f false) f.cells.toList := by
  have hquiet : n.settleLine l = n :=
    Node.settleLine_of_quiet (.inl ht) (by simp [hscan]) (.inl (by simp [hs]))
  unfold Node.lineFrame
  simp [hquiet, hsignal, hs, pendingOf]; rfl

section seek
variable {n : Node} {l : Line} (position : Nat) (good : Bool) (pend : PendingFrame) (cells : List CellVal)

theorem Node.seek_of_no_trial (h : (n.line.get l).goodMarkers = 0) :
    n.seek l position good pend cells = n.setLine l ((n.line.get l).search position good) := by
  simp [Node.seek, h]
theorem Node.seek_past (h : (n.line.get l).goodMarkers ≠ 0) (hp : (n.line.get l).past position ≠ 0) :
    n.seek l position good pend cells = n.setLine l
      (if (n.line.get l).trialPast < (n.line.get l).past position
       then { n.line.get l with trialPast := (n.line.get l).past position }
       else (n.line.get l).search position good) := by
  simp only [Node.seek, h, hp, if_false]
  split <;> rfl
/-- At the boundary of a trial a marker is missing (R7). -/
theorem Node.seek_missing (h : (n.line.get l).goodMarkers ≠ 0) (hp : (n.line.get l).past position = 0) :
    n.seek l position false pend cells = n.setLine l { n.line.get l with goodMarkers := 0 } := by
  simp [Node.seek, h, hp]
/-- The second good marker at one position counts. -/
theorem Node.seek_second (h : (n.line.get l).goodMarkers = 1) (hp : (n.line.get l).past position = 0) :
    n.seek l position true pend cells = n.setLine l { n.line.get l with goodMarkers := 2, trialPast := 0 } := by
  simp [Node.seek, h, hp]
/-- The third good marker at one position aligns the port. -/
theorem Node.seek_third (h : (n.line.get l).goodMarkers = 2) (hp : (n.line.get l).past position = 0) :
    n.seek l position true pend cells = n.aligned l pend cells := by
  simp [Node.seek, h, hp]

end seek

/-! ## The third good marker (R7, R17) -/

section aligned
variable (n : Node) (l : Line) (pend : PendingFrame) (cells : List CellVal)

/-- The port as it enters TRAINING, the search at preset 0. -/
def LinePort.aligned (p : LinePort) (pend : PendingFrame) : LinePort :=
  { p with state := .training, goodMarkers := 0, wrongMarkers := 0, pendingFrame := some pend
           request := some 0, training := .search 0 .request [] }

@[simp] theorem Node.aligned_line : (n.aligned l pend cells).line = n.line.set l ((n.line.get l).aligned pend) := by
  simp [Node.aligned, Node.deliverPayload, LinePort.aligned, LinePort.tryPreset]
@[simp] theorem Node.aligned_cs : (n.aligned l pend cells).cs = (n.deliverPayload l cells).cs := by
  simp [Node.aligned, Node.deliverPayload]
/-- The LINE_EVENT comes before the path and timing events (log 85). -/
theorem Node.aligned_reports :
    (n.report (.lineEvent l .seeking .training .aligned (n.line.get l).sd (n.line.get l).sf)).reports.queue <+:
      (n.aligned l pend cells).reports.queue := by
  refine List.IsPrefix.trans ?_ (Node.lineChanged_paths _ l).grows
  simp [Node.lineEvent, Node.deliverPayload, LinePort.tryPreset]

end aligned

/-! ## Signals (R7, R8) -/

section signals
variable {s : State} (h : s.awake) (l : Line) (pin : SignalPin)
include h

theorem State.awake_setSignal (level : Bool) : (s.setPins (s.node.pins.setSignal l pin level)).awake := by
  cases pin <;> exact h
theorem exec_signalLost : exec (.signalLost l pin) s =
    .next (s.became ((s.setPins (s.node.pins.setSignal l pin false)).node.signalGone l)) :=
  onNode_awake _ (·.signalGone l) (State.awake_setSignal h l pin false)
theorem exec_signalReturned : exec (.signalReturned l pin) s =
    .next (s.became { s.node with pins := s.node.pins.setSignal l pin true }) :=
  onNode_awake _ id (State.awake_setSignal h l pin true)

end signals

theorem Node.hasSignal_of_lost (s : State) (l : Line) (pin : SignalPin) :
    (s.setPins (s.node.pins.setSignal l pin false)).node.hasSignal l = false := by
  cases pin <;> simp [Node.hasSignal, Pins.setSignal]

section signalGone
variable {n : Node} {l : Line}

theorem Node.signalGone_disabled (h : (n.line.get l).state = .disabled) : n.signalGone l = n := by
  unfold Node.signalGone; rw [h]
theorem Node.signalGone_seeking (h : (n.line.get l).state = .seeking) :
    n.signalGone l = n.setLine l { n.line.get l with goodMarkers := 0 } := by
  unfold Node.signalGone; rw [h]; rfl
theorem Node.signalGone_aligned (h : (n.line.get l).state = .training ∨ (n.line.get l).state = .up) :
    n.signalGone l = n.dropLine l .seeking .signalLost := by
  unfold Node.signalGone; rcases h with h | h <;> rw [h]

end signalGone

/-- Settles O27: a frame in SEEKING is one step of the marker search, case by case; a lost signal is a fall to SEEKING
(`Node.dropLine`) or touches the marker count alone. -/
theorem alignmentIsFoundAndLost : Obligations.AlignmentIsFoundAndLost := by
  refine ⟨?_, ?_⟩
  · intro s l position d f hs n p frame good past searched hsignal hstate ht hscan hb
    have hpast : p.past position = past := LinePort.past_eq p position hb
    have hsearch : p.search position (markerGood f.overhead.toList) = searched := by
      simp only [LinePort.search, markerGood_iff]; rfl
    rw [exec_lineFrameReceived l hs, Node.lineFrame_seeking hsignal hstate ht hscan]
    refine ⟨fun h0 => ?_, fun h0 hp => ?_, fun h0 hp hbad => ?_, fun h1 hp hgood => ?_, fun h2 hp hgood => ?_⟩
    · rw [Node.seek_of_no_trial _ _ _ _ h0, hsearch]
    · rw [← hpast] at hp
      rw [Node.seek_past _ _ _ _ h0 hp, hsearch, hpast]
    · rw [← hpast] at hp
      have hm : markerGood f.overhead.toList = false := by rw [← Bool.not_eq_true, markerGood_iff]; exact hbad
      rw [hm, Node.seek_missing _ _ _ h0 hp]
    · rw [← hpast] at hp
      have hm : markerGood f.overhead.toList = true := (markerGood_iff _).2 hgood
      rw [hm, Node.seek_second _ _ _ h1 hp]
    · rw [← hpast] at hp
      have hm : markerGood f.overhead.toList = true := (markerGood_iff _).2 hgood
      rw [hm, Node.seek_third _ _ _ h2 hp]
      have hlines := n.aligned_lines l (pendingOf f false) f.cells.toList
      refine ⟨_, rfl, ?_, ?_, ?_, ?_, n.aligned_reports l _ _, hlines.pins, hlines.clk, hlines.op, hlines.runTime, hlines.cfg,
        hlines.au, hlines.cc, hlines.pe, hlines.te, hlines.pc, hlines.live, hlines.staging⟩
      · rw [Node.aligned_line, Two.get_set_same, LinePort.aligned, pendingOf, hm]; rfl
      · simp
      · simp [Node.deliverPayload]
      · simp [Node.deliverPayload]
  · intro s l pin hs lost n p
    rw [exec_signalLost hs, exec_signalReturned hs]
    refine ⟨rfl, Node.hasSignal_of_lost s l pin, fun h => ?_, fun h => ?_, fun h => ?_⟩
    · rw [Node.signalGone_disabled h]
    · rw [Node.signalGone_seeking h]
    · rw [Node.signalGone_aligned h]
      have hlines := n.dropLine_lines l .seeking .signalLost
      exact ⟨_, rfl, by rw [Node.dropLine_line, Two.get_set_same]; rfl, by simp, n.dropLine_reach l _ _,
        by simp [SwitchLine.failed], Node.dropLine_reports _ _, hlines.pins, hlines.clk, hlines.op, hlines.runTime,
        hlines.cfg, hlines.au, hlines.cc, hlines.pe, hlines.te, hlines.pc, hlines.live, hlines.staging⟩

end Sys2Proof.Machine
end

section
/-! SUPPORT. A received frame in UP, on the port and on the node (R8, R10, R11, R13 to R16, R59, R61). -/

namespace Sys2Proof.Machine

/-! ## The port through a received frame in UP (R8, R10, R11, R13) -/

/-- The pending frame before, when its check is the one that this frame's overhead carries. -/
def LinePort.confirmedBefore (p : LinePort) (ov : List Byte) : Option PendingFrame :=
  p.pendingFrame.filter fun f => (p.pendingFrame.any fun f => f.check == checkField ov) && !f.markerWrong
/-- The pending frame before was received in UP, and its check is another. -/
def LinePort.erroredBefore (p : LinePort) (ov : List Byte) : Bool :=
  p.pendingFrame.any fun f => !(p.pendingFrame.any fun f => f.check == checkField ov) && !f.markerWrong && f.inUp

/-- The port with a confirmed copy, its preset request followed (R10, R16). -/
def LinePort.confirm (p : LinePort) (ov : List Byte) : LinePort :=
  { p with confirmed := some (readOverhead ov), txPreset := (readOverhead ov).request.getD p.txPreset }
/-- The port with one more errored frame, SD and SF set at their thresholds (R13). -/
def LinePort.errored (p : LinePort) : LinePort :=
  { p with win := { p.win with errors := p.win.errors + 1 }
           sd := p.sd || decide (p.win.sdThr ≤ p.win.errors + 1), sf := p.sf || decide (p.win.sfThr ≤ p.win.errors + 1) }

/-- The port when the frame before has been judged by a frame with overhead `ov`. -/
def LinePort.judgedBefore (p : LinePort) (ov : List Byte) : LinePort :=
  let q := match p.confirmedBefore ov with
    | some f => p.beginWindow.confirm f.overhead
    | none => p.beginWindow
  if p.erroredBefore ov then q.errored else q
/-- The port when the frame itself has been taken. -/
def LinePort.taken (p : LinePort) (ov : List Byte) (pend : PendingFrame) (d : Nat) : LinePort :=
  (if pend.markerWrong && pend.inUp then (p.judgedBefore ov).errored else p.judgedBefore ov).counts pend
    ((p.confirmedBefore ov).map fun f => (readOverhead f.overhead).applied) d

section port
variable (p : LinePort) (ov : List Byte) (pend : PendingFrame) (d : Nat)

@[simp] theorem LinePort.judgedBefore_state : (p.judgedBefore ov).state = p.state := by
  unfold LinePort.judgedBefore
  rw [LinePort.beginWindow_eq]
  cases p.confirmedBefore ov <;> cases p.erroredBefore ov <;> rfl
@[simp] theorem LinePort.judgedBefore_wrongMarkers : (p.judgedBefore ov).wrongMarkers = p.wrongMarkers := by
  unfold LinePort.judgedBefore
  rw [LinePort.beginWindow_eq]
  cases p.confirmedBefore ov <;> cases p.erroredBefore ov <;> rfl
@[simp] theorem LinePort.taken_state : (p.taken ov pend d).state = p.state := by
  rw [← p.judgedBefore_state ov]; unfold LinePort.taken; split <;> rfl
theorem LinePort.taken_wrongMarkers :
    (p.taken ov pend d).wrongMarkers = if pend.markerWrong then p.wrongMarkers + 1 else 0 := by
  rw [← p.judgedBefore_wrongMarkers ov]; unfold LinePort.taken; split <;> rfl

end port

/-! ## The node through a received frame -/

section stages
variable (n : Node) (l : Line)

theorem Node.countErrored_line : (n.countErrored l).line = n.line.set l (n.line.get l).errored := by
  have hset (p : LinePort) : p.errored = { p with
      win := { p.win with errors := p.win.errors + 1 }
      sd := if !p.sd && decide (p.win.sdThr ≤ p.win.errors + 1) then true else p.sd
      sf := if !p.sf && decide (p.win.sfThr ≤ p.win.errors + 1) then true else p.sf } := by
    unfold LinePort.errored
    cases p.sd <;> cases p.sf <;> simp
  rw [hset]
  unfold Node.countErrored
  simp only [Node.modLine_line, Two.get_set_same]
  split <;> split <;> simp
@[simp] theorem Node.countErrored_cs : (n.countErrored l).cs = n.cs := by
  unfold Node.countErrored
  dsimp only
  split <;> split <;> simp

@[simp] theorem Node.noticeConfirmed_line (f : List Byte) : (n.noticeConfirmed l f).line = n.line :=
  (n.noticeConfirmed_traffic l f).line
theorem Node.nodeConflict_cs :
    (n.nodeConflict l).cs = { n.cs with conflicts := sat16 n.cs.conflicts, conflictAge := some 0 } := by
  unfold Node.nodeConflict
  dsimp only
  split <;> split <;> rfl
/-- What a confirmed notice field does to the cell switch: nothing, a conflict counted, or the field waiting on the other line,
where one that it displaces is counted as lost (R59, R61). -/
theorem Node.noticeConfirmed_cs (f : List Byte) : (n.noticeConfirmed l f).cs =
    if noticeEmpty f then n.cs
    else if (f.headD 0).toNat = n.cfg.nodeNumber then
      { n.cs with conflicts := sat16 n.cs.conflicts, conflictAge := some 0 }
    else if (n.line.get l.other).state = .disabled then n.cs
    else { n.cs with
      line := Two.set
        (if (n.cs.line.get l.other).forward.isSome
         then n.cs.line.set l { n.cs.line.get l with lost := sat16 (n.cs.line.get l).lost } else n.cs.line)
        l.other { n.cs.line.get l.other with forward := some f } } := by
  unfold Node.noticeConfirmed
  by_cases h : (n.cs.line.get l.other).forward.isSome = true
  · simp only [h, if_true, apply_ite Node.cs, Node.nodeConflict_cs, Node.modSwitch_cs, Two.get_set_other]
  · simp only [h, apply_ite Node.cs, Node.nodeConflict_cs, Node.modSwitch_cs, Bool.false_eq_true, if_false]
/-- The notice field goes on alike whatever else of the port that received it changes. -/
theorem Node.noticeConfirmed_modLine_cs (g : LinePort → LinePort) (f : List Byte) :
    ((n.modLine l g).noticeConfirmed l f).cs = (n.noticeConfirmed l f).cs := by
  rw [Node.noticeConfirmed_cs, Node.noticeConfirmed_cs, Node.modLine_line, Two.get_set_other]; rfl
@[simp] theorem Node.confirm_line (ov : List Byte) : (n.confirm l ov).line = n.line.set l ((n.line.get l).confirm ov) := by
  simp [Node.confirm, LinePort.confirm]
theorem Node.confirm_cs (ov : List Byte) : (n.confirm l ov).cs = (n.noticeConfirmed l (noticeField ov)).cs := by
  simp [Node.confirm, Node.noticeConfirmed_modLine_cs]

/-- The frame before is confirmed or counted as errored, in the window that this frame begins or goes on with. -/
def Node.judgeBefore (ov : List Byte) : Node :=
  let m := n.modLine l LinePort.beginWindow
  let c := match (n.line.get l).confirmedBefore ov with
    | some f => m.confirm l f.overhead
    | none => m
  if (n.line.get l).erroredBefore ov then c.countErrored l else c

theorem Node.judgeBefore_line (ov : List Byte) :
    (n.judgeBefore l ov).line = n.line.set l ((n.line.get l).judgedBefore ov) := by
  unfold Node.judgeBefore LinePort.judgedBefore
  cases (n.line.get l).confirmedBefore ov <;> cases (n.line.get l).erroredBefore ov <;>
    simp [Node.countErrored_line]
/-- A confirmed frame hands on its notice field; nothing else of the cell switch changes. -/
theorem Node.judgeBefore_cs (ov : List Byte) : (n.judgeBefore l ov).cs =
    match (n.line.get l).confirmedBefore ov with
    | some f => (n.noticeConfirmed l (noticeField f.overhead)).cs
    | none => n.cs := by
  unfold Node.judgeBefore
  cases (n.line.get l).confirmedBefore ov <;> cases (n.line.get l).erroredBefore ov <;>
    simp [Node.confirm_cs, Node.noticeConfirmed_modLine_cs]

/-- The frame itself is taken: a wrong marker counts as an error, the payload goes on, the port's counts advance. -/
def Node.frameTaken (ov : List Byte) (pend : PendingFrame) (cells : List CellVal) (d : Nat) : Node :=
  let j := n.judgeBefore l ov
  ((if pend.markerWrong && pend.inUp then j.countErrored l else j).deliverPayload l cells).modLine l fun p =>
    p.counts pend (((n.line.get l).confirmedBefore ov).map fun f => (readOverhead f.overhead).applied) d

section frameTaken
variable (ov : List Byte) (pend : PendingFrame) (cells : List CellVal) (d : Nat)

theorem Node.frameTaken_line :
    (n.frameTaken l ov pend cells d).line = n.line.set l ((n.line.get l).taken ov pend d) := by
  unfold Node.frameTaken LinePort.taken
  dsimp only
  split <;> simp [Node.deliverPayload, Node.countErrored_line, Node.judgeBefore_line]
theorem Node.frameTaken_cs :
    (n.frameTaken l ov pend cells d).cs = ((n.judgeBefore l ov).deliverPayload l cells).cs := by
  unfold Node.frameTaken
  dsimp only
  split <;> simp [Node.deliverPayload]

/-- In UP a frame is taken whole; the fourth wrong marker in a row then takes the port to SEEKING (R8). -/
theorem Node.takeFrame_eq : n.takeFrame l ov pend cells d =
    let m := (n.frameTaken l ov pend cells d).testTrained l
    if (m.line.get l).wrongMarkers = 4 then m.dropLine l .seeking .alignmentLost else m := rfl
theorem Node.takeFrame_up {n : Node} {l : Line} (hup : (n.line.get l).state = .up) :
    n.takeFrame l ov pend cells d =
      if ((n.line.get l).taken ov pend d).wrongMarkers = 4
      then (n.frameTaken l ov pend cells d).dropLine l .seeking .alignmentLost else n.frameTaken l ov pend cells d := by
  have htest : (n.frameTaken l ov pend cells d).testTrained l = n.frameTaken l ov pend cells d :=
    Node.testTrained_of_not (by simp [Node.frameTaken_line, hup])
  rw [Node.takeFrame_eq, htest]
  simp only [Node.frameTaken_line, Two.get_set_same]

end frameTaken

end stages

/-- A frame in UP at the boundary is taken; one without signal or elsewhere is not (R8, log 9). -/
theorem Node.lineFrame_up {n : Node} {l : Line} (hup : (n.line.get l).state = .up)
    (ht : (n.line.get l).training = .trained) (hw : (n.line.get l).win.frames < 4000)
    (hscan : ∀ c, (n.line.get l).scan = some c → c.meas.frames < c.meas.dwell) (position d : Nat) (f : LineFrame) :
    n.lineFrame l position f d =
      if n.hasSignal l = true ∧ position = (n.line.get l).boundary then
        n.takeFrame l f.overhead.toList (pendingOf f true) f.cells.toList d else n := by
  have hquiet : n.settleLine l = n := Node.settleLine_of_quiet (.inr ht) hscan (.inr hw)
  unfold Node.lineFrame
  rw [hquiet]
  cases hs : n.hasSignal l <;> simp [hs, hup, pendingOf]

section before
variable {p : LinePort} {ov : List Byte} {before : PendingFrame}

theorem LinePort.confirmedBefore_of_match (hb : p.pendingFrame = some before) (hm : before.markerWrong = false)
    (hc : before.check = checkField ov) : p.confirmedBefore ov = some before ∧ p.erroredBefore ov = false := by
  simp [LinePort.confirmedBefore, LinePort.erroredBefore, hb, hm, hc]
theorem LinePort.erroredBefore_of_mismatch (hb : p.pendingFrame = some before) (hm : before.markerWrong = false)
    (hc : before.check ≠ checkField ov) (hup : before.inUp = true) :
    p.confirmedBefore ov = none ∧ p.erroredBefore ov = true := by
  simp [LinePort.confirmedBefore, LinePort.erroredBefore, hb, hm, hc, hup]

/-- The window that a frame received in UP is counted in, its thresholds those of the settings when it is the first (R13). -/
def LinePort.window (p : LinePort) : Window :=
  if p.win.frames = 0 then { p.win with sdThr := p.sdThr, sfThr := p.sfThr } else p.win
@[simp] theorem LinePort.window_frames (p : LinePort) : p.window.frames = p.win.frames := by
  unfold LinePort.window; split <;> rfl
@[simp] theorem LinePort.window_errors (p : LinePort) : p.window.errors = p.win.errors := by
  unfold LinePort.window; split <;> rfl
theorem LinePort.beginWindow_up (hup : p.state = .up) : p.beginWindow = { p with win := p.window } := by
  unfold LinePort.beginWindow LinePort.window
  by_cases h : p.win.frames = 0
  · rw [if_pos ⟨hup, h⟩, if_pos h]
  · rw [if_neg fun w => h w.2, if_neg h]

/-- A trained port in UP with a frame of good marker pending, the counts of window and scan advanced. -/
def LinePort.received (p : LinePort) (pend : PendingFrame) (d : Nat) : LinePort :=
  { p with
    pendingFrame := some pend, wrongMarkers := 0, win := { p.window with frames := p.win.frames + 1 }
    scan := p.scan.map fun c => { c with meas := c.meas.frame d } }

section taken
variable {pend : PendingFrame} (hup : p.state = .up) (ht : p.training = .trained) (hgood : pend.markerWrong = false)
  (hin : pend.inUp = true) (d : Nat)
include hup ht hgood hin

theorem LinePort.taken_of_confirmed (hconf : p.confirmedBefore ov = some before) (herr : p.erroredBefore ov = false) :
    p.taken ov pend d = (p.received pend d).confirm before.overhead := by
  simp [LinePort.taken, LinePort.judgedBefore, LinePort.beginWindow_up hup, hconf, herr, LinePort.counts, LinePort.received,
    LinePort.confirm, hgood, hin, ht, Training.frame]
theorem LinePort.taken_of_errored (hconf : p.confirmedBefore ov = none) (herr : p.erroredBefore ov = true) :
    p.taken ov pend d = (p.received pend d).errored := by
  simp [LinePort.taken, LinePort.judgedBefore, LinePort.beginWindow_up hup, hconf, herr, LinePort.counts, LinePort.received,
    LinePort.errored, hgood, hin, ht, Training.frame]

end taken

/-- The frame that confirms the one before hands on that one's notice field (R10, R59). -/
theorem Node.frameTaken_cs_of_confirmed {n : Node} {l : Line} (h : (n.line.get l).confirmedBefore ov = some before)
    (pend : PendingFrame) (cells : List CellVal) (d : Nat) : (n.frameTaken l ov pend cells d).cs =
      ((n.noticeConfirmed l (noticeField before.overhead)).deliverPayload l cells).cs := by
  rw [Node.frameTaken_cs, Node.deliverPayload, Node.deliverPayload, Node.modSwitch_cs, Node.modSwitch_cs,
    Node.judgeBefore_cs, h]

end before

/-- Settles O28: in UP a received frame is `Node.frameTaken`, whose port is `LinePort.taken`; the fourth wrong marker in a row drops
the line after it. -/
theorem frameConfirmsOrFailsTheOneBefore : Obligations.FrameConfirmsOrFailsTheOneBefore := by
  intro s l position d f hs n p frame ov wrong win taken hup ht hw hscan
  rw [exec_lineFrameReceived l hs, Node.lineFrame_up hup ht hw hscan]
  refine ⟨fun h => by rw [if_neg (by rcases h with h | h <;> simp [h, p])], fun hsignal hpos => ?_⟩
  have hlines := n.takeFrame_lines l ov (pendingOf f true) f.cells.toList d
  rw [if_pos ⟨hsignal, hpos⟩]
  refine ⟨_, rfl, ?_, hlines.pins, hlines.clk, hlines.op, hlines.runTime, hlines.cfg, hlines.au, hlines.cc, hlines.pe,
    hlines.te, hlines.pc, hlines.live, hlines.staging, fun before hb hbm hgood => ?_, fun hbad hthree => ?_⟩
  · rw [Node.takeFrame_up _ _ _ _ hup]
    split <;> simp [Node.frameTaken_line]
  · have hstay : (p.taken ov (pendingOf f true) d).wrongMarkers ≠ 4 := by
      have : (pendingOf f true).markerWrong = false := hgood
      rw [LinePort.taken_wrongMarkers, this]; simp
    rw [Node.takeFrame_up _ _ _ _ hup, if_neg hstay, Node.frameTaken_line, Two.get_set_same]
    refine ⟨by simp [Node.frameTaken_cs, Node.deliverPayload], fun hc => ?_, fun hc hin => ?_⟩
    · obtain ⟨hconf, herr⟩ := LinePort.confirmedBefore_of_match hb hbm hc
      refine ⟨LinePort.taken_of_confirmed hup ht hgood rfl d hconf herr, ?_⟩
      rw [Node.frameTaken_cs_of_confirmed hconf]
      simp [Node.deliverPayload, noticeField]
    · obtain ⟨hconf, herr⟩ := LinePort.erroredBefore_of_mismatch hb hbm hc hin
      rw [LinePort.taken_of_errored hup ht hgood rfl d hconf herr]
      simp only [LinePort.errored, LinePort.received, LinePort.window_errors]; rfl
  · have hfour : (p.taken ov (pendingOf f true) d).wrongMarkers = 4 := by
      have : (pendingOf f true).markerWrong = true := hbad
      rw [LinePort.taken_wrongMarkers, this, hthree]; rfl
    rw [Node.takeFrame_up _ _ _ _ hup, if_pos hfour]
    exact ⟨by simp [LinePort.letGo], by simp [LinePort.letGo], Node.dropLine_reach _ _ _ _⟩

end Sys2Proof.Machine
end

section
/-! SUPPORT. A line enabled or disabled by LINE_SET (R5, R6, R59, R60). -/

namespace Sys2Proof.Machine

/-! ## A line that is disabled (R6, R59, R60) -/

/-- The waiting list with the notice under way back at its head, unless one of its id waits (R60). -/
def SwitchLine.requeued (w : SwitchLine) : List Notice :=
  match w.sending with
  | some x => if w.waiting.any (·.id == x.notice.id) then w.waiting else x.notice :: w.waiting
  | none => w.waiting

theorem SwitchLine.requeued_none {w : SwitchLine} (h : w.sending = none) : w.requeued = w.waiting := by
  simp [SwitchLine.requeued, h]
theorem SwitchLine.requeued_some {w : SwitchLine} {x : NoticeSending} (h : w.sending = some x) :
    w.requeued = if (∃ y ∈ w.waiting, y.id = x.notice.id) then w.waiting else x.notice :: w.waiting := by
  simp [SwitchLine.requeued, h]

section disable
variable (n : Node) (l : Line)

@[simp] theorem Node.noticeDisabled_line : (n.noticeDisabled l).line = n.line := (n.noticeDisabled_traffic l).line
/-- A waiting forwarded field is counted as lost on the other line; the line's own notice goes back to its queue. -/
theorem Node.noticeDisabled_cs : (n.noticeDisabled l).cs = { n.cs with
    line := Two.set
      (if (n.cs.line.get l).forward.isSome
       then n.cs.line.set l.other { n.cs.line.get l.other with lost := sat16 (n.cs.line.get l.other).lost } else n.cs.line)
      l { n.cs.line.get l with forward := none, sending := none, waiting := (n.cs.line.get l).requeued } } := by
  unfold Node.noticeDisabled
  by_cases h : (n.cs.line.get l).forward.isSome = true
  · cases hs : (n.cs.line.get l).sending <;> simp [h, SwitchLine.requeued, hs]
  · cases hs : (n.cs.line.get l).sending <;> simp [h, SwitchLine.requeued, hs]

theorem Node.disableLine_line : (n.disableLine l).line =
    n.line.set l (LinePort.letGo { n.line.get l with txCheck := none } .disabled) := by
  simp [Node.disableLine]
theorem Node.disableLine_reach : ((n.disableLine l).pathOf l.side).reach = false := Node.dropLine_reach _ _ _ _
/-- What the cell switch holds of the disabled line. -/
theorem Node.disableLine_switch : (n.disableLine l).cs.line.get l = SwitchLine.failed
    { n.cs.line.get l with forward := none, sending := none, waiting := (n.cs.line.get l).requeued } := by
  simp [Node.disableLine, Node.noticeDisabled_cs]
theorem Node.disableLine_switch_other : (n.disableLine l).cs.line.get l.other =
    if (n.cs.line.get l).forward.isSome
    then { n.cs.line.get l.other with lost := sat16 (n.cs.line.get l.other).lost } else n.cs.line.get l.other := by
  simp only [Node.disableLine, Node.dropLine_cs, Node.modLine_cs, Node.noticeDisabled_cs, Two.get_set_other]
  split <;> simp

end disable

/-! ## The enabled field (R6) -/

section enableAsSet
variable {n : Node} {l : Line}

theorem Node.enableAsSet_stays (h : n.op = .config ∨ ((n.line.get l).enabled = true ∧ (n.line.get l).state ≠ .disabled) ∨
    ((n.line.get l).enabled = false ∧ (n.line.get l).state = .disabled)) : n.enableAsSet l = n := by
  unfold Node.enableAsSet
  rcases h with h | ⟨he, hs⟩ | ⟨he, hs⟩
  · simp [h]
  · simp [he, hs]
  · simp [he, hs]
theorem Node.enableAsSet_enables (hop : n.op = .running) (he : (n.line.get l).enabled = true)
    (hs : (n.line.get l).state = .disabled) : n.enableAsSet l = n.enableLine l := by
  simp [Node.enableAsSet, hop, he, hs]
theorem Node.enableAsSet_disables (hop : n.op = .running) (he : (n.line.get l).enabled = false)
    (hs : (n.line.get l).state ≠ .disabled) : n.enableAsSet l = n.disableLine l := by
  simp [Node.enableAsSet, hop, he, hs]

end enableAsSet

theorem Node.enableLine_eq (n : Node) (l : Line) : n.enableLine l =
    ((n.setLine l { n.line.get l with state := .seeking, goodMarkers := 0 }).modSwitch l SwitchLine.failed).report
      (.lineEvent l .disabled .seeking .enabled (n.line.get l).sd (n.line.get l).sf) := by
  simp [Node.enableLine, Node.lineEvent, Node.lineFails, Node.modLine]; rfl

/-! ## LINE_SET (R5) -/

/-- The fields of a LINE_SET for line `l` are in range; that SF's threshold is above SD's is another check. -/
structure LineSetInRange (b : List Byte) (l : Line) (on : Bool) : Prop where
  length : b.length = 11
  line : lineOf (f1 b 0) = some l
  enabled : boolOf (f1 b 1) = some on
  sd : 1 ≤ f2 b 2 ∧ f2 b 2 ≤ 4000
  sf : 2 ≤ f2 b 4 ∧ f2 b 4 ≤ 4000
  dwell : 100 ≤ f2 b 6 ∧ f2 b 6 ≤ 4000
  minutes : f2 b 9 ≤ 1440

theorem eq_of_boolOf {x : Nat} {on : Bool} (h : boolOf x = some on) : (x == 1) = on := by
  unfold boolOf at h
  split at h <;> simp_all

theorem outside_eq_false {x low high : Nat} (hlow : low ≤ x) (hhigh : x ≤ high) : outside x low high = false := by
  simp [outside, hlow, hhigh]

section ownLineSet
variable {b : List Byte} {l : Line} {on : Bool} (h : LineSetInRange b l on) (k : Link) (n : Node)
include h

theorem ownLineSet_ok (ht : f2 b 2 < f2 b 4) : ownLineSet k b n =
    { node := (n.setLine l ((n.line.get l).configure b)).enableAsSet l, reply := okReply [] } := by
  unfold ownLineSet
  simp only [h.line, Option.getD_some]
  exact checked_passed (by
    simp [commonChecks, bad, h.length, h.enabled, outside_eq_false h.sd.1 h.sd.2, outside_eq_false h.sf.1 h.sf.2,
      outside_eq_false h.dwell.1 h.dwell.2, outside_eq_false (Nat.zero_le _) h.minutes, ht])
theorem ownLineSet_badThreshold (ht : f2 b 4 ≤ f2 b 2) : ownLineSet k b n = { node := n, reply := badField 3 } := by
  unfold ownLineSet
  exact checked_failed (by
    simp [firstRefusal, commonChecks, bad, h.length, h.line, h.enabled, outside_eq_false h.sd.1 h.sd.2,
      outside_eq_false h.sf.1 h.sf.2, outside_eq_false h.dwell.1 h.dwell.2, outside_eq_false (Nat.zero_le _) h.minutes, ht])

theorem LineSetInRange.configure_eq (p : LinePort) : p.configure b = { p with
    enabled := on, sdThr := f2 b 2, sfThr := f2 b 4, dwell := f2 b 6, allowance := f1 b 8, minutes := f2 b 9
    periodic := if p.state = .up ∧ f2 b 9 ≠ p.minutes then (if f2 b 9 = 0 then none else some (240000 * f2 b 9))
      else p.periodic } := by
  rw [← eq_of_boolOf h.enabled]; rfl

end ownLineSet

/-- Settles O23: the checks pass or the last one fails; an accepted request configures the port, and `Node.enableAsSet` then leaves,
enables or disables it. -/
theorem lineSetConfiguresItsPort : Obligations.LineSetConfiguresItsPort := by
  intro s i r l on hasks hk n b p q hlen hl hon hsd1 hsd2 hsf1 hsf2 hdw1 hdw2 hmin
  have hrange : LineSetInRange b l on := ⟨hlen, hl, hon, ⟨hsd1, hsd2⟩, ⟨hsf1, hsf2⟩, ⟨hdw1, hdw2⟩, hmin⟩
  have hq : p.configure b = q := hrange.configure_eq p
  let configured : Node := n.setLine l q
  have hget : configured.line.get l = q := Two.get_set_same _ _ _
  refine ⟨fun ht => ?_, fun ht => handle_refused hasks (isKind_of_eq hk) (ownLineSet_badThreshold hrange _ _ ht)⟩
  have hexec (m : Node) (hm : configured.enableAsSet l = m) : exec .lineSet s = .next (s.replied i r m (okBytes [])) :=
    handle_ok hasks (isKind_of_eq hk) (by rw [ownLineSet_ok hrange _ _ ht, ← hm, hq])
  refine ⟨fun hstay => ?_, fun hop hon' hdis => ?_, fun hop hoff hdis => ?_⟩
  · exact hexec _ (Node.enableAsSet_stays (by rw [hget]; exact hstay))
  · refine hexec _ ?_
    rw [Node.enableAsSet_enables (n := configured) hop (by rw [hget]; exact hon') (by rw [hget]; exact hdis),
      Node.enableLine_eq, hget]
    simp only [configured, Node.setLine, Two.set_set]; rfl
  · have hlines := configured.disableLine_lines l
    refine ⟨_, hexec _ (Node.enableAsSet_disables hop (by rw [hget]; exact hoff) (by rw [hget]; exact hdis)), ?_, ?_,
      configured.disableLine_reach l, ?_, ?_, ?_, ⟨?_, fun hnone => ?_, fun x hx => ?_⟩, hlines.pins, hlines.clk, hlines.op,
      hlines.runTime, hlines.cfg, hlines.au, hlines.cc, hlines.pe, hlines.te, hlines.pc, hlines.live, hlines.staging⟩
    · rw [Node.disableLine_line, Two.get_set_same, hget]; rfl
    · rw [Node.disableLine_line, Two.get_set_other]; exact Two.get_set_other _ _ _
    · rw [Node.disableLine_switch]; rfl
    · rw [Node.disableLine_switch]; rfl
    · rw [Node.disableLine_switch]; rfl
    · rw [Node.disableLine_switch_other]; exact apply_ite SwitchLine.lost _ _ _
    · rw [Node.disableLine_switch]; exact SwitchLine.requeued_none hnone
    · rw [Node.disableLine_switch]; exact SwitchLine.requeued_some hx

end Sys2Proof.Machine
end

section
/-! SUPPORT. The status requests, owner by owner (R198). -/

namespace Sys2Proof.Machine

/-! ## Requests of one kind told apart by a form byte (log 20) -/

theorem isKindWith_of_eq {k v : Byte} {off : Nat} {r : Request} (h : r.kind = k) (hv : r.body[off]? = some v) :
    isKindWith k off v r = true := by simp [isKindWith, h, hv]
theorem f1_of_getElem? {b : List Byte} {v : Byte} (h : b[0]? = some v) : f1 b 0 = v.toNat := by
  cases b with
  | nil => simp at h
  | cons x b =>
    obtain rfl : x = v := by simpa using h
    simp [f1, numAt, natOf]
/-- A body whose form field is 0 is not of the form 01h. -/
theorem isKindBut_of_form_zero {k : Byte} {r : Request} (h : r.kind = k) (hform : f1 r.body 0 = 0) :
    isKindBut k 0 [0x01#8] r = true := by
  have hne : r.body[0]? ≠ some 0x01#8 := fun hv => by
    rw [f1_of_getElem? hv] at hform; exact absurd hform (by decide)
  simp [isKindBut, h, hne]

/-! ## Checks passed -/

/-- A kind without fields, taken in any operating state, passes its checks with an empty body. -/
theorem commonChecks_passed {n : Node} {b : List Byte} {size : Nat} (h : b.length = size) :
    ∀ c ∈ commonChecks n false b size, c.1 = false := by
  simp [commonChecks, h]
theorem formChecks_passed {b : List Byte} (hlen : b.length = 2) (hform : f1 b 0 ≤ 1) :
    ∀ c ∈ formChecks b 2, c.1 = false := by
  have hne : b ≠ [] := by rintro rfl; simp at hlen
  simp [formChecks, hlen, hne, outside_eq_false (Nat.zero_le _) hform]

/-- An owner whose checks pass and then those after them do too accepts. -/
theorem checked_append {n : Node} {common more : List (Bool × Reply)} {accept : Answer} (hf : ∀ c ∈ common, c.1 = false)
    (hm : ∀ c ∈ more, c.1 = false) : checked n (common ++ more) accept = accept :=
  checked_passed fun c hc => (List.mem_append.1 hc).elim (hf c) (hm c)

/-! ## What each owner of a status request answers -/

section owners
variable {n : Node} {b : List Byte} (k : Link)

theorem ownLineStatus_ok {l : Line} (hlen : b.length = 1) (hl : lineOf (f1 b 0) = some l) :
    ownLineStatus k b n = { node := n, reply := okReply (lineStatusFields (n.line.get l)) } := by
  refine (checked_append (commonChecks_passed hlen) ?_).trans ?_
  · simp [bad, hl]
  · rw [hl]; rfl
theorem ownMapStatus_ok (hlen : b.length = 3) (h1 : 1 ≤ f1 b 2) (h128 : f1 b 2 ≤ 128) (h936 : f2 b 0 + f1 b 2 ≤ 936) :
    ownMapStatus k b n = { node := n, reply := okReply (mapStatusFields n (f2 b 0) (f1 b 2)) } := by
  refine checked_append (commonChecks_passed hlen) ?_
  have hfirst : ¬ Config.cellCount ≤ f2 b 0 := Nat.not_le.2 (show f2 b 0 < 936 by omega)
  have hlast : ¬ Config.cellCount < f2 b 0 + f1 b 2 := Nat.not_lt.2 h936
  simp [hfirst, hlast, outside_eq_false h1 h128]
theorem ownServiceStatusOne_ok {v : Service} (hlen : b.length = 2) (hform : f1 b 0 = 0) (hid : f1 b 1 ≤ 63)
    (hv : n.svc (f1 b 1) = some v) :
    ownServiceStatusOne k b n = { node := n, reply := okReply (serviceFields n v) } := by
  refine (checked_append (formChecks_passed hlen (by omega)) ?_).trans ?_
  · simp [hv, hid]
  · rw [hv]
theorem ownServiceStatusSummary_ok (hlen : b.length = 2) (hform : b[0]? = some 0x01#8) :
    ownServiceStatusSummary k b n = { node := n, reply := okReply (summaryFields n) } :=
  checked_passed (formChecks_passed hlen (f1_of_getElem? hform).le)
theorem ownCallStatus_ok (hlen : b.length = 1) (hp : f1 b 0 ≤ 7) :
    ownCallStatus k b n = { node := n, reply := okReply (callStatusFields n (fin8 (f1 b 0))) } :=
  checked_append (commonChecks_passed hlen) (by simpa using hp)
theorem ownPortStatusPort_ok (hlen : b.length = 2) (hform : f1 b 0 = 0) (hp : f1 b 1 ≤ 3) :
    ownPortStatusPort k b n = { node := n, reply := okReply (portFields n (fin4 (f1 b 1))) } :=
  checked_append (formChecks_passed hlen (by omega)) (by simpa using hp)
theorem ownPortStatusService_ok {v : Service} {w : PeService} (hlen : b.length = 2) (hform : b[0]? = some 0x01#8)
    (hid : f1 b 1 ≤ 55) (hv : n.svc (f1 b 1) = some v) (hw : n.peOf (f1 b 1) = some w) :
    ownPortStatusService k b n = { node := n, reply := okReply (peServiceFields v w) } := by
  refine (checked_append (formChecks_passed hlen (f1_of_getElem? hform).le) ?_).trans ?_
  · have h63 : f1 b 1 ≤ 63 := by omega
    simp [hid, h63, hv]
  · rw [hv, hw]
theorem ownTransferStatusOne_ok {x : Transfer} (hlen : b.length = 2) (hform : f1 b 0 = 0) (ht : f1 b 1 ≤ 3)
    (hx : n.xfer (fin4 (f1 b 1)) = some x) :
    ownTransferStatusOne k b n = { node := n, reply := okReply (transferFields x) } := by
  refine (checked_append (formChecks_passed hlen (by omega)) ?_).trans ?_
  · simp [ht, hx]
  · rw [hx]
theorem ownTransferStatusAll_ok (hlen : b.length = 2) (hform : b[0]? = some 0x01#8) : ownTransferStatusAll k b n =
    { node := n, reply := okReply (be1 n.freeBlocks.length ++ be4 n.te.malformed ++ be4 n.te.unmatched
        ++ n.te.recs.toList.flatMap transferSummary) } :=
  checked_passed (formChecks_passed hlen (f1_of_getElem? hform).le)
theorem ownStationRead_ok (hlen : b.length = 1) (hp : f1 b 0 ≤ 7) :
    ownStationRead k b n = { node := n, reply := okReply (stationFields n (fin8 (f1 b 0))) } :=
  checked_append (commonChecks_passed hlen) (by simpa using hp)

end owners

/-- Settles O19: each owner answers with its fields and the node as it stands, and `handle_ok` makes the step of it. -/
theorem statusRequestsAnswerAndChangeNothing : Obligations.StatusRequestsAnswerAndChangeNothing := by
  intro s i r hasks n b answers
  have passed (hb : b = []) : ∀ c ∈ commonChecks n false b 0, c.1 = false := commonChecks_passed (congrArg List.length hb)
  refine ⟨fun hk hb => ?_, fun hk hb => ?_, fun l hk hlen hl => ?_, fun hk hb => ?_, fun hk hlen h1 h128 h936 => ?_,
    fun v hk hlen hform hid hv => ?_, fun hk hlen hform => ?_, fun hk hb => ?_, fun hk hlen hp => ?_,
    fun hk hlen hform hp => ?_, fun v w hk hlen hform hid hv hw => ?_, fun x hk hlen hform ht hx => ?_,
    fun hk hlen hform => ?_, fun hk hlen hp => ?_⟩
  · exact handle_ok hasks (isKind_of_eq hk) (checked_passed (passed hb))
  · exact handle_ok hasks (isKind_of_eq hk) (checked_passed (passed hb))
  · exact handle_ok hasks (isKind_of_eq hk) (ownLineStatus_ok _ hlen hl)
  · exact handle_ok hasks (isKind_of_eq hk) (checked_passed (passed hb))
  · exact handle_ok hasks (isKind_of_eq hk) (ownMapStatus_ok _ hlen h1 h128 h936)
  · exact handle_ok hasks (isKindBut_of_form_zero hk hform) (ownServiceStatusOne_ok _ hlen hform hid hv)
  · exact handle_ok hasks (isKindWith_of_eq hk hform) (ownServiceStatusSummary_ok _ hlen hform)
  · exact handle_ok hasks (isKind_of_eq hk) (checked_passed (passed hb))
  · exact handle_ok hasks (isKind_of_eq hk) (ownCallStatus_ok _ hlen hp)
  · exact handle_ok hasks (isKindBut_of_form_zero hk hform) (ownPortStatusPort_ok _ hlen hform hp)
  · exact handle_ok hasks (isKindWith_of_eq hk hform) (ownPortStatusService_ok _ hlen hform hid hv hw)
  · exact handle_ok hasks (isKindBut_of_form_zero hk hform) (ownTransferStatusOne_ok _ hlen hform ht hx)
  · exact handle_ok hasks (isKindWith_of_eq hk hform) (ownTransferStatusAll_ok _ hlen hform)
  · exact handle_ok hasks (isKind_of_eq hk) (ownStationRead_ok _ hlen hp)

end Sys2Proof.Machine
end

section
/-! SUPPORT. The timing source: what keeps it, what fails it and what reverts it (R40 to R42). -/

namespace Sys2Proof.Machine

/-! ## Selection (R40) -/

@[simp] theorem Node.switchTiming_timing (n : Node) (next : TimingSource) (c : TimingCause) :
    (n.switchTiming next c).timing = { n.timing with source := next } := rfl

section select
variable {n : Node} {l : Line}

/-- A selected line is judged for itself, whatever the preference. -/
theorem Node.selectTiming_of_line (h : n.timing.source = lineSource l) : n.selectTiming = n.timingFailed l := by
  unfold Node.selectTiming
  cases l <;> rw [h] <;> rfl
/-- LOCAL gives way to the first line that qualifies, the preferred one first. -/
theorem Node.selectTiming_of_local (h : n.timing.source = .local) : n.selectTiming =
    if (n.line.get n.cfg.pref.line).qualifies then n.switchTiming (lineSource n.cfg.pref.line) .lineQualified
    else if (n.line.get n.cfg.pref.line.other).qualifies then
      n.switchTiming (lineSource n.cfg.pref.line.other) .lineQualified
    else n := by
  unfold Node.selectTiming
  rw [h]
theorem Node.timingFailed_of_qualifies (h : (n.line.get l).qualifies = true) : n.timingFailed l = n := if_pos h
theorem Node.timingFailed_to_other (h : (n.line.get l).qualifies = false)
    (ho : (n.line.get l.other).qualifies = true) : n.timingFailed l = n.switchTiming (lineSource l.other) .sourceFailed := by
  simp [Node.timingFailed, h, ho]
theorem Node.timingFailed_to_local (h : (n.line.get l).qualifies = false)
    (ho : (n.line.get l.other).qualifies = false) : n.timingFailed l = n.switchTiming .local .sourceFailed := by
  simp [Node.timingFailed, h, ho]

end select

/-! ## The revert (R41) -/

/-- The source is the less preferred line, and the preferred one, qualifying, has been clean for 40,000 frames. -/
def Node.RevertDue (n : Node) : Prop :=
  n.timing.source = lineSource n.cfg.pref.line.other ∧ (n.line.get n.cfg.pref.line).qualifies = true ∧
    40000 ≤ n.timing.clean.get n.cfg.pref.line

section revert
variable {n : Node}

theorem Node.timingRevert_of_due (h : n.RevertDue) :
    n.timingRevert = n.switchTiming (lineSource n.cfg.pref.line) .reverted := by
  obtain ⟨hsource, hqualifies, hclean⟩ := h
  exact if_pos (by simp [hsource, hqualifies, hclean])
theorem Node.timingRevert_of_not_due (h : ¬ n.RevertDue) : n.timingRevert = n :=
  if_neg (by simpa only [Node.RevertDue, Bool.and_eq_true, decide_eq_true_eq, and_assoc] using h)
theorem Node.timingRevert_path (n : Node) : n.timingRevert.path = n.path := by
  by_cases h : n.RevertDue
  · rw [Node.timingRevert_of_due h]; rfl
  · rw [Node.timingRevert_of_not_due h]

end revert

theorem exec_timingRevert {s : State} (h : s.awake) : exec .timingRevert s = .next (s.became s.node.timingRevert) :=
  onNode_awake s Node.timingRevert h

/-- Settles O32: a revert that is due switches the source and one that is not due does nothing; a selection turns on the
source, a line (`Node.timingFailed`) or LOCAL. -/
theorem timingFollowsTheQualifyingLine : Obligations.TimingFollowsTheQualifyingLine := by
  intro s hs n pref clean switched reverts
  rw [exec_timingRevert hs]
  refine ⟨fun hdue => ?_, fun hnot => ?_, fun l hl => ?_, fun hlocal => ?_⟩
  · rw [Node.timingRevert_of_due hdue]; rfl
  · rw [Node.timingRevert_of_not_due hnot]
  · rw [Node.selectTiming_of_line hl]
    exact ⟨Node.timingFailed_of_qualifies, Node.timingFailed_to_other, Node.timingFailed_to_local⟩
  · rw [Node.selectTiming_of_local hlocal]
    refine ⟨fun hp => if_pos hp, fun hp ho => ?_, fun hu hd => ?_⟩
    · rw [if_neg (Bool.not_eq_true _ ▸ hp), if_pos ho]; rfl
    · have none_qualifies : ∀ l, (n.line.get l).qualifies = false
        | .u => hu
        | .d => hd
      simp [n, none_qualifies]

end Sys2Proof.Machine
end

section
/-! SUPPORT. A side's entry to REACHABLE and to LOST with its signals and reports, and the rise and fall of reach-present
(R28, R32 to R39). -/

namespace Sys2Proof.Machine

/-! ## Signals and reports of a change of state (R38, R39) -/

/-- Path signals given to the three receivers, behind those not yet taken. -/
def Signals.give (g : Signals) (l : List PathSignal) : Signals := ⟨g.au ++ l, g.cc ++ l, g.pe ++ l⟩

theorem Signals.mem_give {x : PathSignal} {l : List PathSignal} (g : Signals) (h : x ∈ l) :
    x ∈ (g.give l).au ∧ x ∈ (g.give l).cc ∧ x ∈ (g.give l).pe :=
  ⟨List.mem_append_right _ h, List.mem_append_right _ h, List.mem_append_right _ h⟩
theorem Signals.give_give (g : Signals) (l l' : List PathSignal) : (g.give l).give l' = g.give (l ++ l') := by
  simp [Signals.give]

@[simp] theorem Node.giveSignal_sig (n : Node) (g : PathSignal) : (n.giveSignal g).sig = n.sig.give [g] := rfl

/-- The PATH_EVENT of a side that passes to the state and marks of `p` (R39). -/
def Node.pathReport (n : Node) (x : Side) (p : PathSide) (c : PathCause) : Node :=
  n.report (.pathEvent x (n.pathOf x).state p.state c p.reach (n.hopOf x) p.initial p.forced)

theorem Node.pathReport_eq {n : Node} {x : Side} {old : PathState} (h : (n.pathOf x).state = old) (p : PathSide)
    (c : PathCause) :
    n.pathReport x p c = n.report (.pathEvent x old p.state c p.reach (n.hopOf x) p.initial p.forced) := by
  rw [← h]; rfl

theorem Node.usable_of_holdOff {n : Node} {x : Side} (h : (n.pathOf x).state = .holdOff) : n.usable x = true := by
  simp [Node.usable, h]
theorem Node.unusable_of_lost {n : Node} {x : Side} (h : (n.pathOf x).state = .lost) : n.usable x = false := by
  simp [Node.usable, h]
theorem Node.unusable_of_waitRestore {n : Node} {x : Side} (h : (n.pathOf x).state = .waitRestore) :
    n.usable x = false := by
  simp [Node.usable, h]

/-! ## Entry to REACHABLE (R32, R34, R35) -/

/-- A side as REACHABLE is entered. -/
def PathSide.reached (p : PathSide) : PathSide := { p with state := .reachable, initial := false, timer := 0 }

section enterReachable
variable (n : Node) (x : Side) (p : PathSide) (c : PathCause)

theorem Node.enterReachable_reports : (n.enterReachable x p c).reports = (n.pathReport x p.reached c).reports := by
  unfold Node.enterReachable; dsimp only; split <;> rfl
theorem Node.enterReachable_timing : (n.enterReachable x p c).timing = n.timing := by
  unfold Node.enterReachable; dsimp only; split <;> rfl
/-- A side that was usable is restored without a signal. -/
theorem Node.enterReachable_sig_of_usable {n : Node} {x : Side} (h : n.usable x = true) :
    (n.enterReachable x p c).sig = n.sig := by
  simp [Node.enterReachable, h]
theorem Node.enterReachable_sig_of_unusable {n : Node} {x : Side} (h : n.usable x = false) :
    (n.enterReachable x p c).sig = n.sig.give [.restored x] := by
  simp [Node.enterReachable, h]

end enterReachable

/-! ## Entry to LOST (R33, R35, R37) -/

/-- A side as LOST is entered. -/
def PathSide.gone (p : PathSide) : PathSide := { p with state := .lost, timer := 0 }

/-- The side itself in LOST and path lost given, before the other side is looked at. -/
def Node.lose (n : Node) (x : Side) (p : PathSide) (c : PathCause) : Node := (n.pathTo x p.gone c).giveSignal (.lost x)

section enterLost
variable {n : Node} {x : Side} (p : PathSide) (c : PathCause)

theorem Node.lose_other : (n.lose x p c).pathOf x.other = n.pathOf x.other := by simp [Node.lose]
theorem Node.enterLost_of_waiting (h : (n.pathOf x.other).state = .waitRestore) : n.enterLost x p c =
    (n.lose x p c).enterReachable x.other (n.pathOf x.other) .otherSideLost := by
  have hother := Node.lose_other (n := n) (x := x) p c
  change (if ((n.lose x p c).pathOf x.other).state = .waitRestore then _ else _) = _
  rw [hother, if_pos h]
  exact congrArg (fun q => (n.lose x p c).enterReachable x.other q .otherSideLost) hother
theorem Node.enterLost_of_not_waiting (h : (n.pathOf x.other).state ≠ .waitRestore) : n.enterLost x p c = n.lose x p c :=
  if_neg (by rw [← Node.lose_other p c] at h; exact h)
theorem Node.enterLost_sig_of_waiting (h : (n.pathOf x.other).state = .waitRestore) :
    (n.enterLost x p c).sig = n.sig.give [.lost x, .restored x.other] := by
  have hunusable : (n.lose x p c).usable x.other = false := Node.unusable_of_waitRestore (by rw [Node.lose_other]; exact h)
  rw [Node.enterLost_of_waiting p c h, Node.enterReachable_sig_of_unusable _ _ hunusable]
  exact Signals.give_give _ _ _
theorem Node.enterLost_sig_of_not_waiting (h : (n.pathOf x.other).state ≠ .waitRestore) :
    (n.enterLost x p c).sig = n.sig.give [.lost x] := by
  rw [Node.enterLost_of_not_waiting p c h]; rfl

variable (n x)
/-- Path lost is given to all three receivers, whatever the other side's state. -/
theorem Node.lost_mem_enterLost : PathSignal.lost x ∈ (n.enterLost x p c).sig.au ∧
    PathSignal.lost x ∈ (n.enterLost x p c).sig.cc ∧ PathSignal.lost x ∈ (n.enterLost x p c).sig.pe := by
  by_cases h : (n.pathOf x.other).state = .waitRestore
  · rw [Node.enterLost_sig_of_waiting p c h]; exact Signals.mem_give _ (by simp)
  · rw [Node.enterLost_sig_of_not_waiting p c h]; exact Signals.mem_give _ (by simp)
/-- The side's own PATH_EVENT is the first report; that of the other side's restoration follows. -/
theorem Node.enterLost_reports : (n.pathReport x p.gone c).reports.queue <+: (n.enterLost x p c).reports.queue := by
  by_cases h : (n.pathOf x.other).state = .waitRestore
  · rw [Node.enterLost_of_waiting p c h]
    exact ((n.lose x p c).enterReachable_paths _ _ _).grows
  · rw [Node.enterLost_of_not_waiting p c h]; exact List.prefix_rfl
theorem Node.enterLost_timing : (n.enterLost x p c).timing = n.timing := by
  by_cases h : (n.pathOf x.other).state = .waitRestore
  · rw [Node.enterLost_of_waiting p c h, Node.enterReachable_timing]; rfl
  · rw [Node.enterLost_of_not_waiting p c h]; rfl

end enterLost

/-! ## Reach-present rises and falls (R28, R32 to R35) -/

section formReach
variable {n : Node} {x : Side}

theorem Node.formReach_unchanged (h : (n.line.get x.line).reaches n.cfg.hopLimit = (n.pathOf x).reach) :
    n.formReach x = n := if_pos h
theorem Node.formReach_rises (hnow : (n.line.get x.line).reaches n.cfg.hopLimit = true)
    (hwas : (n.pathOf x).reach = false) : n.formReach x = n.reachRises x { n.pathOf x with reach := true } := by
  simp [Node.formReach, hnow, hwas]
theorem Node.formReach_falls (hnow : (n.line.get x.line).reaches n.cfg.hopLimit = false)
    (hwas : (n.pathOf x).reach = true) : n.formReach x = n.reachFalls x { n.pathOf x with reach := false } := by
  simp [Node.formReach, hnow, hwas]

variable {p : PathSide}
theorem Node.reachRises_forced (h : p.state = .lost) (hf : p.forced = true) : n.reachRises x p = n.setPath x p := by
  simp [Node.reachRises, h, hf]
theorem Node.reachRises_initial (h : p.state = .lost) (hf : p.forced = false) (hi : p.initial = true) :
    n.reachRises x p = n.enterReachable x p .initial := by
  simp [Node.reachRises, h, hf, hi]
theorem Node.reachRises_waits (h : p.state = .lost) (hf : p.forced = false) (hi : p.initial = false) :
    n.reachRises x p = n.pathTo x { p with state := .waitRestore, timer := 4000 * n.cfg.wtr } .reachReturned := by
  simp [Node.reachRises, h, hf, hi]
theorem Node.reachRises_holdOff (h : p.state = .holdOff) : n.reachRises x p = n.enterReachable x p .holdOffCancelled := by
  simp [Node.reachRises, h]
theorem Node.reachRises_waitRestore (h : p.state = .waitRestore) : n.reachRises x p = n.setPath x p := by
  simp [Node.reachRises, h]
theorem Node.reachFalls_at_once (h : p.state = .reachable) (hz : n.cfg.holdOff = 0) :
    n.reachFalls x p = n.enterLost x p .reachLost := by
  simp [Node.reachFalls, h, hz]
theorem Node.reachFalls_holds_off (h : p.state = .reachable) (hz : n.cfg.holdOff ≠ 0) :
    n.reachFalls x p = n.pathTo x { p with state := .holdOff, timer := 4 * n.cfg.holdOff } .reachLost := by
  simp [Node.reachFalls, h, hz]
theorem Node.reachFalls_waitRestore (h : p.state = .waitRestore) :
    n.reachFalls x p = n.enterLost x p .reachFailedInWtr := by
  simp [Node.reachFalls, h]
theorem Node.reachFalls_holdOff (h : p.state = .holdOff) : n.reachFalls x p = n.setPath x p := by
  simp [Node.reachFalls, h]
theorem Node.reachFalls_lost (h : p.state = .lost) : n.reachFalls x p = n.setPath x p := by
  simp [Node.reachFalls, h]

end formReach

/-- Settles O31: a change of reach-present is a rise or a fall, and the side's state says which entry it makes. -/
theorem reachMovesLostAndReachableSides : Obligations.ReachMovesLostAndReachableSides := by
  intro n x p now m told
  have hpaths := n.formReach_paths x
  refine ⟨Node.formReach_unchanged, fun hlost hne hstays => ?_,
    fun hlost hnow hwas hfree => ⟨fun hinit => ?_, fun hinit => ?_⟩,
    fun hreach hnow hwas => ⟨fun hzero => ?_, fun hpos => ?_⟩,
    hpaths.cfg, hpaths.line, hpaths.au, hpaths.cc, hpaths.pe, n.timing_formReach x, hpaths.cs⟩
  · cases hnow : now
    case false =>
      have hwas : p.reach = true := by simpa [hnow] using hne.symm
      exact (Node.formReach_falls hnow hwas).trans (Node.reachFalls_lost hlost)
    case true =>
      have hwas : p.reach = false := by simpa [hnow] using hne.symm
      have hforced : p.forced = true := by simpa [hnow] using hstays
      exact (Node.formReach_rises hnow hwas).trans (Node.reachRises_forced hlost hforced)
  · have hm : m = n.enterReachable x { p with reach := true } .initial :=
      (Node.formReach_rises hnow hwas).trans (Node.reachRises_initial hlost hfree hinit)
    refine ⟨⟨?_, ?_⟩, ?_⟩
    · rw [hm, Node.pathOf_enterReachable]
    · rw [hm, Node.enterReachable_reports]; exact List.prefix_rfl
    · rw [hm]; exact Node.enterReachable_sig_of_unusable _ _ (Node.unusable_of_lost hlost)
  · have hm : m = n.pathTo x { p with reach := true, state := .waitRestore, timer := 4000 * n.cfg.wtr } .reachReturned :=
      (Node.formReach_rises hnow hwas).trans (Node.reachRises_waits hlost hfree hinit)
    refine ⟨⟨?_, ?_⟩, ?_⟩
    · rw [hm, Node.pathOf_pathTo]
    · rw [hm]; exact List.prefix_rfl
    · rw [hm]; rfl
  · have hm : m = n.enterLost x { p with reach := false } .reachLost :=
      (Node.formReach_falls hnow hwas).trans (Node.reachFalls_at_once hreach hzero)
    refine ⟨⟨?_, ?_⟩, ?_⟩
    · rw [hm, Node.pathOf_enterLost]
    · rw [hm]; exact Node.enterLost_reports n x { p with reach := false } .reachLost
    · rw [hm]; exact Node.lost_mem_enterLost _ _ _ _
  · have hm : m = n.pathTo x { p with reach := false, state := .holdOff, timer := 4 * n.cfg.holdOff } .reachLost :=
      (Node.formReach_falls hnow hwas).trans (Node.reachFalls_holds_off hreach hpos)
    have hside : m.pathOf x = { p with reach := false, state := .holdOff, timer := 4 * n.cfg.holdOff } := by
      rw [hm, Node.pathOf_pathTo]
    refine ⟨⟨hside, ?_⟩, ?_, Node.usable_of_holdOff (by rw [hside])⟩
    · rw [hm]; exact List.prefix_rfl
    · rw [hm]; rfl

end Sys2Proof.Machine
end

section
/-! SUPPORT. The hold-off and WTR timers that have run out, and PATH_FORCE (R34 to R38). -/

namespace Sys2Proof.Machine

/-- An event of the path monitor that leaves the timing source too changes the paths, their signals and the reports alone. -/
theorem Node.Paths.untouched {n m : Node} (h : n.Paths m) (ht : m.timing = n.timing) :
    m.line = n.line ∧ m.timing = n.timing ∧ m.pins = n.pins ∧ m.clk = n.clk ∧ m.op = n.op ∧ m.runTime = n.runTime ∧
      m.cfg = n.cfg ∧ m.cs = n.cs ∧ m.au = n.au ∧ m.cc = n.cc ∧ m.pe = n.pe ∧ m.te = n.te ∧ m.pc = n.pc :=
  ⟨h.line, ht, h.pins, h.clk, h.op, h.runTime, h.cfg, h.cs, h.au, h.cc, h.pe, h.te, h.pc⟩

/-! ## The other side of one that enters LOST (R35) -/

section other
variable {n : Node} {x : Side} (p : PathSide) (c : PathCause)

theorem Node.enterLost_other_of_waiting (h : (n.pathOf x.other).state = .waitRestore) :
    (n.enterLost x p c).pathOf x.other = (n.pathOf x.other).reached := by
  rw [Node.enterLost_of_waiting p c h, Node.pathOf_enterReachable]; rfl
theorem Node.enterLost_other_of_not_waiting (h : (n.pathOf x.other).state ≠ .waitRestore) :
    (n.enterLost x p c).pathOf x.other = n.pathOf x.other := by
  rw [Node.enterLost_of_not_waiting p c h, Node.lose_other]
theorem Node.enterLost_reports_of_not_waiting (h : (n.pathOf x.other).state ≠ .waitRestore) :
    (n.enterLost x p c).reports = (n.pathReport x p.gone c).reports := by
  rw [Node.enterLost_of_not_waiting p c h]; rfl

end other

/-! ## Timers (R34, R35, R37) -/

section timers
variable {n : Node} {x : Side}

theorem Node.holdOffEnd_of_due (h : (n.pathOf x).state = .holdOff) (ht : (n.pathOf x).timer = 0) :
    n.holdOffEnd x = n.enterLost x (n.pathOf x) .holdOffExpired := if_pos ⟨h, ht⟩
theorem Node.holdOffEnd_of_not_due (h : (n.pathOf x).state ≠ .holdOff ∨ (n.pathOf x).timer ≠ 0) : n.holdOffEnd x = n :=
  if_neg (not_and_or.2 h)
theorem Node.wtrEnd_of_due (h : (n.pathOf x).state = .waitRestore) (ht : (n.pathOf x).timer = 0) :
    n.wtrEnd x = n.enterReachable x (n.pathOf x) .wtrExpired := if_pos ⟨h, ht⟩
theorem Node.wtrEnd_of_not_due (h : (n.pathOf x).state ≠ .waitRestore ∨ (n.pathOf x).timer ≠ 0) : n.wtrEnd x = n :=
  if_neg (not_and_or.2 h)

variable {s : State}
theorem exec_holdOffExpired (x : Side) (h : s.awake) :
    exec (.holdOffExpired x) s = .next (s.became (s.node.holdOffEnd x)) := onNode_awake s (·.holdOffEnd x) h
theorem exec_wtrExpired (x : Side) (h : s.awake) : exec (.wtrExpired x) s = .next (s.became (s.node.wtrEnd x)) :=
  onNode_awake s (·.wtrEnd x) h

end timers

/-- A hold-off timer that has run out, the other side waiting to restore or not (R34, R35). -/
theorem Node.holdOffEnd_effect {n : Node} {x : Side} (h : (n.pathOf x).state = .holdOff) (ht : (n.pathOf x).timer = 0) :
    (n.holdOffEnd x).timing = n.timing ∧ (n.holdOffEnd x).pathOf x = { n.pathOf x with state := .lost } ∧
    ((n.pathOf x.other).state ≠ .waitRestore → (n.holdOffEnd x).pathOf x.other = n.pathOf x.other ∧
      (n.holdOffEnd x).sig = n.sig.give [.lost x] ∧
      (n.holdOffEnd x).reports = (n.pathReport x (n.pathOf x).gone .holdOffExpired).reports) ∧
    ((n.pathOf x.other).state = .waitRestore → (n.holdOffEnd x).pathOf x.other = (n.pathOf x.other).reached ∧
      (n.holdOffEnd x).sig = n.sig.give [.lost x, .restored x.other]) := by
  rw [Node.holdOffEnd_of_due h ht]
  refine ⟨Node.enterLost_timing _ _ _ _, ?_, fun hq => ⟨?_, ?_, ?_⟩, fun hq => ⟨?_, ?_⟩⟩
  · rw [Node.pathOf_enterLost, ← ht]
  · exact Node.enterLost_other_of_not_waiting _ _ hq
  · exact Node.enterLost_sig_of_not_waiting _ _ hq
  · exact Node.enterLost_reports_of_not_waiting _ _ hq
  · exact Node.enterLost_other_of_waiting _ _ hq
  · exact Node.enterLost_sig_of_waiting _ _ hq

/-- A WTR timer that has run out (R35). -/
theorem Node.wtrEnd_effect {n : Node} {x : Side} (h : (n.pathOf x).state = .waitRestore) (ht : (n.pathOf x).timer = 0) :
    (n.wtrEnd x).timing = n.timing ∧
    (n.wtrEnd x).pathOf x = { n.pathOf x with state := .reachable, initial := false } ∧
    (n.wtrEnd x).pathOf x.other = n.pathOf x.other ∧ (n.wtrEnd x).sig = n.sig.give [.restored x] ∧
    (n.wtrEnd x).reports = (n.pathReport x (n.pathOf x).reached .wtrExpired).reports := by
  rw [Node.wtrEnd_of_due h ht]
  refine ⟨Node.enterReachable_timing _ _ _ _, ?_, Node.pathOf_enterReachable_other _ _ _ _,
    Node.enterReachable_sig_of_unusable _ _ (Node.unusable_of_waitRestore h), Node.enterReachable_reports _ _ _ _⟩
  rw [Node.pathOf_enterReachable, ← ht]

/-! ## PATH_FORCE (R36) -/

section force
variable {n : Node} {x : Side}

theorem Node.forceOut_again (h : (n.pathOf x).forced = true) : n.forceOut x = n := if_pos h
theorem Node.forceOut_of_lost (h : (n.pathOf x).forced = false) (hl : (n.pathOf x).state = .lost) :
    n.forceOut x = n.pathTo x { n.pathOf x with forced := true } .forced := by
  simp [Node.forceOut, h, hl]
theorem Node.forceOut_of_not_lost (h : (n.pathOf x).forced = false) (hl : (n.pathOf x).state ≠ .lost) :
    n.forceOut x = n.enterLost x { n.pathOf x with forced := true } .forced := by
  simp [Node.forceOut, h, hl]
theorem Node.forceClear_again (h : (n.pathOf x).forced = false) : n.forceClear x = n := by
  simp [Node.forceClear, h]
theorem Node.forceClear_without_reach (h : (n.pathOf x).forced = true) (hr : (n.pathOf x).reach = false) :
    n.forceClear x = n.pathTo x { n.pathOf x with forced := false } .forceCleared := by
  simp [Node.forceClear, h, hr]
theorem Node.forceClear_with_reach (h : (n.pathOf x).forced = true) (hr : (n.pathOf x).reach = true) :
    n.forceClear x = n.enterReachable x { n.pathOf x with forced := false } .forceCleared := by
  simp [Node.forceClear, h, hr]

variable (n x)
theorem Node.forceOut_timing : (n.forceOut x).timing = n.timing := by
  unfold Node.forceOut
  dsimp only
  split
  · rfl
  · split
    · rfl
    · exact Node.enterLost_timing _ _ _ _
theorem Node.forceClear_timing : (n.forceClear x).timing = n.timing := by
  unfold Node.forceClear
  dsimp only
  split
  · rfl
  · split
    · exact Node.enterReachable_timing _ _ _ _
    · rfl
theorem Node.forceClear_other : (n.forceClear x).pathOf x.other = n.pathOf x.other := by
  unfold Node.forceClear
  dsimp only
  split
  · rfl
  · split
    · exact Node.pathOf_enterReachable_other _ _ _ _
    · exact Node.pathOf_pathTo_other _ _ _ _

end force

/-- A byte read as a number, at any offset of a body that has it. -/
theorem f1_of_getElem?_at {b : List Byte} {off : Nat} {v : Byte} (h : b[off]? = some v) : f1 b off = v.toNat := by
  have hdrop : (b.drop off)[0]? = some v := by simpa using h
  simpa [f1, numAt] using f1_of_getElem? hdrop

section requests
variable {n : Node} {b : List Byte} {x : Side} (k : Link)

theorem forceChecks_passed (hop : n.op = .running) (hlen : b.length = 2) (hx : sideOf (f1 b 0) = some x)
    (haction : f1 b 1 ≤ 1) : ∀ c ∈ forceChecks n b, c.1 = false := by
  simp [forceChecks, commonChecks, bad, hop, hlen, hx, outside_eq_false (Nat.zero_le _) haction]
theorem ownPathForceSet_ok (hop : n.op = .running) (hlen : b.length = 2) (hx : sideOf (f1 b 0) = some x)
    (haction : f1 b 1 ≤ 1) : ownPathForceSet k b n = forceAnswer (n.forceOut x) x := by
  refine (checked_passed (forceChecks_passed hop hlen hx haction)).trans ?_
  rw [hx]; rfl
theorem ownPathForceClear_ok (hop : n.op = .running) (hlen : b.length = 2) (hx : sideOf (f1 b 0) = some x)
    (haction : f1 b 1 ≤ 1) : ownPathForceClear k b n = forceAnswer (n.forceClear x) x := by
  refine (checked_passed (forceChecks_passed hop hlen hx haction)).trans ?_
  rw [hx]; rfl

end requests

/-- Settles O30: the timers and PATH_FORCE enter LOST or REACHABLE, whose sides, signals and reports are those of
`Node.enterLost` and `Node.enterReachable`; so do the rise of reach in HOLD_OFF and its fall in WAIT_RESTORE. -/
theorem timersAndForcingMoveTheirSides : Obligations.TimersAndForcingMoveTheirSides := by
  refine ⟨?timers, ?reach, ?force⟩
  case timers =>
    intro s x hs n p q given others
    rw [exec_holdOffExpired x hs, exec_wtrExpired x hs]
    refine ⟨fun hp ht => ?_, fun hp ht => ?_, fun h => ?_, fun h => ?_⟩
    · obtain ⟨htiming, hside, hnot, hwaits⟩ := Node.holdOffEnd_effect hp ht
      refine ⟨_, rfl, (Node.holdOffEnd_paths _ _).untouched htiming, hside, fun hq => ?_, hwaits⟩
      obtain ⟨hother, hsig, hreports⟩ := hnot hq
      exact ⟨hother, hsig, by rw [hreports, Node.pathReport_eq hp]; rfl⟩
    · obtain ⟨htiming, hside, hother, hsig, hreports⟩ := Node.wtrEnd_effect hp ht
      exact ⟨_, rfl, (Node.wtrEnd_paths _ _).untouched htiming, hside, hother, hsig,
        by rw [hreports, Node.pathReport_eq hp]; rfl⟩
    · rw [Node.holdOffEnd_of_not_due h]
    · rw [Node.wtrEnd_of_not_due h]
  case reach =>
    intro n x p now m
    refine ⟨fun hp hnow hwas => ?_, fun hp hnow hwas => ?_, fun hp hnow hwas => ?_, fun hp hnow hwas => ?_⟩
    · have hm : m = n.enterReachable x { p with reach := true } .holdOffCancelled :=
        (Node.formReach_rises hnow hwas).trans (Node.reachRises_holdOff hp)
      rw [hm]
      refine ⟨Node.pathOf_enterReachable _ _ _ _, Node.enterReachable_sig_of_usable _ _ (Node.usable_of_holdOff hp),
        Node.pathOf_enterReachable_other _ _ _ _, ?_⟩
      rw [Node.enterReachable_reports, Node.pathReport_eq hp]; rfl
    · have hm : m = n.enterLost x { p with reach := false } .reachFailedInWtr :=
        (Node.formReach_falls hnow hwas).trans (Node.reachFalls_waitRestore hp)
      have hreports := Node.enterLost_reports n x { p with reach := false } .reachFailedInWtr
      rw [Node.pathReport_eq hp] at hreports
      rw [hm]
      exact ⟨Node.pathOf_enterLost _ _ _ _, hreports, Node.lost_mem_enterLost _ _ _ _⟩
    · exact (Node.formReach_falls hnow hwas).trans (Node.reachFalls_holdOff hp)
    · exact (Node.formReach_rises hnow hwas).trans (Node.reachRises_waitRestore hp)
  case force =>
    intro s i r x hasks hk hop hlen hx n p reply others
    refine ⟨fun hset => ?_, fun hclear => ?_⟩
    · have hmine : isKindBut 0x0A#8 1 [0x01#8] r = true := by
        have hne : r.body[1]? ≠ some 0x01#8 := fun hv => by
          rw [f1_of_getElem?_at hv] at hset; exact absurd hset (by decide)
        simp [isKindBut, hk, hne]
      refine ⟨n.forceOut x, handle_ok hasks hmine (ownPathForceSet_ok _ hop hlen hx (by omega)),
        (n.forceOut_paths x).untouched (n.forceOut_timing x), Node.forceOut_again, fun hf hl => ?_, fun hf hl => ?_⟩
      · rw [Node.forceOut_of_lost hf hl]
        exact ⟨Node.pathOf_pathTo _ _ _ _, Node.pathOf_pathTo_other _ _ _ _, rfl⟩
      · rw [Node.forceOut_of_not_lost hf hl]
        exact ⟨Node.pathOf_enterLost _ _ _ _, (Node.lost_mem_enterLost _ _ _ _).1⟩
    · have haction : f1 r.body 1 = 1 := f1_of_getElem?_at hclear
      refine ⟨n.forceClear x, handle_ok hasks (isKindWith_of_eq hk hclear) (ownPathForceClear_ok _ hop hlen hx haction.le),
        (n.forceClear_paths x).untouched (n.forceClear_timing x), n.forceClear_other x, Node.forceClear_again,
        fun hf hr => ?_, fun hf hr => ?_⟩
      · rw [Node.forceClear_without_reach hf hr]
        exact ⟨Node.pathOf_pathTo _ _ _ _, rfl⟩
      · rw [Node.forceClear_with_reach hf hr]
        refine ⟨Node.pathOf_enterReachable _ _ _ _, fun hl => ?_⟩
        rw [Node.enterReachable_sig_of_unusable _ _ (Node.unusable_of_lost hl)]
        exact (Signals.mem_give _ (List.mem_singleton.2 rfl)).1

end Sys2Proof.Machine
end

section
/-! SUPPORT. SET_NODE: its fields in range, the settings it leaves and what they act on (R30, R41). -/

namespace Sys2Proof.Machine

/-! ## The new settings at work (R30, R41) -/

section applySettings
variable (n : Node) (c : Settings)

/-- Reach-present of both sides formed with new settings. -/
def Node.reachWith : Node := (({ n with cfg := c }).formReach .a).formReach .b

theorem Node.reachWith_paths : ({ n with cfg := c } : Node).Paths (n.reachWith c) :=
  (Node.formReach_paths _ _).trans (Node.formReach_paths _ _)
theorem Node.reachWith_timing : (n.reachWith c).timing = n.timing := by
  rw [Node.reachWith, Node.timing_formReach, Node.timing_formReach]
/-- Each side holds what its line gives under the new hop limit: side B's forming leaves side A's. -/
theorem Node.reachWith_reach (x : Side) :
    ((n.reachWith c).pathOf x).reach = (n.line.get x.line).reaches c.hopLimit := by
  have hfirst := Node.formReach_paths { n with cfg := c } .a
  cases x with
  | a => exact (Node.reach_formReach_other _ .b).trans (Node.reach_formReach _ .a)
  | b => rw [Node.reachWith, Node.reach_formReach, hfirst.line, hfirst.cfg]
theorem Node.applySettings_eq : n.applySettings c =
    if c.pref = n.cfg.pref then n.reachWith c else (n.reachWith c).timingRevert := rfl
theorem Node.applySettings_paths : ({ n with cfg := c } : Node).Paths (n.applySettings c) :=
  Node.Paths.ite (n.reachWith_paths c) ((n.reachWith_paths c).trans (Node.timingRevert_paths _))
theorem Node.applySettings_reach (x : Side) :
    ((n.applySettings c).pathOf x).reach = (n.line.get x.line).reaches c.hopLimit := by
  rw [← n.reachWith_reach c x, Node.applySettings_eq, Node.pathOf, Node.pathOf]
  split
  · rfl
  · rw [Node.timingRevert_path]
/-- The revert that the new settings ask for turns on the new preference and on the lines and clean times as they stand. -/
theorem Node.reachWith_revertDue : (n.reachWith c).RevertDue ↔
    n.timing.source = lineSource c.pref.line.other ∧ (n.line.get c.pref.line).qualifies = true ∧
      40000 ≤ n.timing.clean.get c.pref.line := by
  have hpaths := n.reachWith_paths c
  rw [Node.RevertDue, hpaths.cfg, hpaths.line, n.reachWith_timing c]
theorem Node.applySettings_timing : (n.applySettings c).timing =
    if c.pref ≠ n.cfg.pref ∧ n.timing.source = lineSource c.pref.line.other ∧
        (n.line.get c.pref.line).qualifies = true ∧ 40000 ≤ n.timing.clean.get c.pref.line
    then { n.timing with source := lineSource c.pref.line } else n.timing := by
  rw [Node.applySettings_eq]
  by_cases hpref : c.pref = n.cfg.pref
  · rw [if_pos hpref, if_neg (fun h => h.1 hpref), n.reachWith_timing c]
  rw [if_neg hpref]
  by_cases hdue : (n.reachWith c).RevertDue
  · rw [if_pos ⟨hpref, (n.reachWith_revertDue c).1 hdue⟩, Node.timingRevert_of_due hdue, Node.switchTiming_timing,
      n.reachWith_timing c, (n.reachWith_paths c).cfg]
  · rw [if_neg (fun h => hdue ((n.reachWith_revertDue c).2 h.2)), Node.timingRevert_of_not_due hdue, n.reachWith_timing c]

end applySettings

/-! ## The request (R30) -/

/-- The fields of a SET_NODE are in range; whether RUNNING bars the node number is another check. -/
structure SetNodeInRange (b : List Byte) (pref : TimingPref) (mode : Rounding) : Prop where
  length : b.length = 9
  number : f1 b 0 ≤ 250
  hopLimit : 1 ≤ f1 b 1 ∧ f1 b 1 ≤ 250
  holdOff : f2 b 2 ≤ 10000 ∧ f2 b 2 % 10 = 0
  wtr : 10 ≤ f2 b 4 ∧ f2 b 4 ≤ 900
  pref : prefOf (f1 b 6) = some pref
  mode : roundingOf (f1 b 7) = some mode
  lead : 4 ≤ f1 b 8 ∧ f1 b 8 ≤ 64

section ownSetNode
variable {b : List Byte} {pref : TimingPref} {mode : Rounding} (h : SetNodeInRange b pref mode) (k : Link) {n : Node}
include h

theorem SetNodeInRange.replaced_eq (old : Settings) : old.replaced b =
    ⟨if f1 b 0 = 0 then old.nodeNumber else f1 b 0, f1 b 1, f2 b 2, f2 b 4, pref, mode, f1 b 8⟩ := by
  simp [Settings.replaced, h.pref, h.mode]
theorem ownSetNode_ok (hnumber : n.op = .config ∨ f1 b 0 = 0 ∨ f1 b 0 = n.cfg.nodeNumber) :
    ownSetNode k b n = { node := n.applySettings (n.cfg.replaced b), reply := okReply [] } := by
  have hfree : (n.op == .running && f1 b 0 != 0 && f1 b 0 != n.cfg.nodeNumber) = false := by
    rcases hnumber with hop | hzero | hsame
    · simp [hop]
    · simp [hzero]
    · simp [hsame]
  refine checked_append (commonChecks_passed h.length) ?_
  simp [bad, hfree, h.pref, h.mode, h.holdOff.2, outside_eq_false (Nat.zero_le _) h.number,
    outside_eq_false h.hopLimit.1 h.hopLimit.2, outside_eq_false (Nat.zero_le _) h.holdOff.1,
    outside_eq_false h.wtr.1 h.wtr.2, outside_eq_false h.lead.1 h.lead.2]
theorem ownSetNode_wrongState (hop : n.op = .running) (hzero : f1 b 0 ≠ 0) (hnew : f1 b 0 ≠ n.cfg.nodeNumber) :
    ownSetNode k b n = { node := n, reply := refusal .wrongState } :=
  checked_failed (by
    simp [firstRefusal, commonChecks, bad, hop, hzero, hnew, h.length, h.pref, h.mode, h.holdOff.2,
      outside_eq_false (Nat.zero_le _) h.number, outside_eq_false h.hopLimit.1 h.hopLimit.2,
      outside_eq_false (Nat.zero_le _) h.holdOff.1, outside_eq_false h.wtr.1 h.wtr.2,
      outside_eq_false h.lead.1 h.lead.2])

end ownSetNode

/-- Settles O22: the checks pass or the last one fails; an accepted request leaves `Node.applySettings`, which forms
reach-present and may revert the timing source. -/
theorem setNodeReplacesTheSettings : Obligations.SetNodeReplacesTheSettings := by
  intro s i r pref mode hasks hk n b hlen h0 h1 h1' h2 h2' h4 h4' hpref hmode h8 h8'
  have hrange : SetNodeInRange b pref mode := ⟨hlen, h0, ⟨h1, h1'⟩, ⟨h2, h2'⟩, ⟨h4, h4'⟩, hpref, hmode, ⟨h8, h8'⟩⟩
  refine ⟨fun hnumber => ?_, fun hop hzero hnew =>
    handle_refused hasks (isKind_of_eq hk) (ownSetNode_wrongState hrange _ hop hzero hnew)⟩
  have hok := ownSetNode_ok hrange s.link hnumber
  rw [hrange.replaced_eq] at hok
  have hpaths := n.applySettings_paths
    ⟨if f1 b 0 = 0 then n.cfg.nodeNumber else f1 b 0, f1 b 1, f2 b 2, f2 b 4, pref, mode, f1 b 8⟩
  exact ⟨_, handle_ok hasks (isKind_of_eq hk) hok, hpaths.cfg, n.applySettings_reach _, n.applySettings_timing _,
    hpaths.line, hpaths.pins, hpaths.clk, hpaths.op, hpaths.runTime, hpaths.cs, hpaths.au, hpaths.cc, hpaths.pe, hpaths.te,
    hpaths.pc⟩

end Sys2Proof.Machine
end

section
/-! SUPPORT. What the packet engine, the transfer engine and the poll controller can do: they change themselves and the report
queue, and nothing else of the node. -/

namespace Sys2Proof.Machine

/-- What an event of the packet engine, the transfer engine or the poll controller may do to the node. -/
structure Node.Engines (n m : Node) : Prop where
  rest : m = { n with reports := m.reports, pe := m.pe, te := m.te, pc := m.pc }

namespace Node.Engines

theorem refl (n : Node) : n.Engines n := ⟨rfl⟩
theorem trans {a b c : Node} (h : a.Engines b) (k : b.Engines c) : a.Engines c := ⟨by rw [k.rest, h.rest]⟩
theorem ite {n a b : Node} {c : Prop} [Decidable c] (ha : n.Engines a) (hb : n.Engines b) : n.Engines (if c then a else b) := by
  split
  · exact ha
  · exact hb
theorem foldl {α : Type} (f : Node → α → Node) (hf : ∀ (n : Node) (x : α), n.Engines (f n x)) (l : List α) (n : Node) :
    n.Engines (l.foldl f n) := by
  induction l generalizing n with
  | nil => exact refl n
  | cons x l ih => exact (hf n x).trans (ih _)

section fields
variable {n m : Node} (h : n.Engines m)
include h
theorem pins : m.pins = n.pins := by rw [h.rest]
theorem clk : m.clk = n.clk := by rw [h.rest]
theorem op : m.op = n.op := by rw [h.rest]
theorem cfg : m.cfg = n.cfg := by rw [h.rest]
theorem line : m.line = n.line := by rw [h.rest]
theorem path : m.path = n.path := by rw [h.rest]
theorem cs : m.cs = n.cs := by rw [h.rest]
theorem au : m.au = n.au := by rw [h.rest]
theorem cc : m.cc = n.cc := by rw [h.rest]
theorem phone (p : Fin 8) : m.phone p = n.phone p := by simp only [Node.phone, h.cc]
end fields

end Node.Engines

open Node.Engines

theorem Node.report_engines (n : Node) (b : ReportBody) : n.Engines (n.report b) := ⟨rfl⟩
theorem Node.modPort_engines (n : Node) (k : Fin 4) (f : PacketPort → PacketPort) : n.Engines (n.modPort k f) := ⟨rfl⟩
theorem Node.setXfer_engines (n : Node) (t : Fin 4) (r : Option Transfer) : n.Engines (n.setXfer t r) := ⟨rfl⟩
theorem Node.modStation_engines (n : Node) (k : Fin 8) (f : Station → Station) : n.Engines (n.modStation k f) := ⟨rfl⟩
theorem Node.setPe_engines (n : Node) (v : PeService) : n.Engines (n.setPe v) := ⟨rfl⟩

/-! ## Packet engine -/

theorem Node.offerFrame_engines (n : Node) (id : Nat) (data : List Byte) : n.Engines (n.offerFrame id data).1 := by
  unfold Node.offerFrame
  repeat' split
  all_goals exact ⟨rfl⟩
theorem Node.toReceiveQueue_engines (n : Node) (k : Fin 4) (f : ChannelFrame) : n.Engines (n.toReceiveQueue k f) := ⟨rfl⟩
theorem Node.peApplied_engines (n : Node) (id : Nat) (h : HalfSet) : n.Engines (n.peApplied id h) := by
  unfold Node.peApplied; split <;> exact ⟨rfl⟩
theorem Node.reselectDual_engines (n : Node) : n.Engines n.reselectDual := ⟨rfl⟩
theorem Node.openPe_engines (n : Node) (id : Nat) : n.Engines (n.openPe id) := ⟨rfl⟩
theorem Node.buildTrains_engines (n : Node) : n.Engines n.buildTrains.1 := ⟨rfl⟩

/-! ## Transfer engine -/

theorem Node.offerState_engines (n : Node) (t : Fin 4) : n.Engines (n.offerState t) := by
  unfold Node.offerState
  split
  · exact refl n
  · exact ite ((n.offerFrame_engines _ _).trans (Node.setXfer_engines _ _ _)) (refl n)
theorem Node.transferTo_engines (n : Node) (t : Fin 4) (old : Option TransferState) (r : Transfer) (c : TransferCause) :
    n.Engines (n.transferTo t old r c) := ⟨rfl⟩
theorem Node.transferOffered_engines (n : Node) (t : Fin 4) (old : Option TransferState) (r : Transfer) (c : TransferCause) :
    n.Engines ((n.transferTo t old r c).offerState t) := (n.transferTo_engines _ _ _ _).trans (Node.offerState_engines _ _)
theorem Node.xferOffered_engines (n : Node) (t : Fin 4) (r : Option Transfer) : n.Engines ((n.setXfer t r).offerState t) :=
  (n.setXfer_engines _ _).trans (Node.offerState_engines _ _)
theorem Node.resumeOne_engines (n : Node) (t : Fin 4) : n.Engines (n.resumeOne t) := by
  unfold Node.resumeOne; split
  · exact n.transferOffered_engines _ _ _ _
  · exact refl n
theorem Node.resumeStore_engines (n : Node) : n.Engines n.resumeStore := foldl _ Node.resumeOne_engines _ _
theorem Node.resumeIf_engines (n : Node) (freed : Bool) : n.Engines (n.resumeIf freed) := ite n.resumeStore_engines (refl n)
theorem Node.closeRecord_engines (n : Node) (t : Fin 4) (r : Transfer) (last : TransferState) (c : TransferCause)
    (why : Option AbortReason) : n.Engines (n.closeRecord t r last c why) := ⟨rfl⟩
theorem Node.closeTransfer_engines (n : Node) (t : Fin 4) : n.Engines (n.closeTransfer t) := by
  unfold Node.closeTransfer; split
  · exact refl n
  · exact (n.xferOffered_engines _ _).trans (Node.closeRecord_engines _ _ _ _ _ _)
theorem Node.abortTransfer_engines (n : Node) (t : Fin 4) (why : AbortReason) : n.Engines (n.abortTransfer t why) := by
  unfold Node.abortTransfer; split
  · exact refl n
  · exact (ite (n.xferOffered_engines _ _) (refl n)).trans (Node.closeRecord_engines _ _ _ _ _ _)
theorem Node.hostAbort_engines (n : Node) (t : Fin 4) : n.Engines (n.hostAbort t) :=
  (n.abortTransfer_engines t _).trans (Node.resumeIf_engines _ _)
theorem Node.offerIf_engines (n : Node) (t : Fin 4) (want : Bool) : n.Engines (n.offerIf t want) :=
  ite (n.offerState_engines t) (refl n)
theorem Node.handChunk_engines (n : Node) (t : Fin 4) (r : Transfer) (k : Fin 4) (channel : Nat) :
    n.Engines (n.handChunk t r k channel) := ⟨rfl⟩
theorem deliverLoop_engines (fuel : Nat) (n : Node) (t : Fin 4) (want : Bool) : n.Engines (deliverLoop fuel n t want) := by
  induction fuel generalizing n with
  | zero => exact n.offerIf_engines _ _
  | succ fuel ih =>
    unfold deliverLoop
    split
    · exact refl n
    · refine ite (n.offerIf_engines _ _) ?_
      split
      · exact n.closeTransfer_engines _
      · refine ite (ite ((n.setXfer_engines _ _).trans (ih _)) (n.closeTransfer_engines _)) (ite ?_ ?_)
        · exact n.transferOffered_engines _ _ _ _
        · exact ite ((n.handChunk_engines _ _ _ _).trans (ih _)) (n.offerIf_engines _ _)
theorem Node.deliver_engines (n : Node) (t : Fin 4) (want : Bool) : n.Engines (n.deliver t want) := deliverLoop_engines _ _ _ _
theorem Node.roomOne_engines (k : Fin 4) (n : Node) (t : Fin 4) : n.Engines (n.roomOne k t) := by
  unfold Node.roomOne; split
  · exact ite (n.deliver_engines _ _) (refl n)
  · exact refl n
theorem Node.roomOn_engines (n : Node) (k : Fin 4) : n.Engines (n.roomOn k) :=
  (foldl _ (Node.roomOne_engines k) _ _).trans (Node.resumeIf_engines _ _)
theorem Node.readyOne_engines (k : Fin 4) (n : Node) (t : Fin 4) : n.Engines (n.readyOne k t) := by
  unfold Node.readyOne; split
  · refine ite (ite (n.transferOffered_engines _ _ _ _) (ite ?_ (refl n))) (refl n)
    exact (n.transferTo_engines _ _ _ _).trans (Node.deliver_engines _ _ _)
  · exact refl n
theorem Node.readyOn_engines (n : Node) (k : Fin 4) : n.Engines (n.readyOn k) :=
  (foldl _ (Node.readyOne_engines k) _ _).trans (Node.resumeIf_engines _ _)
theorem Node.appendSegment_engines (n : Node) (t : Fin 4) (r : Transfer) (data : List Byte) :
    n.Engines (n.appendSegment t r data) := by
  unfold Node.appendSegment
  dsimp only
  split
  · exact n.transferOffered_engines _ _ _ _
  · rename_i blocks _
    refine Node.Engines.trans (b := { n with te := { n.te with store := writePage n.te.store blocks r.received data } }) ⟨rfl⟩ ?_
    exact ite ((Node.transferTo_engines _ _ _ _ _).trans (Node.deliver_engines _ _ _))
      ((Node.setXfer_engines _ _ _).trans (Node.offerIf_engines _ _ _))
theorem Node.judgeSegment_engines (n : Node) (t : Fin 4) (r : Transfer) (o : Nat) (data : List Byte) :
    n.Engines (n.judgeSegment t r o data) :=
  ite (n.xferOffered_engines _ _) (ite (n.setXfer_engines _ _) (ite (n.xferOffered_engines _ _) (n.appendSegment_engines _ _ _)))
theorem Node.segment_engines (n : Node) (id : Nat) (frame : List Byte) : n.Engines (n.segment id frame) := by
  unfold Node.segment
  refine ite ⟨rfl⟩ (ite ⟨rfl⟩ ?_)
  dsimp only
  split
  · exact ⟨rfl⟩
  · refine ite ⟨rfl⟩ ?_
    split
    · exact n.judgeSegment_engines _ _ _ _
    · exact n.xferOffered_engines _ _
    · exact n.xferOffered_engines _ _
    · exact ⟨rfl⟩
theorem Node.transferShed_engines (n : Node) (id : Nat) : n.Engines (n.transferShed id) := by
  unfold Node.transferShed
  split
  · exact refl n
  · split
    · exact ite (n.transferTo_engines _ _ _ _) (refl n)
    · exact refl n
theorem Node.transferPlaced_engines (n : Node) (id : Nat) : n.Engines (n.transferPlaced id) := by
  unfold Node.transferPlaced
  split
  · exact refl n
  · split
    · exact ite (n.transferOffered_engines _ _ _ _) (refl n)
    · exact refl n
theorem Node.stateTimerEnd_engines (n : Node) (t : Fin 4) : n.Engines (n.stateTimerEnd t) := by
  unfold Node.stateTimerEnd; split
  · exact ite (n.xferOffered_engines _ _) (refl n)
  · exact refl n

/-! ## Readings -/

theorem Node.forwardReading_engines (n : Node) (k : Fin 8) : n.Engines (n.forwardReading k) := by
  unfold Node.forwardReading
  split
  · exact refl n
  · split
    · exact ⟨rfl⟩
    · exact (n.offerFrame_engines _ _).trans (Node.modStation_engines _ _ _)
theorem Node.catchUp_engines (n : Node) : n.Engines n.catchUp :=
  foldl _ (fun n k => ite (n.forwardReading_engines k) (refl n)) _ _
theorem Node.weatherPlaced_engines (n : Node) (id : Nat) : n.Engines (n.weatherPlaced id) := ite n.catchUp_engines (refl n)

/-! ## The binding of a released service -/

theorem Node.unbind_engines (n : Node) (v : Service) : n.Engines (n.unbind v) := by
  refine Node.Engines.trans (b := { n with pe := { n.pe with svcs := n.pe.svcs.filter (·.id != v.id) } }) ⟨rfl⟩ ?_
  unfold Node.unbind
  dsimp only
  split
  · split
    · exact Node.abortTransfer_engines _ _ _
    · exact refl _
  · exact ite ⟨rfl⟩ (refl _)
  · exact refl _

/-! ## Packet ports and the poll line -/

theorem Node.tributaryIn_engines (n : Node) (k : Fin 4) (f : TributaryInput) : n.Engines (n.tributaryIn k f) := by
  unfold Node.tributaryIn
  refine ite ?_ (refl n)
  split
  · exact ⟨rfl⟩
  · split
    · exact ⟨rfl⟩
    · exact n.offerFrame_engines _ _
theorem Node.outputBegin_engines (n : Node) (k : Fin 4) : n.Engines (n.outputBegin k) := ite ⟨rfl⟩ (refl n)
theorem Node.outputEnd_engines (n : Node) (k : Fin 4) : n.Engines (n.outputEnd k) :=
  ite ((n.modPort_engines _ _).trans (Node.roomOn_engines _ _)) (refl n)
theorem Node.intervalEnd_engines (n : Node) : n.Engines n.intervalEnd :=
  ite ((ite (n.report_engines _) (refl n)).trans ⟨rfl⟩) (refl n)
theorem Node.cycleStart_engines (n : Node) : n.Engines n.cycleStart := ite ⟨rfl⟩ (refl n)
theorem Node.beginPoll_engines (n : Node) : n.Engines n.beginPoll := by
  unfold Node.beginPoll; split <;> exact ⟨rfl⟩
theorem Node.stationDue_engines (n : Node) (k : Fin 8) : n.Engines (n.stationDue k) := by
  unfold Node.stationDue
  refine ite (Node.Engines.trans (n.modStation_engines _ _) (ite (Node.modStation_engines _ _ _) ?_)) (refl n)
  exact Node.Engines.trans ⟨rfl⟩ (Node.beginPoll_engines _)
theorem Node.stationTo_engines (n : Node) (k : Fin 8) (st : StationState) (c : StationCause) :
    n.Engines (n.stationTo k st c) := ⟨rfl⟩
theorem Node.endPoll_engines (n : Node) : n.Engines n.endPoll := Node.Engines.trans ⟨rfl⟩ (Node.beginPoll_engines _)
theorem Node.failedPoll_engines (n : Node) (k : Fin 8) : n.Engines (n.failedPoll k) :=
  ((n.modStation_engines _ _).trans (ite (Node.stationTo_engines _ _ _ _) (refl _))).trans (Node.endPoll_engines _)
theorem Node.attemptFails_engines (n : Node) (t : Transaction) (f : StationCounts → StationCounts) :
    n.Engines (n.attemptFails t f) := (n.modStation_engines t.station _).trans (ite ⟨rfl⟩ (Node.failedPoll_engines _ _))
theorem Node.newReading_engines (n : Node) (k : Fin 8) (bs : List Byte) : n.Engines (n.newReading k bs) :=
  (n.modStation_engines _ _).trans (Node.forwardReading_engines _ _)
theorem Node.attemptSucceeds_engines (n : Node) (t : Transaction) (bs : List Byte) : n.Engines (n.attemptSucceeds t bs) :=
  (((n.modStation_engines _ _).trans (Node.newReading_engines _ _ _)).trans
    (ite (refl _) (Node.stationTo_engines _ _ _ _))).trans (Node.endPoll_engines _)
theorem Node.judgeAttempt_engines (n : Node) (t : Transaction) (v : Verdict) : n.Engines (n.judgeAttempt t v) := by
  unfold Node.judgeAttempt; split
  · exact n.attemptSucceeds_engines _ _
  all_goals exact n.attemptFails_engines _ _
theorem Node.windowOpens_engines (n : Node) : n.Engines n.windowOpens := by
  unfold Node.windowOpens; split
  · exact ite ⟨rfl⟩ (refl n)
  · exact refl n
theorem Node.replyTimeout_engines (n : Node) : n.Engines n.replyTimeout := by
  unfold Node.replyTimeout; split
  · split
    · exact ite (n.judgeAttempt_engines _ _) (refl n)
    · exact refl n
  · exact refl n
theorem Node.replyStart_engines (n : Node) : n.Engines n.replyStart := by
  unfold Node.replyStart
  refine n.replyTimeout_engines.trans ?_
  dsimp only
  split
  · split <;> exact ⟨rfl⟩
  · exact refl _
theorem Node.replyEnd_engines (n : Node) (judge : Nat → Verdict) : n.Engines (n.replyEnd judge) := by
  unfold Node.replyEnd; split
  · exact ite (n.judgeAttempt_engines _ _) (refl n)
  · exact refl n
theorem Node.setStationEntry_engines (n : Node) (k : Fin 8) (enabled : Bool) (address offset : Nat) :
    n.Engines (n.setStationEntry k enabled address offset) :=
  Node.Engines.trans ⟨rfl⟩ (ite (refl _) (Node.stationTo_engines _ _ _ _))

/-! ## Trains read -/

theorem Node.handFrame_engines (n : Node) (v : Service) (data : List Byte) : n.Engines (n.handFrame v data) := by
  unfold Node.handFrame
  split
  · exact n.toReceiveQueue_engines _ _
  · exact n.segment_engines _ _
  · split <;> exact ⟨rfl⟩
  · exact refl n
theorem Node.readService_engines (n : Node) (id : Nat) : n.Engines (n.readService id) := by
  unfold Node.readService
  split
  · rename_i v sv _ _
    split
    · exact refl n
    · dsimp only
      split
      · exact refl n
      · exact (n.setPe_engines _).trans (foldl _ (fun n d => n.handFrame_engines sv d) _ _)
  · exact refl n
theorem Node.readTrains_engines (n : Node) : n.Engines n.readTrains :=
  (foldl _ Node.readService_engines _ _).trans (Node.resumeIf_engines _ _)

end Sys2Proof.Machine
end

section
/-! SUPPORT. Half sets handed over (R53, R54): what a staging record made now is given, the staging list kept in order by it, and
the admission unit and the call controller, which change nothing else of the cell switch's maps and staging list. -/

namespace Sys2Proof.Machine

/-! ## The effective frame of a record made now (R53) -/

theorem le_foldl_max (l : List Nat) (k : Nat) : k ≤ l.foldl max k ∧ ∀ x ∈ l, x ≤ l.foldl max k := by
  induction l generalizing k with
  | nil => simp
  | cons y l ih =>
    obtain ⟨hk, hl⟩ := ih (max k y)
    refine ⟨by simp only [List.foldl_cons]; omega, fun x hx => ?_⟩
    rcases List.mem_cons.1 hx with rfl | hx
    · simp only [List.foldl_cons]; omega
    · exact hl x hx
theorem foldl_max_mem (l : List Nat) (k : Nat) : l.foldl max k = k ∨ l.foldl max k ∈ l := by
  induction l generalizing k with
  | nil => exact .inl rfl
  | cons y l ih =>
    rcases ih (max k y) with h | h
    · rcases Nat.le_total k y with hk | hk
      · exact .inr (by rw [List.foldl_cons, h, Nat.max_eq_right hk]; simp)
      · exact .inl (by rw [List.foldl_cons, h, Nat.max_eq_left hk])
    · exact .inr (List.mem_cons_of_mem _ h)

/-- How far ahead a record made now takes effect: the staging lead, or the farthest record if that is farther. -/
def Node.leadNow (n : Node) : Nat := (n.cs.staging.map fun r => ahead n.clk.frame r.eff).foldl max n.cfg.lead

theorem ahead_lt (f e : BitVec 16) : ahead f e < 65536 := (e - f).isLt
theorem ahead_add (f : BitVec 16) {k : Nat} (h : k < 65536) : ahead f (f + BitVec.ofNat 16 k) = k := by
  unfold ahead; bv_omega
theorem ahead_inj {f d e : BitVec 16} (h : ahead f d = ahead f e) : d = e := by
  unfold ahead at h; bv_omega

section leadNow
variable (n : Node)

theorem Node.lead_le_leadNow : n.cfg.lead ≤ n.leadNow := (le_foldl_max _ _).1
theorem Node.ahead_le_leadNow {r : Staging} (h : r ∈ n.cs.staging) : ahead n.clk.frame r.eff ≤ n.leadNow :=
  (le_foldl_max _ _).2 _ (List.mem_map_of_mem h)
theorem Node.leadNow_cases : n.leadNow = n.cfg.lead ∨ ∃ r ∈ n.cs.staging, ahead n.clk.frame r.eff = n.leadNow :=
  (foldl_max_mem _ _).imp_right fun h => List.mem_map.1 h
theorem Node.leadNow_lt {n : Node} (h : n.cfg.lead ≤ 65535) : n.leadNow < 65536 := by
  rcases n.leadNow_cases with he | ⟨r, -, he⟩
  · omega
  · exact he ▸ ahead_lt _ _
/-- The effective frame is as far ahead as the list demands. -/
theorem Node.ahead_effectiveFrame {n : Node} (h : n.cfg.lead ≤ 65535) : ahead n.clk.frame n.effectiveFrame = n.leadNow :=
  ahead_add _ (Node.leadNow_lt h)

end leadNow

theorem Node.handHalves_staging (n : Node) (id : Nat) (cls : Class) (h : HalfSet) : (n.handHalves id cls h).cs.staging =
    n.cs.staging.filter (·.id != id) ++ [{ id := id, cls := cls, set := h, eff := n.effectiveFrame }] := rfl

/-- A record made, or replaced and moved to the end, keeps the staging list in order (R53, R54). -/
theorem StagingInOrder.handHalves {n : Node} (w : StagingInOrder n) (id : Nat) (cls : Class) (h : HalfSet) :
    StagingInOrder (n.handHalves id cls h) := by
  have hlead : n.cfg.lead ≤ 65535 := by have := w.lead; omega
  have hnow : n.leadNow ≤ 64 := by
    rcases n.leadNow_cases with he | ⟨r, hr, he⟩
    · exact he ▸ w.lead.2
    · exact he ▸ w.far r hr
  have hle := n.lead_le_leadNow
  have hmin := w.lead.1
  constructor
  case lead => exact w.lead
  case once =>
    rw [Node.handHalves_staging]
    refine List.pairwise_append.2 ⟨w.once.filter _, List.pairwise_singleton _ _, fun r hr e he => ?_⟩
    rw [List.mem_singleton.1 he]
    simpa using (List.mem_filter.1 hr).2
  case order =>
    rw [Node.handHalves_staging]
    refine List.pairwise_append.2 ⟨w.order.filter _, List.pairwise_singleton _ _, fun r hr e he => ?_⟩
    rw [List.mem_singleton.1 he]
    exact (n.ahead_le_leadNow (List.mem_filter.1 hr).1).trans_eq (Node.ahead_effectiveFrame hlead).symm
  case far =>
    intro r hr
    rcases List.mem_append.1 hr with hr | hr
    · exact w.far r (List.mem_filter.1 hr).1
    · rw [List.mem_singleton.1 hr]
      exact (Node.ahead_effectiveFrame hlead).trans_le hnow
  case due =>
    intro hs r hr
    rcases List.mem_append.1 hr with hr | hr
    · exact w.due hs r (List.mem_filter.1 hr).1
    · rw [List.mem_singleton.1 hr]
      exact (show 1 ≤ n.leadNow by omega).trans_eq (Node.ahead_effectiveFrame hlead).symm

/-- The order of the staging list turns on the settings, the clock and the list alone. -/
theorem StagingInOrder.congr {n m : Node} (w : StagingInOrder n) (hcfg : m.cfg = n.cfg) (hclk : m.clk = n.clk)
    (hst : m.cs.staging = n.cs.staging) : StagingInOrder m := by
  obtain ⟨hlead, honce, horder, hfar, hdue⟩ := w
  constructor
  all_goals simp only [hcfg, hclk, hst]
  all_goals assumption

/-! ## What may hand half sets over -/

/-- What the admission unit and the call controller may do to the cell switch: half sets are handed over, and the live map stays. -/
structure Node.Hands (n m : Node) : Prop where
  clk : m.clk = n.clk
  cfg : m.cfg = n.cfg
  live : m.cs.live = n.cs.live
  staging : StagingInOrder n → StagingInOrder m

namespace Node.Hands

theorem refl (n : Node) : n.Hands n := ⟨rfl, rfl, rfl, id⟩
theorem trans {a b c : Node} (h : a.Hands b) (k : b.Hands c) : a.Hands c :=
  ⟨k.clk.trans h.clk, k.cfg.trans h.cfg, k.live.trans h.live, fun w => k.staging (h.staging w)⟩
theorem ite {n a b : Node} {c : Prop} [Decidable c] (ha : n.Hands a) (hb : n.Hands b) : n.Hands (if c then a else b) := by
  split
  · exact ha
  · exact hb
theorem foldl {α : Type} (f : Node → α → Node) (hf : ∀ (n : Node) (x : α), n.Hands (f n x)) (l : List α) (n : Node) :
    n.Hands (l.foldl f n) := by
  induction l generalizing n with
  | nil => exact refl n
  | cons x l ih => exact (hf n x).trans (ih _)
/-- What leaves clock, settings, live map and staging list alone hands nothing over. -/
theorem of_same {n m : Node} (hclk : m.clk = n.clk) (hcfg : m.cfg = n.cfg) (hlive : m.cs.live = n.cs.live)
    (hst : m.cs.staging = n.cs.staging) : n.Hands m := ⟨hclk, hcfg, hlive, fun w => w.congr hcfg hclk hst⟩

end Node.Hands

open Node.Hands

theorem Node.Engines.hands {n m : Node} (h : n.Engines m) : n.Hands m :=
  of_same h.clk h.cfg (by rw [h.cs]) (by rw [h.cs])
theorem Node.Lines.hands {n m : Node} (h : n.Lines m) : n.Hands m := of_same h.clk h.cfg h.live h.staging
theorem Node.handHalves_hands (n : Node) (id : Nat) (cls : Class) (h : HalfSet) : n.Hands (n.handHalves id cls h) :=
  ⟨rfl, rfl, rfl, fun w => w.handHalves id cls h⟩
theorem Node.report_hands (n : Node) (b : ReportBody) : n.Hands (n.report b) := (n.report_engines b).hands
/-- The tables of the admission unit and the calls are no part of the cell switch. -/
theorem Node.hands_of_blocks (n : Node) (au : Admission) (cc : Calls) : n.Hands { n with au := au, cc := cc } :=
  of_same rfl rfl rfl rfl
theorem Node.modPhone_hands (n : Node) (p : Fin 8) (f : Phone → Phone) : n.Hands (n.modPhone p f) := n.hands_of_blocks _ _
theorem Node.setPhone_hands (n : Node) (p : Fin 8) (ph : Phone) : n.Hands (n.setPhone p ph) := n.hands_of_blocks _ _

/-! ## Admission unit -/

theorem Node.takeCells_hands (n : Node) (v : Service) (cells : List Nat) : n.Hands (n.takeCells v cells) :=
  (n.hands_of_blocks _ _).trans (Node.handHalves_hands _ _ _ _)
theorem Node.freeHalves_hands (n : Node) (v : Service) : n.Hands (n.freeHalves v) := n.hands_of_blocks _ _
theorem Node.svcEventOf_hands (n : Node) (id : Nat) (old : Option SvcState) (c : SvcCause) : n.Hands (n.svcEventOf id old c) := by
  unfold Node.svcEventOf; split
  · exact n.report_hands _
  · exact refl n
/-- Cells taken and the change reported. -/
theorem Node.takeCells_event_hands (n : Node) (v : Service) (cells : List Nat) (id : Nat) (old : Option SvcState) (c : SvcCause) :
    n.Hands ((n.takeCells v cells).svcEventOf id old c) := (n.takeCells_hands _ _).trans (Node.svcEventOf_hands _ _ _ _)
theorem Node.shed_hands (n : Node) (v : Service) (why : ShedReason) : n.Hands (n.shed v why) :=
  (((n.hands_of_blocks _ _).trans (Node.handHalves_hands _ _ _ _)).trans (Node.report_hands _ _)).trans
    (Node.transferShed_engines _ _).hands
theorem Node.shedId_hands (n : Node) (id : Nat) (why : ShedReason) : n.Hands (n.shedId id why) := by
  unfold Node.shedId; split
  · exact n.shed_hands _ _
  · exact refl n
theorem Node.preemptCells_hands {n : Node} {v : Service} {x : Side} {g : Nat} {r : Node × List Nat}
    (h : n.preemptCells v x g = some r) : n.Hands r.1 := by
  unfold Node.preemptCells at h
  dsimp only at h
  split at h
  · cases h; exact foldl _ (fun m id => m.shedId_hands id _) _ _
  · cases h
theorem Node.attempt_hands {n : Node} {v : Service} {x : Side} {t : Attempt} {r : Room} (h : n.attempt v x t = some r) :
    n.Hands r.node := by
  unfold Node.attempt at h
  split at h
  · split at h
    · obtain ⟨q, hq, rfl⟩ := Option.map_eq_some_iff.1 h
      exact Node.preemptCells_hands hq
    · cases h
  · obtain ⟨q, -, rfl⟩ := Option.map_eq_some_iff.1 h
    exact refl n
theorem Node.attempts_hands {n : Node} {v : Service} {x : Side} {l : List Attempt} {r : Room}
    (h : n.attempts v x l = some r) : n.Hands r.node := by
  obtain ⟨t, -, ht⟩ := List.exists_of_findSome?_eq_some h
  exact Node.attempt_hands ht
theorem Node.placeNew_hands {n : Node} {r : Room} (h : n.Hands r.node) (v : Service) (x : Side) :
    n.Hands (Node.placeNew r v x) := (h.trans (Node.hands_of_blocks _ _ _)).trans (Node.takeCells_hands _ _ _)
theorem Node.callPlacement_hands {n m : Node} {p : Fin 8} (h : n.callPlacement p = some m) : n.Hands m := by
  unfold Node.callPlacement at h
  obtain ⟨r, hr, rfl⟩ := Option.map_eq_some_iff.1 h
  exact (Node.placeNew_hands (Node.attempts_hands hr) _ _).trans (Node.svcEventOf_hands _ _ _ _)
theorem Node.callEvent_hands (n : Node) (p : Fin 8) (old : CallState) (o : CallOutcome) : n.Hands (n.callEvent p old o) :=
  n.report_hands _
theorem Node.openCall_hands (n : Node) (p : Fin 8) : n.Hands (n.openCall p) :=
  (n.hands_of_blocks _ _).trans (Node.callEvent_hands _ _ _ _)

/-! ## The restoration pass -/

theorem passCalls_hands (l : List (Fin 8)) (q : Pass) : q.node.Hands (passCalls l q).node := by
  induction l generalizing q with
  | nil => exact refl _
  | cons p l ih =>
    unfold passCalls; split
    · rename_i m hm
      exact ((Node.callPlacement_hands hm).trans (Node.openCall_hands _ _)).trans
        (ih { q with node := m.openCall p, placed := q.placed + 1 })
    · exact refl _
theorem Pass.restore_hands (q : Pass) (id : Nat) : q.node.Hands (q.restore id).node := by
  unfold Pass.restore
  split
  · exact refl _
  · split
    · exact refl _
    · split
      · exact refl _
      · split
        · exact refl _
        · rename_i r hr
          exact (((Node.placeNew_hands (Node.attempts_hands hr) _ _).trans (Node.svcEventOf_hands _ _ _ _)).trans
            (Node.transferPlaced_engines _ _).hands).trans (Node.weatherPlaced_engines _ _).hands
theorem Pass.grow_hands (q : Pass) (id : Nat) : q.node.Hands (q.grow id).node := by
  unfold Pass.grow
  split
  · exact refl _
  · split
    · exact refl _
    · exact Node.takeCells_event_hands _ _ _ _ _ _
theorem Node.moveHome_hands {n m : Node} {v : Service} (h : n.moveHome v = some m) : n.Hands m := by
  obtain ⟨cs, -, rfl⟩ := Option.map_eq_some_iff.1 h
  exact Node.takeCells_event_hands _ _ _ _ _ _
theorem Pass.home_hands (q : Pass) (id : Nat) : q.node.Hands (q.home id).node := by
  unfold Pass.home; split
  · rename_i m hm
    obtain ⟨v, -, hv⟩ := Option.bind_eq_some_iff.1 hm
    exact Node.moveHome_hands hv
  · exact refl _
theorem Pass.foldl_hands {α : Type} (f : Pass → α → Pass) (hf : ∀ (q : Pass) (x : α), q.node.Hands (f q x).node) (l : List α)
    (q : Pass) : q.node.Hands (l.foldl f q).node := by
  induction l generalizing q with
  | nil => exact refl _
  | cons x l ih => exact (hf q x).trans (ih _)
theorem Pass.steps_hands (q : Pass) : q.node.Hands q.steps.node :=
  (((passCalls_hands _ { q with moved := false }).trans (Pass.foldl_hands _ Pass.restore_hands _ _)).trans
    (Pass.foldl_hands _ Pass.grow_hands _ _)).trans (Pass.foldl_hands _ Pass.home_hands _ _)
theorem passLoop_hands (fuel : Nat) (q : Pass) : q.node.Hands (passLoop fuel q).node := by
  induction fuel generalizing q with
  | zero => exact refl _
  | succ fuel ih =>
    unfold passLoop
    dsimp only
    split
    · exact q.steps_hands.trans (ih _)
    · exact q.steps_hands
theorem Node.pass_hands (n : Node) : n.Hands n.pass := passLoop_hands _ { node := n }

/-! ## Reroute, revert, definition, release -/

theorem Node.rerouteOne_hands (n : Node) (x : Side) (id : Nat) : n.Hands (n.rerouteOne x id) := by
  unfold Node.rerouteOne
  split
  · exact refl n
  · rename_i v _
    have hshed (w : Service) : n.Hands ((n.freeHalves v).shed w .pathLost) :=
      (n.freeHalves_hands v).trans (Node.shed_hands _ _ _)
    dsimp only
    split
    · split
      · rename_i r hr
        exact ((n.freeHalves_hands v).trans (Node.attempts_hands hr)).trans (Node.takeCells_event_hands _ _ _ _ _ _)
      · exact hshed _
    · exact hshed _
theorem Node.reroute_hands (n : Node) (x : Side) : n.Hands (n.reroute x) :=
  ite (refl n) ((foldl _ (fun n id => n.rerouteOne_hands x id) _ _).trans (Node.pass_hands _))
theorem Node.revertOne_hands (n : Node) (id : Nat) : n.Hands (n.revertOne id) := by
  unfold Node.revertOne; split
  · exact refl n
  · rename_i v _
    cases h : n.moveHome v with
    | some m => exact Node.moveHome_hands h
    | none => exact n.report_hands _
theorem Node.revert_hands (n : Node) (x : Side) : n.Hands (n.revert x) :=
  (foldl _ Node.revertOne_hands _ _).trans (Node.pass_hands _)
theorem Node.defineShed_hands (n : Node) (v : Service) (why : ShedReason) : n.Hands (n.defineShed v why) :=
  of_same rfl rfl rfl rfl
theorem Node.define_hands {n m : Node} {v : Service} (h : n.define v = some m) : n.Hands m := by
  unfold Node.define at h
  split at h
  · cases h; exact n.defineShed_hands _ _
  · split at h
    · cases h; exact n.defineShed_hands _ _
    · split at h
      · rename_i r hr
        cases h
        exact ((Node.placeNew_hands (Node.attempts_hands hr) _ _).trans (Node.openPe_engines _ _).hands).trans
          (Node.svcEventOf_hands _ _ _ _)
      · split at h
        · cases h; exact n.defineShed_hands _ _
        · cases h
theorem Node.release_hands (n : Node) (v : Service) : n.Hands (n.release v) := by
  unfold Node.release
  refine Node.Hands.trans ?_ (Node.resumeIf_engines _ _).hands
  refine Node.Hands.trans ?_ (Node.pass_hands _)
  refine Node.Hands.trans ?_ (Node.report_hands _ _)
  refine Node.Hands.trans ?_ (Node.hands_of_blocks _ _ _)
  refine Node.Hands.trans ?_ (Node.unbind_engines _ _).hands
  exact ite (refl n) ((n.freeHalves_hands v).trans (Node.handHalves_hands _ _ _ _))

/-! ## Calls -/

theorem Node.callerCall_hands (n : Node) (p : Fin 8) : n.Hands (n.callerCall p) := by
  unfold Node.callerCall; split
  · rename_i m hm; exact (Node.callPlacement_hands hm).trans (Node.openCall_hands _ _)
  · exact (n.hands_of_blocks _ _).trans (Node.callEvent_hands _ _ _ _)
theorem Node.testCaller_hands (n : Node) (p : Fin 8) : n.Hands (n.testCaller p) := ite (n.callerCall_hands p) (refl n)
theorem Node.enterIdle_hands (n : Node) (p : Fin 8) (o : CallOutcome) : n.Hands (n.enterIdle p o) :=
  ((n.hands_of_blocks _ _).trans (Node.callEvent_hands _ _ _ _)).trans (Node.testCaller_hands _ _)
theorem Node.guardEnd_hands (n : Node) (p : Fin 8) : n.Hands (n.guardEnd p) := by
  unfold Node.guardEnd
  refine Node.Hands.trans ?_ (Node.enterIdle_hands _ _ _)
  split
  · exact n.release_hands _
  · exact refl n
theorem Node.phoneEvent_hands (n : Node) (p : Fin 8) (f : Phone → Phone) (old : CallState) (o : CallOutcome) :
    n.Hands ((n.modPhone p f).callEvent p old o) := (n.modPhone_hands _ _).trans (Node.callEvent_hands _ _ _ _)
theorem Node.enterClearing_hands (n : Node) (p : Fin 8) (o : CallOutcome) : n.Hands (n.enterClearing p o) :=
  ite ((n.phoneEvent_hands _ _ _ _).trans (Node.guardEnd_hands _ _)) (n.phoneEvent_hands _ _ _ _)
theorem Node.enterAnswered_hands (n : Node) (p : Fin 8) (o : CallOutcome) : n.Hands (n.enterAnswered p o) :=
  n.phoneEvent_hands _ _ _ _
theorem Node.enterHeld_hands (n : Node) (p : Fin 8) : n.Hands (n.enterHeld p) := n.phoneEvent_hands _ _ _ _
theorem Node.testFlash_hands (n : Node) (p : Fin 8) : n.Hands (n.testFlash p) := by
  refine ite ?_ (refl n)
  split
  · exact n.phoneEvent_hands _ _ _ _
  · exact n.phoneEvent_hands _ _ _ _
  · exact n.phoneEvent_hands _ _ _ _
  · exact n.modPhone_hands _ _
theorem Node.offHook_hands (n : Node) (p : Fin 8) : n.Hands (n.offHook p) := by
  refine (n.modPhone_hands p fun ph => { ph with hook := .offHook, hookDue := false }).trans ?_
  unfold Node.offHook
  dsimp only
  split
  · exact Node.testCaller_hands _ _
  · exact Node.enterAnswered_hands _ _ _
  · exact Node.enterAnswered_hands _ _ _
  · exact refl _
theorem Node.onHook_hands (n : Node) (p : Fin 8) : n.Hands (n.onHook p) := by
  refine (n.modPhone_hands p fun ph => { ph with hook := .onHook, hookDue := false, clearLock := false }).trans ?_
  unfold Node.onHook
  dsimp only
  split
  · exact Node.enterIdle_hands _ _ _
  · exact ite (Node.enterHeld_hands _ _) (Node.enterClearing_hands _ _ _)
  · exact ite (Node.enterHeld_hands _ _) (Node.enterClearing_hands _ _ _)
  · exact refl _
theorem Node.hookEvent_hands (n : Node) (p : Fin 8) : n.Hands (n.hookEvent p) := by
  unfold Node.hookEvent
  refine ite ?_ (refl n)
  split
  · exact n.offHook_hands p
  · exact n.onHook_hands p
theorem Node.acceptEvent_hands (n : Node) (p : Fin 8) : n.Hands (n.acceptEvent p) :=
  ite (((n.hookEvent_hands p).trans (Node.modPhone_hands _ _ _)).trans (ite (Node.testFlash_hands _ _) (refl _))) (refl n)
theorem Node.cadenceEvent_hands (n : Node) (p : Fin 8) : n.Hands (n.cadenceEvent p) := n.modPhone_hands _ _
theorem Node.timerEvent_hands (n : Node) (p : Fin 8) : n.Hands (n.timerEvent p) := by
  unfold Node.timerEvent; split
  · exact n.enterClearing_hands _ _
  · exact n.enterClearing_hands _ _
  · exact n.guardEnd_hands _
  · exact refl n
theorem Node.settlePhone_hands (n : Node) (p : Fin 8) : n.Hands (n.settlePhone p) :=
  (((n.hookEvent_hands p).trans (Node.acceptEvent_hands _ _)).trans (Node.cadenceEvent_hands _ _)).trans
    (Node.timerEvent_hands _ _)
theorem Node.reselectCall_hands (n : Node) (p : Fin 8) : n.Hands (n.reselectCall p) := by
  unfold Node.reselectCall
  exact ite (ite (n.setPhone_hands _ _) ((n.setPhone_hands _ _).trans (Node.callEvent_hands _ _ _ _))) (refl n)
theorem Node.reselectCalls_hands (n : Node) : n.Hands n.reselectCalls := foldl _ Node.reselectCall_hands _ _
theorem Node.clearCall_hands (n : Node) (p : Fin 8) : n.Hands (n.clearCall p) :=
  (n.setPhone_hands p _).trans (ite (Node.enterIdle_hands _ _ _) (Node.enterClearing_hands _ _ _))
theorem Node.ringPhone_hands (n : Node) (p : Fin 8) : n.Hands (n.ringPhone p) := n.phoneEvent_hands _ _ _ _

end Sys2Proof.Machine
end

section
/-! SUPPORT. What each command can do to the node, said once over all commands: what every step keeps follows from a few facts
about it (`Node.Kept`). -/

namespace Sys2Proof.Machine

/-! ## The events of most commands -/

/-- What every event does but those of the clock, power-on, START, SET_NODE, SET_ALLOTMENT and the application of a record. -/
structure Node.Routine (n m : Node) : Prop where
  steady : n.Steady m
  hands : n.Hands m

namespace Node.Routine

theorem refl (n : Node) : n.Routine n := ⟨.refl n, .refl n⟩
theorem trans {a b c : Node} (h : a.Routine b) (k : b.Routine c) : a.Routine c :=
  ⟨h.steady.trans k.steady, h.hands.trans k.hands⟩
theorem ite {n a b : Node} {c : Prop} [Decidable c] (ha : n.Routine a) (hb : n.Routine b) : n.Routine (if c then a else b) := by
  split
  · exact ha
  · exact hb
theorem foldl {α : Type} (f : Node → α → Node) (hf : ∀ (n : Node) (x : α), n.Routine (f n x)) (l : List α) (n : Node) :
    n.Routine (l.foldl f n) :=
  ⟨.foldl f (fun n x => (hf n x).steady) l n, .foldl f (fun n x => (hf n x).hands) l n⟩

end Node.Routine

open Node.Routine

theorem Node.Lines.routine {n m : Node} (h : n.Lines m) : n.Routine m := ⟨h.steady, h.hands⟩
theorem Node.Traffic.routine {n m : Node} (h : n.Traffic m) (k : n.Hands m) : n.Routine m := ⟨h.steady, k⟩
theorem Node.report_routine (n : Node) (b : ReportBody) : n.Routine (n.report b) := (n.report_lines b).routine
theorem Node.pass_routine (n : Node) : n.Routine n.pass := n.pass_traffic.routine n.pass_hands
/-- The pass and its count of services placed are one run. -/
theorem Node.passCounted_routine (n : Node) : n.Routine n.passCounted.node := n.pass_routine
theorem Node.modPhone_routine (n : Node) (p : Fin 8) (f : Phone → Phone) : n.Routine (n.modPhone p f) :=
  (n.modPhone_traffic p f).routine (n.modPhone_hands p f)
/-- Calls, packet ports, transfers and stations are replaced. -/
theorem Node.routine_of_blocks (n : Node) (cc : Calls) (pe : PacketEngine) (pc : PollController) :
    n.Routine { n with cc := cc, pe := pe, pc := pc } :=
  (n.traffic_of_blocks n.au n.cs cc pe n.te pc rfl rfl rfl fun w => w).routine (.of_same rfl rfl rfl rfl)
/-- The class map or the economy flag is replaced. -/
theorem Node.routine_of_modes (n : Node) (map : ClassMap) (economy : Bool) :
    n.Routine { n with au := { n.au with map := map, economy := economy } } :=
  (n.traffic_of_blocks { n.au with map := map, economy := economy } n.cs n.cc n.pe n.te n.pc rfl rfl rfl fun w => w).routine
    (.of_same rfl rfl rfl rfl)

/-! ## Signals taken and due events -/

theorem Node.ccTakes_routine (n : Node) (g : PathSignal) : n.Routine (n.ccTakes g) := by
  refine ⟨n.ccTakes_steady g, .ite ?_ (.refl n)⟩
  exact (n.lines_of_parts n.line n.path n.timing { n.sig with cc := n.sig.cc.erase g }).hands.trans (Node.reselectCalls_hands _)
theorem Node.peTakes_routine (n : Node) (g : PathSignal) : n.Routine (n.peTakes g) := by
  refine ⟨n.peTakes_steady g, .ite ?_ (.refl n)⟩
  exact (n.lines_of_parts n.line n.path n.timing { n.sig with pe := n.sig.pe.erase g }).hands.trans
    (Node.reselectDual_engines _).hands
theorem Node.auTakes_routine (n : Node) (g : PathSignal) (f : Node → Node) (hf : ∀ m : Node, m.Routine (f m)) :
    n.Routine (n.auTakes g f) :=
  .ite ((n.lines_of_parts n.line n.path n.timing { n.sig with au := n.sig.au.erase g }).routine.trans (hf _)) (refl n)
theorem Node.reroute_routine (n : Node) (x : Side) : n.Routine (n.reroute x) := (n.reroute_traffic x).routine (n.reroute_hands x)
theorem Node.revert_routine (n : Node) (x : Side) : n.Routine (n.revert x) := (n.revert_traffic x).routine (n.revert_hands x)
theorem Node.takeAuSignal_routine (n : Node) (g : PathSignal) : n.Routine (n.takeAuSignal g) := by
  refine n.auTakes_routine g _ fun m => ?_
  cases g
  · exact m.reroute_routine _
  · exact m.revert_routine _
theorem Node.takeSignals_routine (n : Node) : n.Routine n.takeSignals :=
  ((foldl _ Node.takeAuSignal_routine _ _).trans (foldl _ Node.ccTakes_routine _ _)).trans (foldl _ Node.peTakes_routine _ _)
theorem Node.settle_hands (n : Node) : n.Hands n.settle := by
  unfold Node.settle
  refine Node.Hands.trans ?_ (.foldl _ (fun n k => (Node.stationDue_engines n k).hands) _ _)
  refine Node.Hands.trans ?_ (Node.cycleStart_engines _).hands
  refine Node.Hands.trans ?_ (Node.intervalEnd_engines _).hands
  refine Node.Hands.trans ?_ (.foldl _ (fun n t => (Node.stateTimerEnd_engines n t).hands) _ _)
  refine Node.Hands.trans ?_ (Node.takeSignals_routine _).hands
  refine Node.Hands.trans ?_ (Node.timingRevert_lines _).hands
  exact (((((((((n.settleLine_lines _).trans (Node.settleLine_lines _ _)).trans (Node.periodicDue_lines _ _)).trans
    (Node.periodicDue_lines _ _)).trans (Node.holdOffEnd_lines _ _)).trans (Node.holdOffEnd_lines _ _)).trans
    (Node.wtrEnd_lines _ _)).trans (Node.wtrEnd_lines _ _))).hands
theorem Node.settle_routine (n : Node) : n.Routine n.settle := ⟨n.settle_steady, n.settle_hands⟩

/-! ## The receiver and the tick -/

theorem State.gapEnd_routine (s : State) : s.node.Routine s.gapEnd.node := by
  unfold State.gapEnd; split
  · split
    · exact s.node.report_routine _
    · exact refl _
  · exact refl _
theorem State.offerRequest_routine (s : State) (r : Request) (bs : List Byte) : s.node.Routine (s.offerRequest r bs).node := by
  unfold State.offerRequest; split
  · exact refl _
  · split
    · exact refl _
    · exact s.node.report_routine _
theorem State.frameByte_routine (s : State) (bs : List Byte) : s.node.Routine (s.frameByte bs).node := by
  unfold State.frameByte; split
  · exact s.node.report_routine _
  · split
    · split
      · exact s.offerRequest_routine _ _
      · exact s.node.report_routine _
    · exact refl _
theorem State.rxByte_routine (s : State) (b : Byte) : s.node.Routine (s.rxByte b).node := by
  refine s.gapEnd_routine.trans ?_
  unfold State.rxByte
  dsimp only
  split
  · split <;> exact refl _
  · exact State.frameByte_routine _ _
theorem State.rxByteIf_routine (s : State) (take : Bool) (b : Byte) : s.node.Routine (if take then s.rxByte b else s).node := by
  split
  · exact s.rxByte_routine b
  · exact refl _
theorem State.rxError_routine (s : State) : s.node.Routine s.rxError.node := by
  refine s.gapEnd_routine.trans ?_
  unfold State.rxError
  dsimp only
  split
  · exact refl _
  · exact Node.report_routine _ _
theorem State.changeRate_routine (s : State) (r : LinkRate) : s.node.Routine (s.changeRate r).node := by
  unfold State.changeRate; split
  · exact refl _
  · dsimp only
    split
    · exact refl _
    · exact Node.report_routine _ _
theorem State.settleTick_routine (s : State) : s.node.Routine s.settleTick.node := by
  have h : s.node.Hands (allPhones.foldl Node.settlePhone s.node).replyTimeout :=
    (Node.Hands.foldl _ Node.settlePhone_hands _ _).trans (Node.replyTimeout_engines _).hands
  refine ⟨s.settleTick_steady, ?_⟩
  unfold State.settleTick
  generalize (allPhones.foldl Node.settlePhone s.node).replyTimeout = m at h ⊢
  exact h.trans (State.gapEnd_routine { s with node := m }).hands

theorem State.settle_node (s : State) : s.settle.node = s.settleTick.msTick.settleTick.node.settle := by
  simp only [State.settle]

/-! ## The frame start and START -/

theorem Node.buildTrains_hands (n : Node) : n.Hands n.buildTrains.1 := n.buildTrains_engines.hands
theorem Node.beginFrame_lines (n : Node) (ts : List Train) (l : Line) : n.Lines (n.beginFrame ts l) := by
  unfold Node.beginFrame
  exact .ite (n.modLine_lines _ _) ((n.modSwitch_lines _ _).trans (Node.modLine_lines _ _ _))
theorem Node.frameStart_routine (n : Node) (voice : Vector CellVal 8) : n.applyDue.countFrame.Routine (n.frameStart voice) := by
  refine ⟨n.frameStart_steady voice, ?_⟩
  unfold Node.frameStart
  refine Node.Hands.trans ?_ (.foldl _ (fun n p => n.modPhone_hands p _) _ _)
  refine Node.Hands.trans ?_ (Node.readTrains_engines _).hands
  refine Node.Hands.trans ?_ (Node.beginFrame_lines _ _ _).hands
  refine Node.Hands.trans ?_ (Node.beginFrame_lines _ _ _).hands
  refine Node.Hands.trans ?_ (Node.buildTrains_hands _)
  exact ((Node.modSwitch_lines _ _ _).trans (Node.modSwitch_lines _ _ _)).hands

/-- What START sets of the node itself, before its lines, its blocks and its pass (R195 steps 1 to 3). -/
def Node.startValues (n : Node) : Node :=
  { n with
    op := .running, runTime := 0
    au := { n.au with admCounter := 0, shedCounter := 0, services := n.au.services.map Service.renumber }
    cs := { n.cs with conflicts := 0, conflictAge := none } }
theorem Node.startLine_lines (n : Node) (l : Line) : n.Lines (n.startLine l) := .ite (n.enableLine_lines l) (.refl n)
theorem Node.start_routine (n : Node) : n.startValues.Routine n.start := by
  unfold Node.start
  refine Node.Routine.trans ?_ (Node.pass_routine _)
  exact ((n.startValues.startLine_lines .u).trans (Node.startLine_lines _ .d)).routine.trans (Node.routine_of_blocks _ _ _ _)

/-! ## Requests -/

theorem checked_routine {n : Node} {checks : List (Bool × Reply)} {a : Answer} (h : n.Routine a.node) :
    n.Routine (checked n checks a).node := by
  rcases checked_cases n checks a with ⟨r, -, he⟩ | ⟨-, he⟩
  · rw [he]; exact refl n
  · rw [he]; exact h
theorem ownSetLink_routine (k : Link) (b : List Byte) (n : Node) : n.Routine (ownSetLink k b n).node := by
  refine checked_routine ?_
  split <;> exact refl n
theorem ownDefineService_routine (k : Link) (b : List Byte) (n : Node) : n.Routine (ownDefineService k b n).node := by
  refine checked_routine ?_
  dsimp only
  split
  · exact refl n
  · rename_i m hm; exact (Node.define_traffic hm).routine (Node.define_hands hm)
theorem ownReleaseService_routine (k : Link) (b : List Byte) (n : Node) : n.Routine (ownReleaseService k b n).node := by
  refine checked_routine ?_
  dsimp only
  split
  · rename_i v _; exact (n.release_traffic v).routine (n.release_hands v)
  · exact refl n
theorem ownSetLevels_routine (k : Link) (b : List Byte) (n : Node) : n.Routine (ownSetLevels k b n).node := by
  refine checked_routine ((n.routine_of_modes (classMapOf b) n.au.economy).trans ?_)
  exact .ite (Node.pass_routine _) (refl _)
theorem Node.setEconomy_routine (n : Node) (on : Bool) : n.Routine (n.setEconomy on) := n.routine_of_modes n.au.map on
theorem Node.enterEconomy_routine (n : Node) : n.Routine n.enterEconomy := by
  have h : n.Routine (((byVictim (n.placed.filter fun v => decide (2 ≤ v.level))).map (·.id)).foldl
      (fun m id => m.shedId id .economy) (n.setEconomy true)) :=
    (n.setEconomy_routine true).trans
      (foldl _ (fun m id => (m.shedId_traffic id _).routine (m.shedId_hands id _)) _ _)
  exact .ite h (h.trans (Node.pass_routine _))
theorem ownEconomyEnter_routine (k : Link) (b : List Byte) (n : Node) : n.Routine (ownEconomyEnter k b n).node := by
  refine checked_routine ?_
  split
  · exact refl n
  · exact n.enterEconomy_routine
theorem ownEconomyLeave_routine (k : Link) (b : List Byte) (n : Node) : n.Routine (ownEconomyLeave k b n).node := by
  refine checked_routine ?_
  split
  · dsimp only
    exact (n.setEconomy_routine false).trans (n.setEconomy false).passCounted_routine
  · exact refl n
theorem ownLineSet_routine (k : Link) (b : List Byte) (n : Node) : n.Routine (ownLineSet k b n).node := by
  refine checked_routine ?_
  dsimp only
  exact Node.Lines.routine ((n.modLine_lines _ _).trans (Node.enableAsSet_lines (n.modLine _ _) _))
theorem ownCallRing_routine (k : Link) (b : List Byte) (n : Node) : n.Routine (ownCallRing k b n).node := by
  refine checked_routine ?_
  split
  · rename_i m hm
    exact ((Node.callPlacement_traffic hm).trans (m.ringPhone_traffic _)).routine
      ((Node.callPlacement_hands hm).trans (m.ringPhone_hands _))
  · exact refl n
theorem ownPollSet_routine (k : Link) (b : List Byte) (n : Node) : n.Routine (ownPollSet k b n).node := by
  refine checked_routine ((n.routine_of_blocks n.cc n.pe (n.pc.configure b (n.op == OpState.running))).trans ?_)
  exact .ite ((Node.catchUp_traffic _).routine (Node.catchUp_engines _).hands) (refl _)

section owners
variable (value : Bool) (k : Link) (b : List Byte) (n : Node)

theorem ownMarginScan_routine : n.Routine (ownMarginScan k b n).node := by
  refine checked_routine ?_
  exact (n.startScan_lines _ _).routine
theorem ownPathForceSet_routine : n.Routine (ownPathForceSet k b n).node := by
  refine checked_routine ?_
  exact (n.forceOut_lines _).routine
theorem ownPathForceClear_routine : n.Routine (ownPathForceClear k b n).node := by
  refine checked_routine ?_
  exact (n.forceClear_lines _).routine
theorem ownPhoneSetPort_routine : n.Routine (ownPhoneSetPort k b n).node := by
  refine checked_routine ?_
  dsimp only
  exact n.modPhone_routine _ _
theorem ownPhoneSetCommon_routine : n.Routine (ownPhoneSetCommon k b n).node := by
  refine checked_routine ?_
  exact n.routine_of_blocks { n.cc with common := commonOf b } n.pe n.pc
theorem ownCallAnswer_routine : n.Routine (ownCallAnswer k b n).node := by
  refine checked_routine ?_
  exact (n.enterAnswered_traffic _ _).routine (n.enterAnswered_hands _ _)
theorem ownCallHold_routine : n.Routine (ownCallHold value k b n).node := by
  refine checked_routine ?_
  dsimp only [callAnswer]
  exact n.modPhone_routine _ _
theorem ownCallClear_routine : n.Routine (ownCallClear k b n).node := by
  refine checked_routine ?_
  exact (n.clearCall_traffic _).routine (n.clearCall_hands _)
theorem ownRingTest_routine : n.Routine (ownRingTest value k b n).node := by
  refine checked_routine ?_
  dsimp only
  exact n.modPhone_routine _ _
theorem ownPacketPortSet_routine : n.Routine (ownPacketPortSet k b n).node := by
  refine checked_routine ?_
  exact ((n.modPort_traffic _ _).trans (Node.readyOn_traffic _ _)).routine
    ((n.modPort_engines _ _).trans (Node.readyOn_engines _ _)).hands
theorem ownTransferOpen_routine : n.Routine (ownTransferOpen k b n).node := by
  refine checked_routine ?_
  exact ((n.transferTo_traffic _ _ _ _).trans (Node.offerState_traffic _ _)).routine
    (n.transferOffered_engines _ _ _ _).hands
theorem ownTransferAbort_routine : n.Routine (ownTransferAbort k b n).node := by
  refine checked_routine ?_
  exact (n.hostAbort_traffic _).routine (n.hostAbort_engines _).hands
theorem ownStationSet_routine : n.Routine (ownStationSet k b n).node := by
  refine checked_routine ?_
  exact (n.setStationEntry_traffic _ _ _ _).routine (n.setStationEntry_engines _ _ _ _).hands

end owners

/-! ## What every step keeps -/

/-- The facts about a predicate of the node by which every step keeps it. -/
structure Node.Kept (P : Node → Prop) : Prop where
  powerOn : ∀ n : Node, P n.powerOn
  routine : ∀ {n m : Node}, n.Routine m → P n → P m
  pins : ∀ (n : Node) (q : Pins), P n → P { n with pins := q }
  reports : ∀ (n : Node) (r : Reports), r.queue = n.reports.queue.tail → P n → P { n with reports := r }
  stagingApply : ∀ n : Node, P n → P n.stagingApply
  countFrame : ∀ n : Node, P n → P n.applyDue.countFrame
  tick : ∀ n : Node, P n → P n.tick
  start : ∀ n : Node, P n → P n.startValues
  settings : ∀ (n : Node) (c : Settings), 4 ≤ c.lead → c.lead ≤ 64 → P n → P { n with cfg := c }
  add : ∀ (n : Node) (cells : List Nat), (∀ c ∈ cells, c < 936) → P n → P (n.addCells cells)
  remove : ∀ (n : Node) (cells : List Nat), P n → P (n.removeCells cells)

/-- A cell number above 935 is named by its position, and without one every cell number is in range. -/
theorem lt_of_wrongCell {cells : List Nat} (h : (wrongCell cells).isSome = false) : ∀ c ∈ cells, c < 936 := by
  intro c hc
  have hnone : wrongCell cells = none := by simpa using h
  exact Nat.not_le.1 (of_decide_eq_false (List.findIdx?_eq_none_iff.1 hnone c hc))

/-- What holds of the node, and of the node that an event leaves, holds after the event whether the part is held or not. -/
theorem unlessHeld_keeps {P : Node → Prop} {s t : State} {f : State → State} (h : unlessHeld s f = .next t) (hs : P s.node)
    (hf : P (f s).node) : P t.node := by
  cases hr : s.node.pins.resetLow with
  | true => rw [unlessHeld_held s f hr] at h; cases h; exact hs
  | false => rw [unlessHeld_awake s f hr] at h; cases h; rw [State.kick_node]; exact hf

namespace Node.Kept

variable {P : Node → Prop} {s t : State}

theorem onNode {f : Node → Node} (hf : ∀ n, P n → P (f n)) (h : Machine.onNode s f = .next t) (hs : P s.node) : P t.node :=
  unlessHeld_keeps h hs (hf _ hs)
theorem handle {mine : Request → Bool} {own : Link → List Byte → Node → Answer}
    (ho : ∀ k b n, P n → P (own k b n).node) (h : Machine.handle s mine own = .next t) (hs : P s.node) : P t.node := by
  refine unlessHeld_keeps h hs ?_
  dsimp only
  split
  · split
    · exact ho _ _ _ hs
    · exact hs
  · exact hs

variable (hP : Node.Kept P)
include hP

/-- An event of the blocks of the routine kind. -/
theorem event {f : Node → Node} (hf : ∀ n : Node, n.Routine (f n)) (h : Machine.onNode s f = .next t) (hs : P s.node) :
    P t.node := Node.Kept.onNode (fun n => hP.routine (hf n)) h hs
/-- An event behind the lines, and one of the packet engine, the transfer engine or the poll controller. -/
theorem traffic {f : Node → Node} (ht : ∀ n : Node, n.Traffic (f n)) (hh : ∀ n : Node, n.Hands (f n))
    (h : Machine.onNode s f = .next t) (hs : P s.node) : P t.node := hP.event (fun n => (ht n).routine (hh n)) h hs
theorem engines {f : Node → Node} (ht : ∀ n : Node, n.Traffic (f n)) (he : ∀ n : Node, n.Engines (f n))
    (h : Machine.onNode s f = .next t) (hs : P s.node) : P t.node := hP.traffic ht (fun n => (he n).hands) h hs
/-- An event of the lines and paths. -/
theorem lines {f : Node → Node} (hf : ∀ n : Node, n.Lines (f n)) (h : Machine.onNode s f = .next t) (hs : P s.node) :
    P t.node := hP.event (fun n => (hf n).routine) h hs
/-- An event of the management link. -/
theorem link {f : State → State} (hf : ∀ s : State, Node.Routine s.node (f s).node) (h : Machine.unlessHeld s f = .next t)
    (hs : P s.node) : P t.node := unlessHeld_keeps h hs (hP.routine (hf s) hs)
/-- A request whose owner is of the routine kind. -/
theorem request {mine : Request → Bool} {own : Link → List Byte → Node → Answer}
    (ho : ∀ k b n, Node.Routine n (own k b n).node) (h : Machine.handle s mine own = .next t) (hs : P s.node) : P t.node :=
  Node.Kept.handle (fun k b n => hP.routine (ho k b n)) h hs

theorem msTick (hs : P s.node) : P s.msTick.node := by
  unfold State.msTick
  split
  · exact hP.tick _ (hP.routine s.settleTick_routine hs)
  · exact hs
theorem settle (hs : P s.node) : P s.settle.node := by
  have hfirst : P s.settleTick.node := hP.routine s.settleTick_routine hs
  have htick : P s.settleTick.msTick.node := hP.msTick hfirst
  have hlast : P s.settleTick.msTick.settleTick.node := hP.routine (State.settleTick_routine _) htick
  rw [State.settle_node]
  exact hP.routine (Node.settle_routine _) hlast
theorem replySent (hs : P s.node) : P s.replySent.node := by
  unfold State.replySent
  split
  · unfold State.afterReply
    dsimp only
    split
    · exact hs
    · exact hP.routine (State.changeRate_routine _ _) hs
    · exact hP.powerOn _
  · exact hs
  · exact hs
theorem reportSent (hs : P s.node) : P s.reportSent.node := by
  unfold State.reportSent
  split
  · exact hP.reports _ _ rfl hs
  · exact hs

end Node.Kept

end Sys2Proof.Machine
end

section
/-! SUPPORT. Every command, row by row: what each of them does to the node is one of the kinds of `Node.Kept`. -/

namespace Sys2Proof.Machine

namespace Node.Kept

open Node.Routine

variable {P : Node → Prop} (hP : Node.Kept P) {s t : State}
include hP

/-! ## Power-on and the inputs -/

theorem powerValues (low : Bool) : P (s.powerValues.setReset low).node :=
  hP.powerOn { s.node with pins := { s.node.pins with resetLow := low } }
theorem setPins (q : Pins) (hs : P s.node) : P (s.setPins q).node := hP.pins s.node q hs

/-! ## Requests that are more than routine -/

omit hP in
/-- A refused request leaves the node as it is, and an accepted one has passed every check. -/
theorem of_checked {n : Node} {checks : List (Bool × Reply)} {a : Answer} (h : P n)
    (ha : (∀ c ∈ checks, c.1 = false) → P a.node) : P (checked n checks a).node := by
  rcases checked_cases n checks a with ⟨r, -, he⟩ | ⟨hnone, he⟩
  · rw [he]; exact h
  · rw [he]; exact ha ((firstRefusal_eq_none _).1 hnone)

theorem start_request (k : Link) (b : List Byte) (n : Node) (h : P n) : P (ownStart k b n).node := by
  have hstart : P n.start := hP.routine n.start_routine (hP.start n h)
  unfold ownStart
  refine of_checked h fun _ => ?_
  dsimp only
  exact hstart
theorem applySettings {n : Node} {c : Settings} (hlow : 4 ≤ c.lead) (hhigh : c.lead ≤ 64) (h : P n) : P (n.applySettings c) := by
  have hreach : P (n.reachWith c) :=
    hP.routine ((Node.formReach_lines _ .a).trans (Node.formReach_lines _ .b)).routine (hP.settings n c hlow hhigh h)
  rw [Node.applySettings_eq]
  split
  · exact hreach
  · exact hP.routine (Node.timingRevert_lines _).routine hreach
theorem setNode_request (k : Link) (b : List Byte) (n : Node) (h : P n) : P (ownSetNode k b n).node := by
  refine of_checked h fun hchecks => ?_
  have hlead : outside (f1 b 8) 4 64 = false :=
    hchecks (_, badField 6) (List.mem_append_right _ (List.mem_of_getElem? (i := 6) rfl))
  simp only [outside, Bool.or_eq_false_iff, decide_eq_false_iff_not, Nat.not_lt] at hlead
  exact hP.applySettings hlead.1 hlead.2 h
theorem add_request (k : Link) (b : List Byte) (n : Node) (h : P n) : P (ownSetAllotmentAdd k b n).node := by
  refine of_checked h fun hchecks => ?_
  have hadd : P (n.addCells (allotmentCells b)) :=
    hP.add n _ (lt_of_wrongCell (hchecks _ (by unfold allotmentChecks; exact List.mem_of_getElem? (i := 4) rfl))) h
  dsimp only
  split
  · exact hadd
  · exact hP.routine (Node.pass_routine _) hadd
theorem remove_request (k : Link) (b : List Byte) (n : Node) (h : P n) : P (ownSetAllotmentRemove k b n).node := by
  refine of_checked h fun _ => ?_
  split
  · exact h
  · exact hP.remove n _ h

/-! ## The commands -/

/-- A request that only answers. -/
theorem answer {mine : Request → Bool} (own : Link → List Byte → Node → Answer) (ho : ∀ k b n, (own k b n).node = n)
    (h : Machine.handle s mine own = .next t) (hs : P s.node) : P t.node :=
  hP.request (fun k b n => (ho k b n).symm ▸ refl n) h hs
omit hP in
/-- A request that answers with the node as it is does so whether or not its checks are passed. -/
theorem checked_node {n : Node} {checks : List (Bool × Reply)} {reply : Reply} {after : After} :
    (checked n checks { node := n, reply := reply, after := after }).node = n := by
  rcases checked_cases n checks { node := n, reply := reply, after := after } with ⟨r, -, he⟩ | ⟨-, he⟩ <;> rw [he]

theorem exec (c : Instr) (h : Machine.exec c s = .next t) (hs : P s.node) : P t.node := by
  cases c with
  | powerOn => cases h; exact hP.powerOn s.node
  | resetInputLow => cases h; exact hP.powerValues true
  | resetInputRise => cases h; exact hP.powerValues false
  | frameStart voice =>
    have hframe : P (s.settle.node.frameStart voice) :=
      hP.routine (Node.frameStart_routine _ voice) (hP.countFrame _ (hP.settle hs))
    unfold Machine.exec execFrameStart at h
    refine unlessHeld_keeps h hs ?_
    dsimp only
    exact hframe
  | msTick loops => exact unlessHeld_keeps h (hP.setPins _ hs) (hP.msTick (hP.setPins _ hs))
  | stagingApply => exact Node.Kept.onNode hP.stagingApply h hs
  | lineHoldEnd l => exact hP.traffic (·.lineHoldEnd_traffic l) (fun n => .ite (n.modSwitch_lines _ _).hands (.refl n)) h hs
  | lineFrameReceived l p f d => exact hP.lines (·.lineFrame_lines l p f d) h hs
  | signalLost l pin => exact hP.lines (·.signalGone_lines l) h (hP.setPins _ hs)
  | signalReturned l pin => exact hP.event Node.Routine.refl h (hP.setPins _ hs)
  | errorWindowEnd l => exact hP.lines (·.windowEnd_lines l) h hs
  | presetConfirmTimeout l => exact hP.lines (·.confirmTimeout_lines l) h hs
  | settleFramesEnd l => exact hP.lines (·.settleEnd_lines l) h hs
  | marginPositionDone l => exact hP.lines (·.positionDone_lines l) h hs
  | trainingRetry l => exact hP.lines (·.retryEnd_lines l) h hs
  | periodicScanDue l => exact hP.lines (·.periodicDue_lines l) h hs
  | holdOffExpired x => exact hP.lines (·.holdOffEnd_lines x) h hs
  | wtrExpired x => exact hP.lines (·.wtrEnd_lines x) h hs
  | timingRevert => exact hP.lines Node.timingRevert_lines h hs
  | pathLostReroute x => exact hP.event (·.auTakes_routine (.lost x) _ (·.reroute_routine x)) h hs
  | pathRestoredRevert x => exact hP.event (·.auTakes_routine (.restored x) _ (·.revert_routine x)) h hs
  | callReselect g => exact hP.event (·.ccTakes_routine g) h hs
  | dualReceiveReselect g => exact hP.event (·.peTakes_routine g) h hs
  | loopAcceptedRise p =>
    exact hP.traffic (fun n => .ite (.refl n) (n.acceptEvent_traffic p)) (fun n => .ite (.refl n) (n.acceptEvent_hands p)) h hs
  | loopAcceptedFall p =>
    exact hP.traffic (fun n => .ite (n.acceptEvent_traffic p) (.refl n)) (fun n => .ite (n.acceptEvent_hands p) (.refl n)) h hs
  | offHookConfirmed p =>
    exact hP.traffic (fun n => .ite (n.offHook_traffic p) (.refl n)) (fun n => .ite (n.offHook_hands p) (.refl n)) h hs
  | onHookConfirmed p =>
    exact hP.traffic (fun n => .ite (n.onHook_traffic p) (.refl n)) (fun n => .ite (n.onHook_hands p) (.refl n)) h hs
  | cadencePeriodStart p =>
    unfold Machine.exec execCadencePeriodStart at h
    refine hP.event (fun n => ?_) h hs
    split
    · exact ite (refl n) (n.modPhone_routine p _)
    · exact refl n
  | cadenceOffPhase p =>
    unfold Machine.exec execCadenceOffPhase at h
    refine hP.event (fun n => ?_) h hs
    split
    · exact ite (n.modPhone_routine p _) (refl n)
    · exact refl n
  | heldLimitExpired p =>
    exact hP.traffic (fun n => .ite (n.timerEvent_traffic p) (.refl n)) (fun n => .ite (n.timerEvent_hands p) (.refl n)) h hs
  | ringTimeoutExpired p =>
    exact hP.traffic (fun n => .ite (n.timerEvent_traffic p) (.refl n)) (fun n => .ite (n.timerEvent_hands p) (.refl n)) h hs
  | clearGuardExpired p =>
    exact hP.traffic (fun n => .ite (n.timerEvent_traffic p) (.refl n)) (fun n => .ite (n.timerEvent_hands p) (.refl n)) h hs
  | tributaryFrameReceived k f => exact hP.engines (·.tributaryIn_traffic k f) (·.tributaryIn_engines k f) h hs
  | tributaryFrameSent k => exact hP.engines (·.outputEnd_traffic k) (·.outputEnd_engines k) h hs
  | outputFrameBegin k => exact hP.engines (·.outputBegin_traffic k) (·.outputBegin_engines k) h hs
  | readyInputChange k level => exact hP.engines (·.readyOn_traffic k) (·.readyOn_engines k) h (hP.setPins _ hs)
  | stateFrameTimer x => exact hP.engines (·.stateTimerEnd_traffic x) (·.stateTimerEnd_engines x) h hs
  | countingIntervalEnd => exact hP.engines Node.intervalEnd_traffic Node.intervalEnd_engines h hs
  | pollCycleStart => exact hP.engines Node.cycleStart_traffic Node.cycleStart_engines h hs
  | stationDue k => exact hP.engines (·.stationDue_traffic k) (·.stationDue_engines k) h hs
  | pollTelegramSent => exact hP.engines Node.windowOpens_traffic Node.windowOpens_engines h hs
  | pollReplyStart => exact hP.engines Node.replyStart_traffic Node.replyStart_engines h hs
  | pollReplyTimeout => exact hP.engines Node.replyTimeout_traffic Node.replyTimeout_engines h hs
  | pollReplyEnd bs => exact hP.engines (·.replyEnd_traffic _) (·.replyEnd_engines _) h hs
  | pollReplyGap bs => exact hP.engines (·.replyEnd_traffic _) (·.replyEnd_engines _) h hs
  | lateReplyRunEnd => exact hP.event (fun n => ite (n.routine_of_blocks n.cc n.pe _) (refl n)) h hs
  | requestFrameReceived b => exact hP.link (fun s => s.rxByteIf_routine _ b) h hs
  | frameTooLong b => exact hP.link (fun s => s.rxByteIf_routine _ b) h hs
  | frameGap => exact hP.link State.gapEnd_routine h hs
  | frameByteError => exact hP.link State.rxError_routine h hs
  | replySent => exact unlessHeld_keeps h hs (hP.replySent hs)
  | reportSent => exact unlessHeld_keeps h hs (hP.reportSent hs)
  | linkByteReceived b low =>
    unfold Machine.exec execLinkByteReceived at h
    refine unlessHeld_keeps h hs ?_
    split
    · exact hP.routine s.rxError_routine hs
    · exact hP.routine (s.rxByte_routine b) hs
  | unknownKindRequest => exact hP.answer ownUnknown (fun _ _ _ => rfl) h hs
  | identify => exact hP.answer ownIdentify (fun _ _ _ => checked_node) h hs
  | setLink => exact hP.request ownSetLink_routine h hs
  | start => exact Node.Kept.handle hP.start_request h hs
  | reset => exact hP.answer ownReset (fun _ _ _ => checked_node) h hs
  | nodeStatus => exact hP.answer ownNodeStatus (fun _ _ _ => checked_node) h hs
  | setNode => exact Node.Kept.handle hP.setNode_request h hs
  | lineSet => exact hP.request ownLineSet_routine h hs
  | marginScan => exact hP.request ownMarginScan_routine h hs
  | lineStatus => exact hP.answer ownLineStatus (fun _ _ _ => checked_node) h hs
  | pathForceSet => exact hP.request ownPathForceSet_routine h hs
  | pathForceClear => exact hP.request ownPathForceClear_routine h hs
  | pathStatus => exact hP.answer ownPathStatus (fun _ _ _ => checked_node) h hs
  | setAllotmentAdd => exact Node.Kept.handle hP.add_request h hs
  | setAllotmentRemove => exact Node.Kept.handle hP.remove_request h hs
  | mapStatus => exact hP.answer ownMapStatus (fun _ _ _ => checked_node) h hs
  | setLevels => exact hP.request ownSetLevels_routine h hs
  | defineService => exact hP.request ownDefineService_routine h hs
  | releaseService => exact hP.request ownReleaseService_routine h hs
  | serviceStatusOne => exact hP.answer ownServiceStatusOne (fun _ _ _ => checked_node) h hs
  | serviceStatusSummary => exact hP.answer ownServiceStatusSummary (fun _ _ _ => checked_node) h hs
  | shedList => exact hP.answer ownShedList (fun _ _ _ => checked_node) h hs
  | economyEnter => exact hP.request ownEconomyEnter_routine h hs
  | economyLeave => exact hP.request ownEconomyLeave_routine h hs
  | phoneSetPort => exact hP.request ownPhoneSetPort_routine h hs
  | phoneSetCommon => exact hP.request ownPhoneSetCommon_routine h hs
  | callControlAnswer => exact hP.request ownCallAnswer_routine h hs
  | callControlHold => exact hP.request (ownCallHold_routine true) h hs
  | callControlUnhold => exact hP.request (ownCallHold_routine false) h hs
  | callControlClear => exact hP.request ownCallClear_routine h hs
  | callControlRing => exact hP.request ownCallRing_routine h hs
  | callStatus => exact hP.answer ownCallStatus (fun _ _ _ => checked_node) h hs
  | ringTestOn => exact hP.request (ownRingTest_routine true) h hs
  | ringTestOff => exact hP.request (ownRingTest_routine false) h hs
  | packetPortSet => exact hP.request ownPacketPortSet_routine h hs
  | portStatusPort => exact hP.answer ownPortStatusPort (fun _ _ _ => checked_node) h hs
  | portStatusService => exact hP.answer ownPortStatusService (fun _ _ _ => checked_node) h hs
  | transferOpen => exact hP.request ownTransferOpen_routine h hs
  | transferAbort => exact hP.request ownTransferAbort_routine h hs
  | transferStatusOne => exact hP.answer ownTransferStatusOne (fun _ _ _ => checked_node) h hs
  | transferStatusAll => exact hP.answer ownTransferStatusAll (fun _ _ _ => checked_node) h hs
  | pollSet => exact hP.request ownPollSet_routine h hs
  | stationSet => exact hP.request ownStationSet_routine h hs
  | stationRead => exact hP.answer ownStationRead (fun _ _ _ => checked_node) h hs

/-- What the facts of `Node.Kept` hold of is kept by every step. -/
theorem step (h : Machine.step s = .next t) (hs : P s.node) : P t.node := by
  unfold Machine.step at h
  split at h
  · cases h; exact hs
  · exact hP.exec (s := s.withPending _) _ h hs

end Node.Kept

end Sys2Proof.Machine
end

section
/-! SUPPORT. Cells allotted and removed (R47), and the tables kept in order by every step. -/

namespace Sys2Proof.Machine

/-! ## The cells of a map -/

theorem entryOf_isSome (m : List HalfEntry) (c : Nat) : (entryOf m c).isSome = true ↔ c ∈ m.map (·.cell) := by
  simp [entryOf]
theorem entryOf_eq_none (m : List HalfEntry) (c : Nat) : entryOf m c = none ↔ c ∉ m.map (·.cell) := by
  rw [← entryOf_isSome, Bool.not_eq_true, Option.isSome_eq_false_iff, Option.isNone_iff_eq_none]
theorem insertBy_cells (e : HalfEntry) (m : List HalfEntry) :
    (insertBy (fun x y => decide (x.cell ≤ y.cell)) e m).map (·.cell) =
      insertBy (fun x y => decide (x ≤ y)) e.cell (m.map (·.cell)) := by
  induction m with
  | nil => rfl
  | cons d m ih =>
    simp only [insertBy, List.map_cons]
    split
    · rfl
    · rw [List.map_cons, ih]
/-- Adding a cell looks at the cells of the map alone. -/
theorem addCell_cells (m : List HalfEntry) (c : Nat) : (addCell m c).map (·.cell) =
    if c ∈ m.map (·.cell) then m.map (·.cell) else insertBy (fun x y => decide (x ≤ y)) c (m.map (·.cell)) := by
  unfold addCell
  simp only [entryOf_isSome]
  split
  · rfl
  · exact insertBy_cells _ _
theorem removeCell_cells (m : List HalfEntry) (c : Nat) : (removeCell m c).map (·.cell) = (m.map (·.cell)).filter (· != c) := by
  simp [removeCell, List.filter_map, Function.comp_def]

/-- Two maps that list the same cells list the same cells after both have lost or gained some. -/
theorem addCells_cells_congr {x y : List HalfEntry} (h : x.map (·.cell) = y.map (·.cell)) (cells : List Nat) :
    (cells.foldl addCell x).map (·.cell) = (cells.foldl addCell y).map (·.cell) := by
  induction cells generalizing x y with
  | nil => exact h
  | cons c cells ih => exact ih (by rw [addCell_cells, addCell_cells, h])
theorem removeCells_cells_congr {x y : List HalfEntry} (h : x.map (·.cell) = y.map (·.cell)) (cells : List Nat) :
    (cells.foldl removeCell x).map (·.cell) = (cells.foldl removeCell y).map (·.cell) := by
  induction cells generalizing x y with
  | nil => exact h
  | cons c cells ih => exact ih (by rw [removeCell_cells, removeCell_cells, h])

/-! ## The order of a map -/

theorem addCell_ascending {m : List HalfEntry} (h : m.Pairwise (·.cell < ·.cell)) (c : Nat) :
    (addCell m c).Pairwise (·.cell < ·.cell) := by
  unfold addCell
  split
  · exact h
  · rename_i hc
    rw [entryOf_isSome] at hc
    exact insertBy_ascending HalfEntry.cell _ m h fun d hd he => hc (List.mem_map.2 ⟨d, hd, he⟩)
theorem addCell_lt {m : List HalfEntry} (h : ∀ e ∈ m, e.cell < 936) {c : Nat} (hc : c < 936) :
    ∀ e ∈ addCell m c, e.cell < 936 := by
  intro e he
  unfold addCell at he
  split at he
  · exact h e he
  · rcases (mem_insertBy _ _ _ _).1 he with rfl | he
    · exact hc
    · exact h e he
theorem addCells_ascending {m : List HalfEntry} (h : m.Pairwise (·.cell < ·.cell)) (cells : List Nat) :
    (cells.foldl addCell m).Pairwise (·.cell < ·.cell) := by
  induction cells generalizing m with
  | nil => exact h
  | cons c cells ih => exact ih (addCell_ascending h c)
theorem addCells_lt {m : List HalfEntry} (h : ∀ e ∈ m, e.cell < 936) {cells : List Nat} (hc : ∀ c ∈ cells, c < 936) :
    ∀ e ∈ cells.foldl addCell m, e.cell < 936 := by
  induction cells generalizing m with
  | nil => exact h
  | cons c cells ih => exact ih (addCell_lt h (hc c (by simp))) fun d hd => hc d (by simp [hd])
/-- What is left when cells are removed is part of the map. -/
theorem removeCells_sublist (m : List HalfEntry) (cells : List Nat) : (cells.foldl removeCell m).Sublist m := by
  induction cells generalizing m with
  | nil => exact .refl m
  | cons c cells ih => exact (ih _).trans List.filter_sublist

/-! ## The tables after an event -/

theorem TablesInOrder.addCells {n : Node} (h : TablesInOrder n) {cells : List Nat} (hc : ∀ c ∈ cells, c < 936) :
    TablesInOrder (n.addCells cells) where
  allotment := addCells_ascending h.allotment cells
  cells := addCells_lt h.cells hc
  live := addCells_cells_congr h.live cells
  services := h.services
theorem TablesInOrder.removeCells {n : Node} (h : TablesInOrder n) (cells : List Nat) : TablesInOrder (n.removeCells cells) where
  allotment := h.allotment.sublist (removeCells_sublist _ cells)
  cells e he := h.cells e ((removeCells_sublist _ cells).subset he)
  live := removeCells_cells_congr h.live cells
  services := h.services
/-- START numbers the records anew and keeps their ids. -/
theorem TablesInOrder.startValues {n : Node} (h : TablesInOrder n) : TablesInOrder n.startValues where
  allotment := h.allotment
  cells := h.cells
  live := h.live
  services := List.pairwise_map.2 h.services
theorem powerOn_tables (n : Node) : TablesInOrder n.powerOn := ⟨.nil, nofun, rfl, .nil⟩

theorem tablesInOrder_kept : Node.Kept TablesInOrder where
  powerOn := powerOn_tables
  routine h := h.steady.toKeeps.tables
  pins _ _ h := ⟨h.allotment, h.cells, h.live, h.services⟩
  reports _ _ _ h := ⟨h.allotment, h.cells, h.live, h.services⟩
  stagingApply n := n.stagingApply_traffic.steady.toKeeps.tables
  countFrame n := (n.applyDue_traffic.steady.toKeeps.trans (Node.countFrame_keeps _)).tables
  tick n := n.tick_keeps.tables
  start _ h := h.startValues
  settings _ _ _ _ h := ⟨h.allotment, h.cells, h.live, h.services⟩
  add _ _ hc h := h.addCells hc
  remove _ cells h := h.removeCells cells

/-- Settles O7: by the facts of `Node.Kept`, of which only SET_ALLOTMENT and START touch what the invariant speaks of. -/
theorem stepKeepsTablesInOrder : Obligations.StepKeepsTablesInOrder := by
  intro s t hs h
  exact tablesInOrder_kept.step h hs

end Sys2Proof.Machine
end

section
/-! SUPPORT. Staging records applied (R55): what an application leaves unchanged, and the staging list kept in order by every
step. -/

namespace Sys2Proof.Machine

/-! ## The application of a record -/

/-- A serving block that is told its halves leaves the cell switch alone. -/
theorem Node.tellServing_cs (n : Node) (id : Nat) (h : HalfSet) : (n.tellServing id h).cs = n.cs := by
  unfold Node.tellServing; split
  · exact (n.peApplied_engines id h).cs
  · rfl

section
variable {n : Node} {r : Staging} {rest : List Staging}

theorem Node.applyRecord_staging (n : Node) (r : Staging) :
    (n.applyRecord r).cs.staging = n.cs.staging.filter (·.id != r.id) := by
  unfold Node.applyRecord
  rw [Node.tellServing_cs]
theorem Node.stagingApply_nil (h : n.cs.staging = []) : n.stagingApply = n := by
  simp [Node.stagingApply, h]
theorem Node.stagingApply_not_due (h : n.cs.staging = r :: rest) (hne : r.eff ≠ n.clk.next) : n.stagingApply = n := by
  simp [Node.stagingApply, h, hne]
theorem Node.stagingApply_due (h : n.cs.staging = r :: rest) (he : r.eff = n.clk.next) : n.stagingApply = n.applyRecord r := by
  simp [Node.stagingApply, h, he]
theorem Node.stagingApply_clk (n : Node) : n.stagingApply.clk = n.clk := n.stagingApply_traffic.clk
/-- The head record alone leaves the list. -/
theorem Node.applyRecord_staging_head (h : n.cs.staging = r :: rest) (honce : n.cs.staging.Pairwise (·.id ≠ ·.id)) :
    (n.applyRecord r).cs.staging = rest := by
  rw [h] at honce
  rw [Node.applyRecord_staging, h, List.filter_cons_of_neg (by simp), List.filter_eq_self]
  intro x hx
  simpa using (List.rel_of_pairwise_cons honce hx).symm

end

/-! ## The staging list in order -/

/-- Records that leave the list keep it in order, and so does whatever leaves the settings and the frame count alone. -/
theorem StagingInOrder.sublist {n m : Node} (w : StagingInOrder n) (hcfg : m.cfg = n.cfg) (hframe : m.clk.frame = n.clk.frame)
    (hstarted : m.clk.started = n.clk.started) (hst : m.cs.staging.Sublist n.cs.staging) : StagingInOrder m where
  lead := hcfg ▸ w.lead
  once := w.once.sublist hst
  order := hframe ▸ w.order.sublist hst
  far r hr := hframe ▸ w.far r (hst.subset hr)
  due hs r hr := hframe ▸ w.due (hstarted ▸ hs) r (hst.subset hr)
theorem StagingInOrder.stagingApply {n : Node} (w : StagingInOrder n) : StagingInOrder n.stagingApply := by
  refine w.sublist n.stagingApply_traffic.cfg (by rw [Node.stagingApply_clk]) (by rw [Node.stagingApply_clk]) ?_
  unfold Node.stagingApply
  split
  · split
    · rw [Node.applyRecord_staging]; exact List.filter_sublist
    · exact .refl _
  · exact .refl _

/-- How far ahead the next frame start is: one frame after the first one, and none before it (R44). -/
theorem Clock.ahead_next (c : Clock) : ahead c.frame c.next = if c.started then 1 else 0 := by
  unfold ahead Clock.next
  split
  · bv_omega
  · bv_omega
/-- No record is nearer than the next frame start. -/
theorem StagingInOrder.next_le {n : Node} (w : StagingInOrder n) {r : Staging} (hr : r ∈ n.cs.staging) :
    ahead n.clk.frame n.clk.next ≤ ahead n.clk.frame r.eff := by
  rw [Clock.ahead_next]
  split
  · rename_i hs; exact w.due hs r hr
  · exact Nat.zero_le _
/-- When the head record does not fall due, no record does. -/
theorem StagingInOrder.not_due {n : Node} (w : StagingInOrder n) {r : Staging} {rest : List Staging}
    (h : n.cs.staging = r :: rest) (hne : r.eff ≠ n.clk.next) : ∀ x ∈ n.cs.staging, x.eff ≠ n.clk.next := by
  intro x hx he
  have hle : ahead n.clk.frame r.eff ≤ ahead n.clk.frame x.eff := by
    have horder := w.order
    rw [h] at horder hx
    rcases List.mem_cons.1 hx with rfl | hx
    · exact Nat.le_refl _
    · exact List.rel_of_pairwise_cons horder hx
  have hge := w.next_le (r := r) (by simp [h])
  exact hne (ahead_inj (f := n.clk.frame) (by rw [he] at hle; omega))

/-- No record of the list falls due at the next frame start. -/
def Node.NoneDue (n : Node) : Prop := ∀ r ∈ n.cs.staging, r.eff ≠ n.clk.next

theorem Node.stagingApply_of_noneDue {n : Node} (h : n.NoneDue) : n.stagingApply = n := by
  unfold Node.stagingApply
  split
  · rename_i r rest hst
    rw [if_neg (h r (by rw [hst]; exact List.mem_cons_self))]
  · rfl
/-- As many applications as there are records leave no record due. -/
theorem StagingInOrder.applications {α : Type} (l : List α) {n : Node} (w : StagingInOrder n)
    (h : n.cs.staging.length ≤ l.length ∨ n.NoneDue) :
    StagingInOrder (l.foldl (fun m _ => m.stagingApply) n) ∧ (l.foldl (fun m _ => m.stagingApply) n).NoneDue := by
  induction l generalizing n with
  | nil =>
    refine ⟨w, h.elim (fun h0 r hr => ?_) id⟩
    rw [List.foldl_nil, List.eq_nil_of_length_eq_zero (Nat.le_zero.1 h0)] at hr
    exact absurd hr List.not_mem_nil
  | cons a l ih =>
    rw [List.foldl_cons]
    refine ih w.stagingApply ?_
    rcases h with hlen | hnone
    · cases hst : n.cs.staging with
      | nil => rw [Node.stagingApply_nil hst, hst]; exact .inl (Nat.zero_le _)
      | cons r rest =>
        by_cases he : r.eff = n.clk.next
        · rw [Node.stagingApply_due hst he, Node.applyRecord_staging_head hst w.once]
          rw [hst] at hlen
          exact .inl (Nat.le_of_succ_le_succ hlen)
        · rw [Node.stagingApply_not_due hst he]
          exact .inr (w.not_due hst he)
    · rw [Node.stagingApply_of_noneDue hnone]
      exact .inr hnone
theorem StagingInOrder.applyDue {n : Node} (w : StagingInOrder n) : StagingInOrder n.applyDue ∧ n.applyDue.NoneDue :=
  w.applications _ (.inl (Nat.le_refl _))

/-- A frame later, what was ahead is one frame nearer. -/
theorem ahead_succ {f e : BitVec 16} (h : 1 ≤ ahead f e) : ahead (f + 1) e = ahead f e - 1 := by
  unfold ahead at *; bv_omega
/-- The frame count advanced, no record due being left, every record is ahead still, and none farther than before (R53). -/
theorem StagingInOrder.ahead_countFrame {n : Node} (w : StagingInOrder n) (hnone : n.NoneDue) {r : Staging}
    (hr : r ∈ n.cs.staging) : 1 ≤ ahead n.clk.advance.frame r.eff ∧
      ahead n.clk.advance.frame r.eff + ahead n.clk.frame n.clk.next = ahead n.clk.frame r.eff := by
  have hne : ahead n.clk.frame r.eff ≠ ahead n.clk.frame n.clk.next := fun h => hnone r hr (ahead_inj h)
  have hge := w.next_le hr
  rw [Clock.ahead_next] at hne hge ⊢
  change 1 ≤ ahead n.clk.next r.eff ∧ ahead n.clk.next r.eff + _ = _
  unfold Clock.next
  split at hne
  · rename_i hs
    rw [if_pos hs] at hge
    rw [if_pos hs, if_pos hs, ahead_succ hge]
    omega
  · rename_i hs
    rw [if_neg hs, if_neg hs]
    omega
theorem StagingInOrder.countFrame {n : Node} (w : StagingInOrder n) (hnone : n.NoneDue) : StagingInOrder n.countFrame where
  lead := w.lead
  once := w.once
  order := by
    refine w.order.imp_of_mem fun {x y} hx hy hle => ?_
    have hx' := w.ahead_countFrame hnone hx
    have hy' := w.ahead_countFrame hnone hy
    change ahead n.clk.advance.frame x.eff ≤ ahead n.clk.advance.frame y.eff
    omega
  far r hr := by
    have hfar := w.far r hr
    have hnear := w.ahead_countFrame hnone hr
    change ahead n.clk.advance.frame r.eff ≤ 64
    omega
  due _ r hr := (w.ahead_countFrame hnone hr).1

theorem stagingInOrder_kept : Node.Kept StagingInOrder where
  powerOn _ := ⟨⟨Nat.le_of_ble_eq_true rfl, Nat.le_of_ble_eq_true rfl⟩, .nil, .nil, nofun, fun _ => nofun⟩
  routine h := h.hands.staging
  pins _ _ w := w.congr rfl rfl rfl
  reports _ _ _ w := w.congr rfl rfl rfl
  stagingApply _ w := w.stagingApply
  countFrame _ w := w.applyDue.1.countFrame w.applyDue.2
  tick _ w := w.sublist rfl rfl rfl (.refl _)
  start _ w := w.congr rfl rfl rfl
  settings _ _ hlow hhigh w := ⟨⟨hlow, hhigh⟩, w.once, w.order, w.far, w.due⟩
  add _ _ _ w := w.congr rfl rfl rfl
  remove _ _ w := w.congr rfl rfl rfl

/-- Settles O11: by the facts of `Node.Kept`; a frame start applies what falls due before it counts the frame. -/
theorem stepKeepsStagingInOrder : Obligations.StepKeepsStagingInOrder := by
  intro s t hs h
  exact stagingInOrder_kept.step h hs

end Sys2Proof.Machine
end

section
/-! SUPPORT. The invariants at reset: the link's places and queues, the tables and the blocks' lists are empty, and every port is
IDLE. -/

namespace Sys2Proof.Machine

/-- Nothing waits, is sent or is due at reset (R187). -/
theorem reset_link_in_order : LinkInOrder State.reset where
  busyPlaces := Nat.zero_le _
  arrivalsOnce := .nil
  waiting := by decide
  formedOnce _ := Nat.zero_le _
  answered := by decide
  sending := by decide
  busyAnswers := rfl
  idle _ := ⟨rfl, rfl⟩
theorem reset_stores_in_order : StoresInOrder State.reset := ⟨Nat.zero_le _, nofun, State.reset_store_wf, fun _ => rfl⟩
/-- No service holds a half, so that no ceiling is too low (R69). -/
theorem reset_ceilings_hold : CeilingsHold State.reset.node := fun _ _ => Nat.zero_le _
theorem reset_phone (p : Fin 8) : State.reset.node.phone p = {} := Vector.getElem_replicate p.isLt
/-- Every port is IDLE, off the waiting list, without a service, a timer and a cadence (R120). -/
theorem reset_calls_in_order : CallsInOrder State.reset.node where
  once := .nil
  waiting p := by
    rw [reset_phone]
    exact ⟨fun h => absurd h List.not_mem_nil, nofun⟩
  service p := by rw [reset_phone]; rfl
  active _ hv := absurd hv List.not_mem_nil
  timer p t ht := by rw [reset_phone] at ht; cases ht
  cadence p c hc := by rw [reset_phone] at hc; cases hc
/-- No transfer is open. -/
theorem reset_xfer (t : Fin 4) : State.reset.node.xfer t = none := Vector.getElem_replicate t.isLt
theorem reset_economy_holds : EconomyHolds State.reset.node :=
  ⟨fun _ hv => absurd hv List.not_mem_nil, fun _ _ hv => absurd hv List.not_mem_nil⟩
theorem reset_queues_in_order : QueuesInOrder State.reset.node :=
  ⟨.nil, fun _ hv => absurd hv List.not_mem_nil, fun _ hv => absurd hv List.not_mem_nil, Nat.zero_le _⟩
theorem reset_blocks_in_order : BlocksInOrder State.reset.node where
  held t x hx := by rw [reset_xfer] at hx; cases hx
  apart t _ _ x hx := by rw [reset_xfer] at hx; cases hx

/-- Settles O4: one lemma an invariant; the tables and the staging list are those that power-on leaves. -/
theorem resetStateIsInOrder : Obligations.ResetStateIsInOrder := by
  have htables : TablesInOrder State.reset.node := tablesInOrder_kept.powerOn {}
  have hstaging : StagingInOrder State.reset.node := stagingInOrder_kept.powerOn {}
  exact ⟨reset_link_in_order, reset_stores_in_order, htables, reset_economy_holds, reset_ceilings_hold, reset_calls_in_order,
    hstaging, reset_blocks_in_order, reset_queues_in_order⟩

end Sys2Proof.Machine
end

section
/-! SUPPORT. SET_ALLOTMENT (R46, R47): the entries of the maps after cells are added or removed, how many they are, and the
answers. -/

namespace Sys2Proof.Machine

/-! ## Cells added -/

/-- An entry of a cell that the map does not list is found after its insertion, and every other one as before. -/
theorem entryOf_insertBy {e : HalfEntry} {m : List HalfEntry} (h : e.cell ∉ m.map (·.cell)) (c : Nat) :
    entryOf (insertBy (fun x y => decide (x.cell ≤ y.cell)) e m) c = if c = e.cell then some e else entryOf m c := by
  induction m with
  | nil =>
    by_cases hc : c = e.cell
    · simp [insertBy, entryOf, hc]
    · simp [insertBy, entryOf, hc, Ne.symm hc]
  | cons d m ih =>
    obtain ⟨hd, hm⟩ : e.cell ≠ d.cell ∧ e.cell ∉ m.map (·.cell) := by simpa using h
    have hrest := ih hm
    unfold insertBy
    split
    · by_cases hc : c = e.cell
      · simp [entryOf, hc]
      · simp [entryOf, hc, Ne.symm hc]
    · by_cases hc : c = d.cell
      · simp [entryOf, hc, Ne.symm hd]
      · unfold entryOf at hrest ⊢
        rw [List.find?_cons_of_neg (by simpa using Ne.symm hc), hrest, List.find?_cons_of_neg (by simpa using Ne.symm hc)]
theorem entryOf_addCell (m : List HalfEntry) (x c : Nat) :
    entryOf (addCell m x) c = if c = x ∧ entryOf m c = none then some { cell := c } else entryOf m c := by
  unfold addCell
  by_cases hx : entryOf m x = none
  · rw [if_neg (by simp [hx]), entryOf_insertBy ((entryOf_eq_none m x).1 hx)]
    by_cases hc : c = x
    · subst hc; simp [hx]
    · simp [hc]
  · rw [if_pos (Option.isSome_iff_ne_none.2 hx), if_neg fun ⟨hc, hn⟩ => hx (hc ▸ hn)]
/-- A cell that was not there has an entry with neither half owned; every other entry is as it was. -/
theorem entryOf_addCells (cells : List Nat) (m : List HalfEntry) (c : Nat) :
    entryOf (cells.foldl addCell m) c = if c ∈ cells ∧ entryOf m c = none then some { cell := c } else entryOf m c := by
  induction cells generalizing m with
  | nil => simp
  | cons x cells ih =>
    rw [List.foldl_cons, ih, entryOf_addCell]
    by_cases hc : c = x
    · by_cases hn : entryOf m c = none
      · simp [hc, hc ▸ hn]
      · simp [hn]
    · simp [hc]
/-- Cells that are all there change nothing. -/
theorem addCells_of_present {cells : List Nat} {m : List HalfEntry} (h : ∀ c ∈ cells, (entryOf m c).isSome = true) :
    cells.foldl addCell m = m := by
  induction cells with
  | nil => rfl
  | cons x cells ih =>
    have hx : addCell m x = m := if_pos (h x (by simp))
    rw [List.foldl_cons, hx]
    exact ih fun c hc => h c (by simp [hc])
theorem mem_addCells_cells (cells : List Nat) (m : List HalfEntry) (c : Nat) :
    c ∈ (cells.foldl addCell m).map (·.cell) ↔ c ∈ m.map (·.cell) ∨ c ∈ cells := by
  rw [← entryOf_isSome, ← entryOf_isSome, entryOf_addCells]
  split
  · rename_i h; simp [h.1]
  · rename_i h
    refine ⟨.inl, fun hc => hc.elim id fun hc => ?_⟩
    exact Option.isSome_iff_ne_none.2 fun hn => h ⟨hc, hn⟩

/-! ## Cells removed -/

theorem removeCells_eq_filter (cells : List Nat) (m : List HalfEntry) :
    cells.foldl removeCell m = m.filter fun e => !cells.contains e.cell := by
  induction cells generalizing m with
  | nil => simp
  | cons x cells ih =>
    rw [List.foldl_cons, ih, removeCell, List.filter_filter]
    refine List.filter_congr fun e _ => ?_
    rw [List.contains_cons, Bool.not_or, Bool.and_comm]; rfl
/-- A cell removed has no entry, and every other one has its own. -/
theorem entryOf_removeCells (cells : List Nat) (m : List HalfEntry) (c : Nat) :
    entryOf (cells.foldl removeCell m) c = if c ∈ cells then none else entryOf m c := by
  rw [removeCells_eq_filter]
  unfold entryOf
  rw [List.find?_filter]
  split
  · rename_i hc
    refine List.find?_eq_none.2 fun e _ he => ?_
    obtain ⟨hnot, heq⟩ : e.cell ∉ cells ∧ e.cell = c := by simpa using he
    exact hnot (heq ▸ hc)
  · rename_i hc
    congr 1
    funext e
    by_cases he : e.cell = c
    · simp [he, hc]
    · simp [he]

/-! ## How many cells -/

section count
variable {n : Node} (cells : List Nat)

theorem Node.allotted_iff (n : Node) (c : Nat) : n.allotted c = true ↔ c ∈ n.au.allot.map (·.cell) := entryOf_isSome _ _

/-- The cells that an ADD adds: those it names, each once, that are not allotted. -/
def Node.newCells (n : Node) (cells : List Nat) : List Nat := cells.dedup.filter fun c => !n.allotted c

theorem Node.mem_newCells (n : Node) (c : Nat) : c ∈ n.newCells cells ↔ c ∈ cells ∧ entryOf n.au.allot c = none := by
  simp [Node.newCells, Node.allotted]
/-- In the live map as in the allotment: the two list the same cells (R48). -/
theorem TablesInOrder.mem_newCells_live (w : TablesInOrder n) (c : Nat) :
    c ∈ n.newCells cells ↔ c ∈ cells ∧ entryOf n.cs.live c = none := by
  rw [Node.mem_newCells, entryOf_eq_none, entryOf_eq_none, w.live]
theorem TablesInOrder.allot_nodup (w : TablesInOrder n) : (n.au.allot.map (·.cell)).Nodup :=
  List.pairwise_map.2 (w.allotment.imp Nat.ne_of_lt)
/-- Without a new cell an ADD leaves the node as it is. -/
theorem TablesInOrder.addCells_of_no_new {cells : List Nat} (w : TablesInOrder n) (h : n.newCells cells = []) :
    n.addCells cells = n := by
  have hpresent (c : Nat) (hc : c ∈ cells) : (entryOf n.au.allot c).isSome = true :=
    Option.isSome_iff_ne_none.2 fun hn => List.ne_nil_of_mem ((n.mem_newCells cells c).2 ⟨hc, hn⟩) h
  have hlive (c : Nat) (hc : c ∈ cells) : (entryOf n.cs.live c).isSome = true := by
    rw [entryOf_isSome, w.live, ← entryOf_isSome]; exact hpresent c hc
  rw [Node.addCells, addCells_of_present hpresent, addCells_of_present hlive]
/-- The allotment grows by the new cells. -/
theorem TablesInOrder.addCells_length (w : TablesInOrder n) :
    (cells.foldl addCell n.au.allot).length = n.au.allot.length + (n.newCells cells).length := by
  have hperm : ((cells.foldl addCell n.au.allot).map (·.cell)).Perm (n.au.allot.map (·.cell) ++ n.newCells cells) := by
    refine (List.perm_ext_iff_of_nodup ?_ ?_).2 fun c => ?_
    · exact List.pairwise_map.2 ((addCells_ascending w.allotment cells).imp Nat.ne_of_lt)
    · refine w.allot_nodup.append (cells.nodup_dedup.filter _) fun c hc hnew => ?_
      exact (entryOf_eq_none _ _).1 ((n.mem_newCells cells c).1 hnew).2 hc
    · rw [mem_addCells_cells, List.mem_append, Node.mem_newCells, entryOf_eq_none]
      tauto
  simpa using hperm.length_eq
/-- The allotment loses the cells that are removed. -/
theorem TablesInOrder.removeCells_length (w : TablesInOrder n) (h : ∀ c ∈ cells, n.allotted c = true) :
    n.au.allot.length = (cells.foldl removeCell n.au.allot).length + cells.dedup.length := by
  have hperm : (n.au.allot.map (·.cell)).Perm ((cells.foldl removeCell n.au.allot).map (·.cell) ++ cells.dedup) := by
    have hmem (c : Nat) : c ∈ (cells.foldl removeCell n.au.allot).map (·.cell) ↔ c ∉ cells ∧ c ∈ n.au.allot.map (·.cell) := by
      rw [← entryOf_isSome, ← entryOf_isSome, entryOf_removeCells]
      by_cases hc : c ∈ cells <;> simp [hc]
    refine (List.perm_ext_iff_of_nodup w.allot_nodup ?_).2 fun c => ?_
    · refine (w.allot_nodup.sublist ((removeCells_sublist _ cells).map _)).append cells.nodup_dedup fun c hc hd => ?_
      exact ((hmem c).1 hc).1 (List.mem_dedup.1 hd)
    · rw [List.mem_append, hmem, List.mem_dedup]
      have hin : c ∈ cells → c ∈ n.au.allot.map (·.cell) := fun hc => (n.allotted_iff c).1 (h c hc)
      tauto
  simpa using hperm.length_eq

end count

/-! ## The refusals of REMOVE (R46) -/

theorem Node.removeRefusal_append {n : Node} {before : List Nat} (rest : List Nat)
    (h : ∀ c ∈ before, n.allotted c = true ∧ n.cellInUse c = false) :
    n.removeRefusal (before ++ rest) = n.removeRefusal rest := by
  induction before with
  | nil => rfl
  | cons c before ih =>
    obtain ⟨hallot, huse⟩ := h c (by simp)
    rw [List.cons_append, Node.removeRefusal, if_neg (by simp [hallot]), if_neg (by simp [huse])]
    exact ih fun d hd => h d (by simp [hd])
theorem Node.removeRefusal_none {n : Node} {cells : List Nat}
    (h : ∀ c ∈ cells, n.allotted c = true ∧ n.cellInUse c = false) : n.removeRefusal cells = none := by
  simpa [Node.removeRefusal] using n.removeRefusal_append [] h

/-! ## The answers -/

/-- The body of a SET_ALLOTMENT with its length, its count and its cells in range. -/
structure AllotmentInRange (b : List Byte) : Prop where
  action : f1 b 0 ≤ 1
  length : b.length = 3 + 2 * f2 b 1
  some : 1 ≤ f2 b 1
  most : f2 b 1 ≤ 256
  cells : ∀ c ∈ allotmentCells b, c < 936

theorem wrongCell_none {cells : List Nat} (h : ∀ c ∈ cells, c < 936) : wrongCell cells = none :=
  List.findIdx?_eq_none_iff.2 fun c hc => decide_eq_false (Nat.not_le.2 (h c hc))
theorem AllotmentInRange.checks {b : List Byte} (h : AllotmentInRange b) : ∀ c ∈ allotmentChecks b, c.1 = false := by
  have hlen := h.length
  simp [allotmentChecks, outside_eq_false (Nat.zero_le _) h.action, outside_eq_false h.some h.most, wrongCell_none h.cells, hlen]

section answers
variable {b : List Byte} {n : Node} (k : Link)

theorem ownSetAllotmentAdd_ok (hb : AllotmentInRange b) (w : TablesInOrder n) :
    ownSetAllotmentAdd k b n =
      { node := if n.newCells (allotmentCells b) = [] then n.addCells (allotmentCells b) else (n.addCells (allotmentCells b)).pass
        reply := okReply (be2 (n.newCells (allotmentCells b)).length) } := by
  have hcount : (n.addCells (allotmentCells b)).au.allot.length - n.au.allot.length =
      (n.newCells (allotmentCells b)).length := by
    rw [Node.addCells, w.addCells_length, Nat.add_sub_cancel_left]
  rw [ownSetAllotmentAdd, checked_passed hb.checks]
  dsimp only
  simp only [hcount, List.length_eq_zero_iff]
theorem ownSetAllotmentRemove_ok (hb : AllotmentInRange b) (w : TablesInOrder n)
    (h : ∀ c ∈ allotmentCells b, n.allotted c = true ∧ n.cellInUse c = false) :
    ownSetAllotmentRemove k b n =
      { node := n.removeCells (allotmentCells b), reply := okReply (be2 (allotmentCells b).dedup.length) } := by
  have hcount := w.removeCells_length _ fun c hc => (h c hc).1
  rw [ownSetAllotmentRemove, checked_passed hb.checks, Node.removeRefusal_none h]
  dsimp only [Node.removeCells]
  rw [hcount, Nat.add_sub_cancel_left]
theorem ownSetAllotmentRemove_refused (hb : AllotmentInRange b) {reply : Reply}
    (h : n.removeRefusal (allotmentCells b) = some reply) :
    ownSetAllotmentRemove k b n = { node := n, reply := reply } := by
  rw [ownSetAllotmentRemove, checked_passed hb.checks, h]

end answers

/-- Settles O37: the entries of the maps after a fold of additions or removals, and their number by counting cells. -/
theorem allotmentGainsAndLosesCells : Obligations.AllotmentGainsAndLosesCells := by
  intro s i r hasks hkind n b cells hlen hsome hmost hcells w
  refine ⟨fun hform => ?_, fun hform => ?_⟩
  · have hb : AllotmentInRange b := ⟨by omega, hlen, hsome, hmost, hcells⟩
    have hnode : (if n.newCells cells = [] then n.addCells cells else (n.addCells cells).pass) =
        if n.newCells cells = [] then n else (n.addCells cells).pass :=
      ite_congr rfl w.addCells_of_no_new fun _ => rfl
    have ht : (n.addCells cells).Traffic (if n.newCells cells = [] then n else (n.addCells cells).pass) :=
      hnode ▸ .ite (.refl _) (Node.pass_traffic _)
    have hh : (n.addCells cells).Hands (if n.newCells cells = [] then n else (n.addCells cells).pass) :=
      hnode ▸ .ite (.refl _) (Node.pass_hands _)
    have hallotted (c : Nat) : (if n.newCells cells = [] then n else (n.addCells cells).pass).allotted c = true ↔
        n.allotted c = true ∨ c ∈ cells := by
      rw [Node.allotted_iff, ht.allotCells, Node.allotted_iff]
      exact mem_addCells_cells cells n.au.allot c
    refine ⟨cells.foldl addCell n.au.allot, cells.foldl addCell n.cs.live, ?_, fun c => ?_, fun c => ?_, hallotted, hh.live,
      ht.line, ht.path, ht.cfg, ht.clk, ht.op, ht.runTime⟩
    · exact handle_ok hasks (isKindBut_of_form_zero hkind hform) ((ownSetAllotmentAdd_ok _ hb w).trans (by rw [hnode]; rfl))
    · rw [entryOf_addCells]
      exact ite_congr (propext (n.mem_newCells cells c).symm) (fun _ => rfl) fun _ => rfl
    · rw [entryOf_addCells]
      exact ite_congr (propext (w.mem_newCells_live cells c).symm) (fun _ => rfl) fun _ => rfl
  · have hf : f1 b 0 = 1 := f1_of_getElem? hform
    have hb : AllotmentInRange b := ⟨by omega, hlen, hsome, hmost, hcells⟩
    have hmine := isKindWith_of_eq hkind hform
    refine ⟨fun hfree => ?_, fun before c after hsplit hbefore => ?_⟩
    · exact ⟨_, _, entryOf_removeCells cells _, entryOf_removeCells cells _,
        handle_ok hasks hmine (ownSetAllotmentRemove_ok _ hb w hfree)⟩
    · have hrefusal : n.removeRefusal cells = n.removeRefusal (c :: after) := by
        rw [hsplit]; exact n.removeRefusal_append _ hbefore
      refine ⟨fun hallot => ?_, fun hallot huse => ?_⟩
      · have : n.removeRefusal cells = some (refusal .notAllotted (be2 c)) := by
          rw [hrefusal, Node.removeRefusal, if_pos (by simp [hallot])]
        exact handle_refused hasks hmine (ownSetAllotmentRemove_refused _ hb this)
      · have : n.removeRefusal cells = some (refusal .cellInUse (be2 c)) := by
          rw [hrefusal, Node.removeRefusal, if_neg (by simp [hallot]), if_pos huse]
        exact handle_refused hasks hmine (ownSetAllotmentRemove_refused _ hb this)

end Sys2Proof.Machine
end

section
/-! SUPPORT. A half set handed over and a record applied (R53 to R57), event by event. -/

namespace Sys2Proof.Machine

/-! ## Handed over -/

theorem HalfSet.cells_eq (h : HalfSet) : h.cells = if h.a = [] then h.b else h.a := by
  simp [HalfSet.cells, List.isEmpty_iff]
theorem enqueueNotice_eq (q : List Notice) (m : Notice) : enqueueNotice q m =
    if (∃ x ∈ q, x.id = m.id) then q.map fun x => if x.id = m.id then m else x else q ++ [m] := by
  simp [enqueueNotice]
theorem Node.handHalves_waiting (n : Node) (id : Nat) (cls : Class) (h : HalfSet) (l : Line) :
    ((n.handHalves id cls h).cs.line.get l).waiting = enqueueNotice (n.cs.line.get l).waiting
      { id := id, cls := cls, sides := h.sides, eff := n.effectiveFrame, cells := h.cells } := by
  cases l <;> rfl

/-! ## Applied -/

/-- The serving block that is told its halves is the packet engine or the call controller, and nothing else changes. -/
theorem Node.tellServing_eq (n : Node) (id : Nat) (h : HalfSet) :
    n.tellServing id h = { n with pe := (n.tellServing id h).pe, cc := (n.tellServing id h).cc } := by
  unfold Node.tellServing; split
  · unfold Node.peApplied; split <;> rfl
  · rfl
theorem fin8_val (p : Fin 8) : fin8 p.val = p := Fin.ofNat_val_eq_self p

/-- A call is told the cell of its first live half, if its service stands (R116). -/
theorem Node.tellServing_call (n : Node) (p : Fin 8) (h : HalfSet) : n.tellServing (56 + p.val) h =
    n.modPhone p fun ph => { ph with liveCell := if (n.svc (56 + p.val)).isSome then h.cells.head? else none } := by
  rw [Node.tellServing, if_neg (by omega), Nat.add_sub_cancel_left, fin8_val]
theorem Node.tellServing_packet (n : Node) {id : Nat} (h : HalfSet) (hid : id < 56) : n.tellServing id h = n.peApplied id h :=
  if_pos hid
theorem Node.peApplied_cc (n : Node) (id : Nat) (h : HalfSet) : (n.peApplied id h).cc = n.cc := (n.peApplied_engines id h).cc

theorem PeService.abandon_keeps (v : PeService) :
    v.abandon.id = v.id ∧ v.abandon.live = v.live ∧ v.abandon.attached = v.attached := by
  unfold PeService.abandon; split <;> exact ⟨rfl, rfl, rfl⟩
theorem PeService.sideChanged_keeps (v : PeService) (x y : Option Side) :
    (v.sideChanged x y).id = v.id ∧ (v.sideChanged x y).live = v.live ∧ (v.sideChanged x y).attached = v.attached := by
  unfold PeService.sideChanged PeService.loseSync; split <;> exact ⟨rfl, rfl, rfl⟩
/-- Told its halves, a packet service is attached and holds them live. -/
theorem PeService.applied_live (v : PeService) (prot : Protection) (pick : Option Side) (h : HalfSet) :
    (v.applied prot pick h).id = v.id ∧ (v.applied prot pick h).live = h ∧ (v.applied prot pick h).attached = true := by
  unfold PeService.applied
  dsimp only
  split
  · exact PeService.sideChanged_keeps _ _ _
  · obtain ⟨hid, hlive, hatt⟩ := PeService.sideChanged_keeps (PeService.abandon { v with
      attached := true, live := h, selected := if v.attached then v.selected else pick }) (receiveSide prot v)
      (receiveSide prot (PeService.abandon { v with
        attached := true, live := h, selected := if v.attached then v.selected else pick }))
    obtain ⟨hid', hlive', hatt'⟩ := PeService.abandon_keeps { v with
      attached := true, live := h, selected := if v.attached then v.selected else pick }
    exact ⟨hid.trans hid', hlive.trans hlive', hatt.trans hatt'⟩

/-- A packet service replaced is found by its id. -/
theorem Node.peOf_setPe {n : Node} {v w : PeService} {id : Nat} (h : n.peOf id = some v) (hw : w.id = id) :
    (n.setPe w).peOf id = some w := by
  unfold Node.peOf Node.setPe at *
  dsimp only
  rw [List.find?_map]
  have hid : v.id = id := by simpa using List.find?_some h
  have hcomp : ((fun x : PeService => x.id == id) ∘ fun x => if x.id = w.id then w else x) = fun x => x.id == id := by
    funext x
    by_cases hx : x.id = id
    · simp [hx, hw]
    · simp [hx, hw]
  rw [hcomp, h, Option.map_some, if_pos (by rw [hid, hw])]
theorem Node.peApplied_peOf {n : Node} {id : Nat} {v : PeService} {sv : Service} (hv : n.peOf id = some v)
    (hsv : n.svc id = some sv) (h : HalfSet) : ∃ w, (n.peApplied id h).peOf id = some w ∧ w.live = h ∧ w.attached = true := by
  obtain ⟨hid, hlive, hatt⟩ := v.applied_live sv.prot (n.pickSide sv.primary) h
  have hvid : v.id = id := by simpa using List.find?_some hv
  refine ⟨_, ?_, hlive, hatt⟩
  rw [Node.peApplied, hv, hsv]
  exact Node.peOf_setPe hv (hid.trans hvid)

/-- The maps of the cell switch after a record is applied, before the serving block is told. -/
def Node.takenLive (n : Node) (r : Staging) : Node :=
  { n with cs := { n.cs with live := setOwner n.cs.live r.id r.set, staging := n.cs.staging.filter (·.id != r.id) } }
theorem Node.applyRecord_eq (n : Node) (r : Staging) : n.applyRecord r = (n.takenLive r).tellServing r.id r.set := rfl
theorem Node.applyRecord_cs (n : Node) (r : Staging) : (n.applyRecord r).cs = (n.takenLive r).cs := by
  rw [Node.applyRecord_eq, Node.tellServing_cs]
/-- The halves of the id are exactly its set; another owner loses one but to it (R55). -/
theorem Node.applyRecord_entry (n : Node) (r : Staging) (c : Nat) :
    entryOf (n.applyRecord r).cs.live c = (entryOf n.cs.live c).map fun e => { e with
      a := if c ∈ r.set.a then some r.id else if e.a = some r.id then none else e.a
      b := if c ∈ r.set.b then some r.id else if e.b = some r.id then none else e.b } := by
  rw [Node.applyRecord_cs]
  refine (entryOf_setOwner _ _ _ _).trans ?_
  simp only [ownHalf_eq, List.contains_iff_mem]
theorem Node.applyRecord_call (n : Node) (r : Staging) (p : Fin 8) (hid : r.id = 56 + p.val) :
    (n.applyRecord r).pe = n.pe ∧ ((n.applyRecord r).phone p).liveCell =
      if (n.svc r.id).isSome then (if r.set.a = [] then r.set.b else r.set.a).head? else none := by
  rw [Node.applyRecord_eq, hid, Node.tellServing_call]
  refine ⟨rfl, ?_⟩
  rw [Node.phone_modPhone, HalfSet.cells_eq]
  rfl
theorem Node.applyRecord_packet (n : Node) (r : Staging) (hid : r.id < 56) :
    (n.applyRecord r).cc = n.cc ∧ ∀ v sv, n.peOf r.id = some v → n.svc r.id = some sv →
      ∃ w, (n.applyRecord r).peOf r.id = some w ∧ w.live = r.set ∧ w.attached = true := by
  rw [Node.applyRecord_eq, Node.tellServing_packet _ _ hid]
  exact ⟨Node.peApplied_cc _ _ _, fun v sv hv hsv => Node.peApplied_peOf (n := n.takenLive r) hv hsv r.set⟩
/-- Nothing but the cell switch and the serving block changes. -/
theorem Node.applyRecord_rest (n : Node) (r : Staging) :
    (n.applyRecord r).au = n.au ∧ (n.applyRecord r).line = n.line ∧ (n.applyRecord r).path = n.path ∧
    (n.applyRecord r).clk = n.clk ∧ (n.applyRecord r).cfg = n.cfg ∧ (n.applyRecord r).reports = n.reports ∧
    (n.applyRecord r).te = n.te ∧ (n.applyRecord r).pc = n.pc := by
  rw [Node.applyRecord_eq, Node.tellServing_eq]
  exact ⟨rfl, rfl, rfl, rfl, rfl, rfl, rfl, rfl⟩

/-- Settles O35: the record made by the effective frame's definition, and the head record applied when it is due. -/
theorem stagingRecordsAreMadeAndApplied : Obligations.StagingRecordsAreMadeAndApplied := by
  refine ⟨fun n id cls h hlead => ?_, fun s hs => ?_⟩
  · have hfar : ahead n.clk.frame n.effectiveFrame = n.leadNow := Node.ahead_effectiveFrame hlead
    refine ⟨n.effectiveFrame, rfl, ?_, fun r hr => ?_, ?_, fun l => ?_, rfl, rfl, rfl⟩
    · exact n.lead_le_leadNow.trans_eq hfar.symm
    · exact (n.ahead_le_leadNow hr).trans_eq hfar.symm
    · refine n.leadNow_cases.imp hfar.trans ?_
      rintro ⟨r, hr, he⟩
      exact ⟨r, hr, ahead_inj (he.trans hfar.symm)⟩
    · rw [Node.handHalves_waiting, enqueueNotice_eq, HalfSet.cells_eq]
  · have hexec : exec .stagingApply s = .next (s.became s.node.stagingApply) := onNode_awake s _ hs
    refine ⟨fun hnil => ?_, fun r rest hst => ⟨fun hne => ?_, fun he => ?_⟩⟩
    · rw [hexec, Node.stagingApply_nil hnil]
    · rw [hexec, Node.stagingApply_not_due hst hne]
    · refine ⟨s.node.applyRecord r, ?_, ?_, Node.applyRecord_entry _ r, Node.applyRecord_call _ r, Node.applyRecord_packet _ r,
        Node.applyRecord_rest _ r⟩
      · rw [hexec, Node.stagingApply_due hst he]
      · rw [Node.applyRecord_staging, hst, List.filter_cons_of_neg (by simp)]

end Sys2Proof.Machine
end

section
/-! SUPPORT. The payloads presented (R49, R50) and the cells of a frame begun (R51, R52). -/

namespace Sys2Proof.Machine

/-! ## The payload presented -/

section present
variable (w : SwitchLine)

theorem SwitchLine.present_newest {cells : List CellVal} (h : w.newest = some cells) : w.present false =
    { w with presented := some cells, newest := none, arrived := 0, skipped := min 65535 (w.skipped + (w.arrived - 1)) } := by
  simp [SwitchLine.present, h, Config.top16]
theorem SwitchLine.present_repeat (h : w.newest = none) :
    w.present false = { w with repeated := min 65535 (w.repeated + 1), arrived := 0 } := by
  simp [SwitchLine.present, h, sat16, Config.top16]
theorem SwitchLine.present_held (h : w.hold < 8) :
    (w.present true).presented = w.presented ∧ (w.present true).hold = w.hold + 1 := by
  have hsat : sat16 w.hold = w.hold + 1 := by simp only [sat16, Config.top16]; omega
  have hle : w.hold + 1 ≤ 8 := h
  simp [SwitchLine.present, hsat, hle]
theorem SwitchLine.present_given_way (h : 8 ≤ w.hold) : (w.present true).cells = List.replicate 936 0xD5D5#16 := by
  have hsat : ¬ sat16 w.hold ≤ 8 := by simp only [sat16, Config.top16]; omega
  have hnone : (w.present true).presented = none := by simp [SwitchLine.present, hsat]
  rw [SwitchLine.cells, hnone]
  rfl
/-- The presentation leaves the notices alone. -/
theorem SwitchLine.present_notices (failed : Bool) : (w.present failed).forward = w.forward ∧
    (w.present failed).sending = w.sending ∧ (w.present failed).waiting = w.waiting ∧ (w.present failed).seq = w.seq := by
  unfold SwitchLine.present
  split
  · exact ⟨rfl, rfl, rfl, rfl⟩
  · split <;> exact ⟨rfl, rfl, rfl, rfl⟩

end present

theorem LineState.failed_iff (s : LineState) : s.failed = true ↔ s = .disabled ∨ s = .seeking := by
  cases s <;> simp [LineState.failed]

/-! ## The cells of a frame -/

theorem overlay_length (value : HalfEntry → CellVal) (src : List CellVal) (k : Nat) (m : List HalfEntry) :
    (overlay value k m src).length = src.length := by
  induction src generalizing k m with
  | nil => unfold overlay; rfl
  | cons v vs ih =>
    cases m with
    | nil => rfl
    | cons e es =>
      unfold overlay
      split
      · rw [List.length_cons, ih, List.length_cons]
      · rw [List.length_cons, ih, List.length_cons]

/-- A frame's cell is its entry's value when the map has one, and the cell passed when it has none. -/
theorem overlay_cell (value : HalfEntry → CellVal) (src : List CellVal) (k : Nat) (m : List HalfEntry)
    (hm : m.Pairwise (·.cell < ·.cell)) (hk : ∀ e ∈ m, k ≤ e.cell) (i : Nat) (hi : i < src.length) :
    (overlay value k m src)[i]? = ((entryOf m (k + i)).map value).or src[i]? := by
  induction src generalizing k m i with
  | nil => exact absurd hi (Nat.not_lt_zero i)
  | cons v vs ih =>
    cases m with
    | nil => simp [overlay, entryOf]
    | cons e es =>
      obtain ⟨he, hes⟩ := List.pairwise_cons.1 hm
      have hke := hk e (by simp)
      unfold overlay
      by_cases hcell : e.cell = k
      · rw [if_pos hcell]
        cases i with
        | zero => simp [entryOf, hcell]
        | succ i =>
          have hne : e.cell ≠ k + (i + 1) := by omega
          have hstart : ∀ d ∈ es, k + 1 ≤ d.cell := fun d hd => by have := he d hd; omega
          rw [List.getElem?_cons_succ, ih (k + 1) es hes hstart i (by simpa using hi), List.getElem?_cons_succ]
          simp only [entryOf, List.find?_cons_of_neg (p := (·.cell == k + (i + 1))) (a := e) (by simpa using hne)]
          rw [Nat.add_assoc, Nat.add_comm 1 i]
      · rw [if_neg hcell]
        have hstart : ∀ d ∈ e :: es, k + 1 ≤ d.cell := fun d hd => by
          rcases List.mem_cons.1 hd with rfl | hd
          · omega
          · have := he d hd; omega
        cases i with
        | zero =>
          have hnone : entryOf (e :: es) (k + 0) = none := by
            refine List.find?_eq_none.2 fun d hd => ?_
            have := hstart d hd
            simp; omega
          rw [hnone]; rfl
        | succ i =>
          rw [List.getElem?_cons_succ, ih (k + 1) _ hm hstart i (by simpa using hi), List.getElem?_cons_succ, Nat.add_assoc,
            Nat.add_comm 1 i]

/-! ## The frame begun -/

/-- The frame that a line begins. -/
def Node.begunFrame (n : Node) (ts : List Train) (l : Line) : TxFrame :=
  { overhead := (n.txOverhead l ((n.cs.line.get l).noticeOut n.cfg.nodeNumber).1).bytes
    cells := overlay (n.addValue ts l.side) 0 n.cs.live (n.cs.line.get l.other).cells }
/-- A line port that begins a frame: it keeps the check of its overhead and cells for its next one. -/
def LinePort.begin (p : LinePort) (tx : TxFrame) : LinePort :=
  { p with txCheck := some (frameCheck tx.overhead tx.cells), txFrame := some tx, training := p.training.sent }

section beginFrame
variable (n : Node) (ts : List Train) (l : Line)

theorem Node.beginFrame_dark (h : (n.line.get l).state = .disabled) :
    n.beginFrame ts l = n.modLine l fun p => { p with txFrame := none } := if_pos h
theorem Node.beginFrame_lit (h : (n.line.get l).state ≠ .disabled) : n.beginFrame ts l =
    (n.modSwitch l fun w => (w.noticeOut n.cfg.nodeNumber).2).modLine l fun p => p.begin (n.begunFrame ts l) := by
  rw [Node.beginFrame, if_neg h]
  cases l <;> rfl
theorem Node.beginFrame_line (h : (n.line.get l).state ≠ .disabled) :
    (n.beginFrame ts l).line.get l = (n.line.get l).begin (n.begunFrame ts l) := by
  rw [Node.beginFrame_lit _ _ _ h]
  cases l <;> rfl
theorem Node.beginFrame_switch (h : (n.line.get l).state ≠ .disabled) :
    (n.beginFrame ts l).cs.line.get l = ((n.cs.line.get l).noticeOut n.cfg.nodeNumber).2 := by
  rw [Node.beginFrame_lit _ _ _ h]
  cases l <;> rfl

end beginFrame

theorem CallState.talks_iff (c : CallState) : c.talks = true ↔ c = .opened ∨ c = .answered := by
  cases c <;> simp [CallState.talks]

/-- A call's cell carries its voice while the call talks in it, and idle fill otherwise (R116). -/
theorem Phone.addCell_eq (ph : Phone) (c : Nat) : ph.addCell c =
    if (ph.call = .opened ∨ ph.call = .answered) ∧ ph.liveCell = some c then ph.voiceIn else 0xD5D5#16 := by
  simp only [Phone.addCell, Bool.and_eq_true, CallState.talks_iff, beq_iff_eq, Config.idleFill]

section addValue
variable {n : Node} (ts : List Train) {x : Side} {e : HalfEntry}

theorem Node.addValue_idle (h : e.owner x = none) : n.addValue ts x e = 0xD5D5#16 := by simp [Node.addValue, h, Config.idleFill]
theorem Node.addValue_packet {id : Nat} (h : e.owner x = some id) (hid : id < 56) :
    n.addValue ts x e = trainCell ts id x e.cell := by
  simp [Node.addValue, h, hid]
theorem Node.addValue_call (p : Fin 8) (h : e.owner x = some (56 + p.val)) :
    n.addValue ts x e = (n.phone p).addCell e.cell := by
  simp [Node.addValue, h, fin8_val]

end addValue

/-- Settles O34: the presentation by its branches, and a frame's cells by the induction of `overlay_cell`. -/
theorem cellsPassOrCarryTheirHalves : Obligations.CellsPassOrCarryTheirHalves := by
  refine ⟨fun w => ⟨fun cells => w.present_newest, w.present_repeat, w.present_held, w.present_given_way⟩, fun s l hs => ?_,
    fun n ts l hsorted hlit => ?_⟩
  · have hexec : exec (.lineHoldEnd l) s = .next (s.became (s.node.lineHoldEnd l)) := onNode_awake s _ hs
    simp only [← LineState.failed_iff]
    refine ⟨fun hfailed hhold => ?_, fun hnot => ?_⟩
    · rw [hexec, Node.lineHoldEnd, if_pos (by simp [hfailed, hhold])]
      rfl
    · rw [hexec, Node.lineHoldEnd, if_neg (by simpa [imp_iff_not_or] using hnot)]
  · have hline := n.beginFrame_line ts l hlit
    refine ⟨n.begunFrame ts l, by rw [hline]; rfl, overlay_length _ _ _ _, fun c hc => ?_⟩
    have hcell : (n.begunFrame ts l).cells[c]? =
        ((entryOf n.cs.live c).map (n.addValue ts l.side)).or (n.cs.line.get l.other).cells[c]? := by
      have h := overlay_cell (n.addValue ts l.side) _ 0 _ hsorted (fun _ _ => Nat.zero_le _) c hc
      rw [Nat.zero_add] at h
      exact h
    refine ⟨fun hnone => by rw [hcell, hnone]; rfl, fun e he => ?_⟩
    have hec : e.cell = c := by simpa using List.find?_some he
    rw [he, Option.map_some, Option.some_or] at hcell
    refine ⟨fun hidle => ?_, fun id hown hid => ?_, fun p hown => ?_⟩
    · rw [hcell, Node.addValue_idle ts hidle]
    · rw [hcell, Node.addValue_packet ts hown hid, hec]
    · dsimp only
      rw [hcell, Node.addValue_call ts p hown, Phone.addCell_eq, hec]

end Sys2Proof.Machine
end

section
/-! SUPPORT. The frame start (R44), stage by stage: records applied and counts advanced, payloads presented, trains built, a frame
begun on each line, trains read, the voice bus served. -/

namespace Sys2Proof.Machine

/-! ## What precedes the frames -/

theorem Node.stagingApply_switch (n : Node) : n.stagingApply.cs.line = n.cs.line := by
  unfold Node.stagingApply
  split
  · split
    · rw [Node.applyRecord_cs]; rfl
    · rfl
  · rfl
theorem Node.applications_switch {α : Type} (l : List α) (n : Node) :
    (l.foldl (fun m _ => m.stagingApply) n).cs.line = n.cs.line := by
  induction l generalizing n with
  | nil => rfl
  | cons x l ih => exact (ih _).trans n.stagingApply_switch
/-- The records applied leave the switch lines alone. -/
theorem Node.applyDue_switch (n : Node) : n.applyDue.cs.line = n.cs.line := Node.applications_switch _ n

/-- The node whose lines present their payloads, records applied and counts advanced. -/
def Node.presented (n : Node) : Node :=
  let m := n.applyDue.countFrame
  let m := m.modSwitch .u fun w => w.present (m.line.get .u).state.failed
  m.modSwitch .d fun w => w.present (m.line.get .d).state.failed
/-- The node whose trains are built, and the trains. -/
def Node.trained (n : Node) : Node := n.presented.buildTrains.1
def Node.trains (n : Node) : List Train := n.presented.buildTrains.2
/-- The node that begins the frame of a line. -/
def Node.beginner (n : Node) : Line → Node
  | .u => n.trained
  | .d => n.trained.beginFrame n.trains .u
/-- The node that has begun both frames. -/
def Node.begun (n : Node) : Node := (n.beginner .d).beginFrame n.trains .d

theorem Node.frameStart_eq (n : Node) (voice : Vector CellVal 8) :
    n.frameStart voice = allPhones.foldl (fun m p => m.voiceChannel voice p) n.begun.readTrains := rfl

section stages
variable (n : Node)

theorem Node.presented_steady : n.applyDue.countFrame.Steady n.presented := by
  unfold Node.presented
  exact ((Node.modSwitch_lines _ _ _).trans (Node.modSwitch_lines _ _ _)).steady
theorem Node.trained_engines : n.presented.Engines n.trained := n.presented.buildTrains_engines
theorem Node.trained_line (l : Line) : n.trained.line.get l = (n.line.get l).frame := by
  rw [n.trained_engines.line]
  change Two.get ⟨n.applyDue.line.u.frame, n.applyDue.line.d.frame⟩ l = _
  rw [n.applyDue_traffic.line]
  cases l <;> rfl
theorem Node.trained_switch (l : Line) :
    n.trained.cs.line.get l = (n.cs.line.get l).present (n.line.get l).state.failed := by
  rw [n.trained_engines.cs]
  have hline := n.applyDue_traffic.line
  have hswitch := n.applyDue_switch
  cases l
  · change (n.applyDue.cs.line.get .u).present (n.applyDue.line.get .u).state.failed = _
    rw [hline, hswitch]
  · change (n.applyDue.cs.line.get .d).present (n.applyDue.line.get .d).state.failed = _
    rw [hline, hswitch]
theorem Node.trained_cfg : n.trained.cfg = n.cfg := n.trained_engines.cfg.trans n.applyDue_traffic.cfg
theorem Node.trained_clk : n.trained.clk = n.clk.advance := by
  rw [n.trained_engines.clk, n.presented_steady.clk, Node.countFrame_clk, n.applyDue_traffic.clk]

end stages

/-! ## The frames -/

/-- The frame begun on a line changes the line ports and the switch lines alone. -/
theorem Node.beginFrame_rest (n : Node) (ts : List Train) (l : Line) : n.beginFrame ts l =
    { n with line := (n.beginFrame ts l).line, cs := { n.cs with line := (n.beginFrame ts l).cs.line } } := by
  unfold Node.beginFrame
  split <;> rfl
/-- It leaves the other line alone. -/
theorem Node.beginFrame_other (n : Node) (ts : List Train) (l : Line) :
    (n.beginFrame ts l).line.get l.other = n.line.get l.other ∧
    (n.beginFrame ts l).cs.line.get l.other = n.cs.line.get l.other := by
  unfold Node.beginFrame
  split
  · cases l <;> exact ⟨rfl, rfl⟩
  · cases l <;> exact ⟨rfl, rfl⟩

section begun
variable (n : Node) (l : Line)

theorem Node.beginner_line : (n.beginner l).line.get l = (n.line.get l).frame := by
  cases l
  · exact n.trained_line .u
  · exact (n.trained.beginFrame_other n.trains .u).1.trans (n.trained_line .d)
theorem Node.beginner_switch :
    (n.beginner l).cs.line.get l = (n.cs.line.get l).present (n.line.get l).state.failed := by
  cases l
  · exact n.trained_switch .u
  · exact (n.trained.beginFrame_other n.trains .u).2.trans (n.trained_switch .d)
theorem Node.beginner_cfg : (n.beginner l).cfg = n.cfg := by
  cases l
  · exact n.trained_cfg
  · exact (n.trained.beginFrame_lines n.trains .u).cfg.trans n.trained_cfg
theorem Node.beginner_clk : (n.beginner l).clk = n.clk.advance := by
  cases l
  · exact n.trained_clk
  · exact (n.trained.beginFrame_lines n.trains .u).clk.trans n.trained_clk
/-- Each line stands as its own frame has left it. -/
theorem Node.begun_get : n.begun.line.get l = ((n.beginner l).beginFrame n.trains l).line.get l ∧
    n.begun.cs.line.get l = ((n.beginner l).beginFrame n.trains l).cs.line.get l := by
  cases l
  · exact Node.beginFrame_other (n.beginner .d) n.trains .d
  · exact ⟨rfl, rfl⟩

end begun

/-! ## What follows the frames -/

/-- The voice bus changes the ports' calls alone. -/
theorem Node.voiceChannels_rest (voice : Vector CellVal 8) (ps : List (Fin 8)) (n : Node) :
    ps.foldl (fun m p => m.voiceChannel voice p) n = { n with cc := (ps.foldl (fun m p => m.voiceChannel voice p) n).cc } := by
  induction ps generalizing n with
  | nil => rfl
  | cons p ps ih =>
    rw [List.foldl_cons, ih]
    rfl

section frameStart
variable (n : Node) (voice : Vector CellVal 8)

theorem Node.frameStart_line : (n.frameStart voice).line = n.begun.line := by
  rw [Node.frameStart_eq, Node.voiceChannels_rest]
  exact n.begun.readTrains_engines.line
theorem Node.frameStart_cs : (n.frameStart voice).cs = n.begun.cs := by
  rw [Node.frameStart_eq, Node.voiceChannels_rest]
  exact n.begun.readTrains_engines.cs

/-- The frame that line `l` begins at a frame start. -/
def Node.startFrame (l : Line) : TxFrame := (n.beginner l).begunFrame n.trains l

variable (l : Line)

theorem Node.frameStart_dark (h : (n.line.get l).state = .disabled) :
    (n.frameStart voice).line.get l = { (n.line.get l).frame with txFrame := none } := by
  have hstate : ((n.beginner l).line.get l).state = .disabled := by rw [Node.beginner_line]; exact h
  rw [Node.frameStart_line, (n.begun_get l).1, Node.beginFrame_dark _ _ _ hstate]
  rw [Node.modLine_line, Two.get_set_same, Node.beginner_line]
theorem Node.frameStart_lit (h : (n.line.get l).state ≠ .disabled) :
    (n.frameStart voice).line.get l = (n.line.get l).frame.begin (n.startFrame l) := by
  have hstate : ((n.beginner l).line.get l).state ≠ .disabled := by rw [Node.beginner_line]; exact h
  rw [Node.frameStart_line, (n.begun_get l).1, Node.beginFrame_line _ _ _ hstate, Node.beginner_line]
  rfl
/-- The state of a line is as it was. -/
theorem Node.frameStart_state : ((n.frameStart voice).line.get l).state = (n.line.get l).state := by
  by_cases h : (n.line.get l).state = .disabled
  · rw [Node.frameStart_dark _ _ _ h]; rfl
  · rw [Node.frameStart_lit _ _ _ h]; rfl
theorem Node.frameStart_switch (h : (n.line.get l).state ≠ .disabled) : (n.frameStart voice).cs.line.get l =
    (((n.cs.line.get l).present (n.line.get l).state.failed).noticeOut n.cfg.nodeNumber).2 := by
  have hstate : ((n.beginner l).line.get l).state ≠ .disabled := by rw [Node.beginner_line]; exact h
  rw [Node.frameStart_cs, (n.begun_get l).2, Node.beginFrame_switch _ _ _ hstate, Node.beginner_switch, Node.beginner_cfg]

end frameStart

/-! ## The overhead (R2, R202) -/

section bytes
variable (o : TxOverhead)

theorem TxOverhead.bytes_take :
    o.bytes.take 7 = [0xF6#8, 0x28#8, 0x5A#8, 0xC3#8] ++ be1 o.node ++ be2 o.count.toNat := rfl
/-- The notice field stands behind 13 bytes. -/
theorem TxOverhead.bytes_drop : o.bytes.drop 13 = o.notice ++ be2 o.check.toNat := rfl
theorem TxOverhead.bytes_notice (h : o.notice.length = 33) : (o.bytes.drop 13).take 33 = o.notice := by
  rw [TxOverhead.bytes_drop, List.take_left' h]

end bytes

theorem Node.startFrame_take (n : Node) (l : Line) : (n.startFrame l).overhead.take 7 =
    [0xF6#8, 0x28#8, 0x5A#8, 0xC3#8] ++ be1 n.cfg.nodeNumber ++ be2 n.clk.advance.frame.toNat := by
  refine (TxOverhead.bytes_take _).trans ?_
  change _ ++ be1 (n.beginner l).cfg.nodeNumber ++ be2 (n.beginner l).clk.frame.toNat = _
  rw [Node.beginner_cfg, Node.beginner_clk]
theorem Node.startFrame_notice (n : Node) (l : Line) {f : List Byte} (h : f.length = 33)
    (hf : (((n.cs.line.get l).present (n.line.get l).state.failed).noticeOut n.cfg.nodeNumber).1 = f) :
    ((n.startFrame l).overhead.drop 13).take 33 = f := by
  have hnotice : (((n.beginner l).cs.line.get l).noticeOut (n.beginner l).cfg.nodeNumber).1 = f := by
    rw [Node.beginner_switch, Node.beginner_cfg, hf]
  refine (TxOverhead.bytes_notice _ ?_).trans hnotice
  exact (congrArg List.length hnotice).trans h

/-! ## The command -/

theorem exec_frameStart {s : State} (voice : Vector CellVal 8) (hs : s.awake) :
    exec (.frameStart voice) s = .next (s.settle.became (s.settle.node.frameStart voice)) := by
  have harm : exec (.frameStart voice) s = execFrameStart voice s := rfl
  rw [harm, execFrameStart, unlessHeld_awake s _ hs]
  rfl

/-! ## Due events taken before it -/

section settle
variable (s : State)

theorem State.msTick_clk : s.msTick.node.clk = { s.node.clk with tickDue := false } := by
  by_cases h : s.node.clk.tickDue = true
  · rw [(s.msTick_due h).1]
    change { s.settleTick.node.clk with tickDue := false } = _
    rw [s.settleTick_steady.clk]
  · have hnot : s.node.clk.tickDue = false := by simpa using h
    rw [s.msTick_not_due hnot, ← hnot]
theorem State.msTick_keeps : s.node.Keeps s.msTick.node := by
  by_cases h : s.node.clk.tickDue = true
  · rw [(s.msTick_due h).1]
    exact s.settleTick_steady.toKeeps.trans (Node.tick_keeps _)
  · rw [s.msTick_not_due (by simpa using h)]
    exact .refl _
theorem State.msTick_pending : s.msTick.pending = s.pending := by
  by_cases h : s.node.clk.tickDue = true
  · exact (s.msTick_due h).2
  · rw [s.msTick_not_due (by simpa using h)]
/-- The due events taken change of the clock only that a tick is due. -/
theorem State.settle_clk : s.settle.node.clk = { s.node.clk with tickDue := false } := by
  rw [State.settle_node, (Node.settle_steady _).clk, (State.settleTick_steady _).clk, State.msTick_clk,
    s.settleTick_steady.clk]
theorem State.settle_keeps : s.node.Keeps s.settle.node := by
  rw [State.settle_node]
  exact ((s.settleTick_steady.toKeeps.trans (State.msTick_keeps _)).trans (State.settleTick_steady _).toKeeps).trans
    (Node.settle_steady _).toKeeps
theorem State.settle_pending : s.settle.pending = s.pending := by
  simp only [State.settle, State.settleTick_pending, State.msTick_pending]

end settle

end Sys2Proof.Machine
end

section
/-! SUPPORT. The notice field sent and the one confirmed (R58 to R61), case by case. -/

namespace Sys2Proof.Machine

/-! ## The notice field sent -/

theorem NoticeSending.fragment_length (x : NoticeSending) : x.fragment.length = 33 := by
  have hdata : ((x.notice.bytes.drop (28 * x.next)).take 28).length ≤ 28 := List.length_take_le _ _
  simp only [NoticeSending.fragment, be1, List.length_append, List.length_replicate, List.length_singleton]
  omega

section noticeOut
variable {w : SwitchLine} (origin : Nat)

theorem SwitchLine.noticeOut_forward {f : List Byte} (h : w.forward = some f) :
    w.noticeOut origin = (f, { w with forward := none }) := by simp [SwitchLine.noticeOut, h]
theorem SwitchLine.noticeOut_sending {x : NoticeSending} (h : w.forward = none) (hx : w.sending = some x) :
    w.noticeOut origin = w.sendFragment x := by simp [SwitchLine.noticeOut, h, hx]
theorem SwitchLine.noticeOut_begins {m : Notice} {rest : List Notice} (h : w.forward = none) (hx : w.sending = none)
    (hw : w.waiting = m :: rest) : w.noticeOut origin =
      ({ w with waiting := rest, seq := w.seq + 1 } : SwitchLine).sendFragment ⟨m, origin, w.seq, 0⟩ := by
  simp [SwitchLine.noticeOut, h, hx, hw]
theorem SwitchLine.noticeOut_empty (h : w.forward = none) (hx : w.sending = none) (hw : w.waiting = []) :
    w.noticeOut origin = (emptyNotice, w) := by simp [SwitchLine.noticeOut, h, hx, hw]
/-- No field waits to be forwarded after a frame has been begun. -/
theorem SwitchLine.noticeOut_clears : (w.noticeOut origin).2.forward = none := by
  cases h : w.forward with
  | some f => rw [SwitchLine.noticeOut_forward _ h]
  | none =>
    cases hx : w.sending with
    | some x => rw [SwitchLine.noticeOut_sending _ h hx]; exact h
    | none =>
      cases hw : w.waiting with
      | nil => rw [SwitchLine.noticeOut_empty _ h hx hw]; exact h
      | cons m rest => rw [SwitchLine.noticeOut_begins _ h hx hw]; exact h

end noticeOut

/-! ## The notice field confirmed -/

theorem noticeEmpty_iff (f : List Byte) : noticeEmpty f = true ↔ (f.headD 0).toNat = 0 := by
  rw [noticeEmpty, beq_iff_eq]
  exact BitVec.toNat_inj (y := 0).symm

section noticeConfirmed
variable {n : Node} {l : Line} {f : List Byte}

theorem Node.noticeConfirmed_empty (h : (f.headD 0).toNat = 0) : n.noticeConfirmed l f = n :=
  if_pos ((noticeEmpty_iff f).2 h)

variable (h : (f.headD 0).toNat ≠ 0)
include h

theorem Node.noticeConfirmed_own (hown : (f.headD 0).toNat = n.cfg.nodeNumber) : n.noticeConfirmed l f = n.nodeConflict l := by
  rw [Node.noticeConfirmed, if_neg fun he => h ((noticeEmpty_iff f).1 he), if_pos hown]
theorem Node.noticeConfirmed_dark (hown : (f.headD 0).toNat ≠ n.cfg.nodeNumber) (hdark : (n.line.get l.other).state = .disabled) :
    n.noticeConfirmed l f = n := by
  rw [Node.noticeConfirmed, if_neg fun he => h ((noticeEmpty_iff f).1 he), if_neg hown, if_pos hdark]
/-- The field waits for the other line; one that it replaces is lost on the line that received it. -/
theorem Node.noticeConfirmed_forward (hown : (f.headD 0).toNat ≠ n.cfg.nodeNumber)
    (hlit : (n.line.get l.other).state ≠ .disabled) : n.noticeConfirmed l f =
      (if (n.cs.line.get l.other).forward.isSome then n.modSwitch l fun w => { w with lost := sat16 w.lost } else n).modSwitch
        l.other fun w => { w with forward := some f } := by
  rw [Node.noticeConfirmed, if_neg fun he => h ((noticeEmpty_iff f).1 he), if_neg hown, if_neg hlit]

end noticeConfirmed

theorem Node.nodeConflict_eq (n : Node) (l : Line) : n.nodeConflict l =
    let k := min 65535 (n.cs.conflicts + 1)
    let counted : Node := { n with cs := { n.cs with conflicts := k, conflictAge := some 0 } }
    if (∀ age, n.cs.conflictAge = some age → 240000 ≤ age) then counted.report (.nodeConflict l n.cfg.nodeNumber k)
    else counted := by
  unfold Node.nodeConflict
  cases h : n.cs.conflictAge with
  | none => simp [sat16, Config.top16]
  | some age => simp [sat16, Config.top16]

/-! ## The obligation -/

/-- What line `l` sends as its notice field at a frame start, and what its switch line is then, by what `noticeOut` gives. -/
theorem Node.frameStart_notice (n : Node) (voice : Vector CellVal 8) {l : Line} (hlit : (n.line.get l).state ≠ .disabled)
    {f : List Byte} {v : SwitchLine} (hlen : f.length = 33)
    (hout : ((n.cs.line.get l).present (n.line.get l).state.failed).noticeOut n.cfg.nodeNumber = (f, v)) :
    ((n.startFrame l).overhead.drop 13).take 33 = f ∧ (n.frameStart voice).cs.line.get l = v :=
  ⟨n.startFrame_notice l hlen (by rw [hout]), by rw [Node.frameStart_switch _ _ _ hlit, hout]⟩

/-- Settles O36: the field sent by the cases of `noticeOut`, the field confirmed by those of `noticeConfirmed`. -/
theorem noticesGoOutAndAreForwarded : Obligations.NoticesGoOutAndAreForwarded := by
  refine ⟨fun s voice l hs hsettled hlit => ?_, fun n l f => ⟨?_, fun h hown hlit => ?_, fun h hown => ?_⟩⟩
  · intro w count field
    have hexec : exec (.frameStart voice) s = .next (s.became (s.node.frameStart voice)) := by
      rw [exec_frameStart voice hs, hsettled]
    have hline := s.node.frameStart_lit voice l hlit
    have hq := s.node.frameStart_switch voice l hlit
    have hnotice {f : List Byte} {v : SwitchLine} := s.node.frameStart_notice voice hlit (f := f) (v := v)
    obtain ⟨hforward, hsending, hwaiting, hseq⟩ := w.present_notices (s.node.line.get l).state.failed
    refine ⟨_, s.node.startFrame l, hexec, by rw [State.became_node, hline]; rfl, ?_⟩
    rw [State.became_node]
    refine ⟨hq ▸ SwitchLine.noticeOut_clears _, fun f hf hlen => ?_, fun hf => ⟨fun x hx => ?_, fun m rest hx hw => ?_,
      fun hx hw => ?_⟩⟩
    · obtain ⟨hsent, hleft⟩ := hnotice hlen (SwitchLine.noticeOut_forward _ (hforward.trans hf))
      rw [hleft]
      exact ⟨hsent, hsending, hwaiting, hseq⟩
    · obtain ⟨hsent, hleft⟩ := hnotice x.fragment_length (SwitchLine.noticeOut_sending _ (hforward.trans hf) (hsending.trans hx))
      rw [hleft]
      exact ⟨⟨hsent, rfl⟩, hwaiting, hseq⟩
    · have hout := SwitchLine.noticeOut_begins s.node.cfg.nodeNumber (hforward.trans hf) (hsending.trans hx) (hwaiting.trans hw)
      rw [hseq] at hout
      obtain ⟨hsent, hleft⟩ := hnotice (NoticeSending.fragment_length _) hout
      rw [hleft]
      exact ⟨⟨hsent, rfl⟩, rfl, rfl⟩
    · obtain ⟨hsent, hleft⟩ := hnotice List.length_replicate
        (SwitchLine.noticeOut_empty _ (hforward.trans hf) (hsending.trans hx) (hwaiting.trans hw))
      rw [hleft]
      exact ⟨hsent, hsending.trans hx, hwaiting.trans hw, hseq⟩
  · rintro (h | ⟨hown, hdark⟩)
    · exact Node.noticeConfirmed_empty h
    · by_cases h : (f.headD 0).toNat = 0
      · exact Node.noticeConfirmed_empty h
      · exact Node.noticeConfirmed_dark h hown hdark
  · dsimp only
    rw [Node.noticeConfirmed_forward h hown hlit]
    split
    · cases l <;> exact ⟨rfl, rfl, rfl⟩
    · cases l <;> exact ⟨rfl, rfl, rfl⟩
  · dsimp only
    rw [Node.noticeConfirmed_own h hown, Node.nodeConflict_eq]
    refine ⟨fun hage => ?_, fun age hage => ?_⟩
    · simp [hage]
    · simp [hage]

end Sys2Proof.Machine
end

section
/-! SUPPORT. The voice bus of a frame start (R116, R117) and the counts of its paths and lines. -/

namespace Sys2Proof.Machine

/-! ## A channel of the voice bus -/

section channel
variable {n : Node} {voice : Vector CellVal 8} {p : Fin 8}

/-- An enabled port in RUNNING takes the cell received, and sends one dropped while its call talks. -/
theorem Node.voiceChannel_on (h : n.phoneOn p = true) : (n.voiceChannel voice p).phone p =
    { n.phone p with
      voiceIn := voice[p], toneOut := (n.phone p).tone
      voiceOut := match (n.phone p).call.talks, (n.phone p).liveCell, (n.phone p).selected with
        | true, some c, some x => (n.cs.line.get x.line).cells.getD c Config.idleFill
        | _, _, _ => Config.idleFill } := (Node.phone_modPhone _ _ _).trans (if_pos h)
/-- Any other port sends idle fill and tone 00h, and discards what it receives. -/
theorem Node.voiceChannel_off (h : n.phoneOn p = false) : (n.voiceChannel voice p).phone p =
    { n.phone p with voiceIn := Config.idleFill, toneOut := 0, voiceOut := Config.idleFill } :=
  (Node.phone_modPhone _ _ _).trans (if_neg (by simp [h]))
theorem Node.voiceChannel_other {q : Fin 8} (h : p ≠ q) : (n.voiceChannel voice p).phone q = n.phone q :=
  Node.phone_setPhone_ne n h _
/-- A channel turns on the operating state, the port and the cells presented alone. -/
theorem Node.voiceChannel_congr {m : Node} (hop : m.op = n.op) (hcs : m.cs = n.cs) (hphone : m.phone p = n.phone p) :
    (m.voiceChannel voice p).phone p = (n.voiceChannel voice p).phone p := by
  have hon : m.phoneOn p = n.phoneOn p := by rw [Node.phoneOn, Node.phoneOn, hop, hphone]
  cases h : n.phoneOn p with
  | true => rw [Node.voiceChannel_on (hon.trans h), Node.voiceChannel_on h, hphone, hcs]
  | false => rw [Node.voiceChannel_off (hon.trans h), Node.voiceChannel_off h, hphone]

theorem Node.voiceChannels_other {ps : List (Fin 8)} (h : p ∉ ps) :
    (ps.foldl (fun m q => m.voiceChannel voice q) n).phone p = n.phone p := by
  induction ps generalizing n with
  | nil => rfl
  | cons q ps ih =>
    obtain ⟨hne, hps⟩ := List.ne_and_not_mem_of_not_mem_cons h
    exact (ih hps).trans (Node.voiceChannel_other hne.symm)
/-- Each port of the bus stands as its own channel leaves it. -/
theorem Node.voiceChannels_phone {ps : List (Fin 8)} (hps : ps.Nodup) (hp : p ∈ ps) :
    (ps.foldl (fun m q => m.voiceChannel voice q) n).phone p = (n.voiceChannel voice p).phone p := by
  induction ps generalizing n with
  | nil => exact absurd hp List.not_mem_nil
  | cons q ps ih =>
    obtain ⟨hq, hps⟩ := List.nodup_cons.1 hps
    rcases List.mem_cons.1 hp with rfl | hp
    · exact Node.voiceChannels_other hq
    · have hne : q ≠ p := fun he => hq (he ▸ hp)
      rw [List.foldl_cons, ih hps hp]
      exact Node.voiceChannel_congr rfl rfl (Node.voiceChannel_other hne)

end channel

/-! ## The voice bus of a frame start -/

section frameStart
variable (n : Node) (voice : Vector CellVal 8)

theorem Node.frameStart_phone (p : Fin 8) :
    (n.frameStart voice).phone p = (n.begun.readTrains.voiceChannel voice p).phone p := by
  rw [Node.frameStart_eq]
  exact Node.voiceChannels_phone (by decide) (by revert p; decide)
/-- The channel's port as the frame start leaves it: the settings and the call are those that the channel found. -/
theorem Node.frameStart_channel (p : Fin 8) : ∃ m : Node, m.op = (n.frameStart voice).op ∧ m.cs = (n.frameStart voice).cs ∧
    (n.frameStart voice).phone p = (m.voiceChannel voice p).phone p := by
  refine ⟨n.begun.readTrains, ?_, ?_, n.frameStart_phone voice p⟩
  · rw [Node.frameStart_eq, Node.voiceChannels_rest]
  · rw [Node.frameStart_eq, Node.voiceChannels_rest]

end frameStart

/-- What the voice bus leaves a port with, in the words of R116 and R117. -/
theorem voiceChannel_says {n m : Node} {voice : Vector CellVal 8} {p : Fin 8} {ph : Phone} (hop : n.op = m.op) (hcs : n.cs = m.cs)
    (hph : ph = (n.voiceChannel voice p).phone p) :
    (m.op = .running ∧ ph.set.enabled = true → ph.voiceIn = voice[p] ∧
      (∀ c x, ph.call = .opened ∨ ph.call = .answered → ph.liveCell = some c → ph.selected = some x →
        ph.voiceOut = (m.cs.line.get x.line).cells.getD c 0xD5D5#16) ∧
      ((ph.call ≠ .opened ∧ ph.call ≠ .answered) ∨ ph.liveCell = none ∨ ph.selected = none → ph.voiceOut = 0xD5D5#16)) ∧
    (m.op = .config ∨ ph.set.enabled = false →
      ph.voiceIn = 0xD5D5#16 ∧ ph.voiceOut = 0xD5D5#16 ∧ ph.toneOut = 0x00#8) := by
  cases hon : n.phoneOn p with
  | false =>
    rw [Node.voiceChannel_off hon] at hph
    subst hph
    refine ⟨fun ⟨hrun, hen⟩ => ?_, fun _ => ⟨rfl, rfl, rfl⟩⟩
    simp [Node.phoneOn, hop, hrun, show (n.phone p).set.enabled = true from hen] at hon
  | true =>
    rw [Node.voiceChannel_on hon] at hph
    subst hph
    obtain ⟨hen, hrun⟩ : (n.phone p).set.enabled = true ∧ m.op = .running := by simpa [Node.phoneOn, hop] using hon
    refine ⟨fun _ => ⟨rfl, fun c x hcall hcell hside => ?_, fun hnot => ?_⟩, fun hnot => ?_⟩
    · dsimp only at hcall hcell hside ⊢
      rw [(CallState.talks_iff _).2 hcall, hcell, hside, hcs]
      rfl
    · dsimp only at hnot ⊢
      rw [← not_or, ← CallState.talks_iff] at hnot
      split
      · rename_i htalks hcell hside
        simp [htalks, hcell, hside] at hnot
      · rfl
    · exact absurd hnot (by simp [hrun, hen])

/-! ## The counts of a frame start -/

section counts
variable (n : Node) (voice : Vector CellVal 8)

/-- The frames begun, the trains read and the voice bus leave paths and timing as the counting has left them. -/
theorem Node.frameStart_counts : (n.frameStart voice).path = n.applyDue.countFrame.path ∧
    (n.frameStart voice).timing = n.applyDue.countFrame.timing := by
  rw [Node.frameStart_eq, Node.voiceChannels_rest, n.begun.readTrains_engines.rest, Node.begun, Node.beginFrame_rest,
    Node.beginner, Node.beginFrame_rest, n.trained_engines.rest]
  exact ⟨rfl, rfl⟩
theorem Node.frameStart_pathOf (x : Side) :
    (n.frameStart voice).pathOf x = { n.pathOf x with timer := (n.pathOf x).timer - 1 } := by
  rw [Node.pathOf, (n.frameStart_counts voice).1]
  change Two.get ⟨n.applyDue.path.u.frame, n.applyDue.path.d.frame⟩ x.line = _
  rw [n.applyDue_traffic.path]
  cases x <;> rfl
theorem Node.frameStart_clean (l : Line) : (n.frameStart voice).timing.clean.get l =
    if (n.line.get l).qualifies then min 4294967295 (n.timing.clean.get l + 1) else 0 := by
  rw [(n.frameStart_counts voice).2]
  change Two.get ⟨n.applyDue.cleanFrame .u, n.applyDue.cleanFrame .d⟩ l = _
  cases l
  · change n.applyDue.cleanFrame .u = _
    rw [Node.cleanFrame, n.applyDue_traffic.line, n.applyDue_traffic.timing]
    rfl
  · change n.applyDue.cleanFrame .d = _
    rw [Node.cleanFrame, n.applyDue_traffic.line, n.applyDue_traffic.timing]
    rfl

end counts

/-- The frame count, the tick every fourth frame start, and the rest of the clock after a frame start (R44, R186). -/
theorem Clock.advance_eq (c : Clock) : c.advance =
    { frame := if c.started then c.frame + 1 else c.frame, started := true
      phase := if c.phase = 3 then 0 else c.phase + 1, tickDue := decide (c.phase = 3) } := rfl

/-- Settles O33: the due events taken leave the frame count and the settings; the frame start is then taken stage by stage. -/
theorem frameStartCountsAndBeginsFrames : Obligations.FrameStartCountsAndBeginsFrames := by
  intro s voice hs c
  have hkeep : s.node.Keeps (s.settle.node.frameStart voice) := s.settle_keeps.trans (Node.frameStart_keeps _ voice)
  have hclk : (s.settle.node.frameStart voice).clk = c.advance := by
    rw [Node.frameStart_clk, State.settle_clk]; rfl
  refine ⟨_, exec_frameStart voice hs, by rw [State.became_pending, s.settle_pending], ?_⟩
  rw [State.became_node]
  refine ⟨hclk.trans c.advance_eq, hkeep.op, hkeep.cfg, hkeep.pins, fun l => ⟨fun hdark => ?_, fun hlit => ?_⟩, fun p => ?_,
    fun hsettled => ?_⟩
  · rw [Node.frameStart_state] at hdark
    rw [Node.frameStart_dark _ _ _ hdark]
  · rw [Node.frameStart_state] at hlit
    rw [Node.frameStart_lit _ _ _ hlit]
    refine ⟨_, rfl, rfl, ?_⟩
    rw [Node.startFrame_take, s.settle_keeps.cfg, Node.frameStart_clk]
  · obtain ⟨m, hop, hcs, hph⟩ := s.settle.node.frameStart_channel voice p
    exact voiceChannel_says hop hcs hph
  · rw [hsettled]
    exact ⟨fun l => ⟨Node.frameStart_state _ _ l, Node.frameStart_clean _ _ l⟩, Node.frameStart_pathOf _ _,
      Node.frameStart_runTime _ _, rfl⟩

end Sys2Proof.Machine
end

section
/-! SUPPORT. The service table: records looked up and replaced, and the halves that the services of a level use (R64, R69). -/

namespace Sys2Proof.Machine

/-! ## Records looked up -/

theorem find?_insertBy_of_not {α : Type} {p : α → Bool} {x : α} (le : α → α → Bool) (hx : p x = false) (l : List α) :
    (insertBy le x l).find? p = l.find? p := by
  induction l with
  | nil => simp [insertBy, hx]
  | cons y l ih =>
    unfold insertBy
    split
    · rw [List.find?_cons, hx]
    · rw [List.find?_cons, List.find?_cons, ih]
theorem find?_insertBy_of_only {α : Type} {p : α → Bool} {x : α} (le : α → α → Bool) (hx : p x = true) {l : List α}
    (hl : ∀ y ∈ l, p y = false) : (insertBy le x l).find? p = some x := by
  induction l with
  | nil => simp [insertBy, hx]
  | cons y l ih =>
    unfold insertBy
    split
    · rw [List.find?_cons, hx]
    · rw [List.find?_cons, hl y List.mem_cons_self]
      exact ih fun z hz => hl z (List.mem_cons_of_mem y hz)
/-- In a list without the entries of one number, any other number is looked up as before. -/
theorem find?_filter_ne {α : Type} (num : α → Nat) {i j : Nat} (h : j ≠ i) (l : List α) :
    (l.filter (num · != i)).find? (num · == j) = l.find? (num · == j) := by
  rw [List.find?_filter]
  congr 1
  funext x
  by_cases hx : num x = j
  · simp [hx, h]
  · simp [hx]
theorem find?_filter_same {α : Type} (num : α → Nat) (i : Nat) (l : List α) :
    (l.filter (num · != i)).find? (num · == i) = none := by
  simp [List.find?_eq_none]

@[simp] theorem Node.svc_putSvc (n : Node) (v : Service) : (n.putSvc v).svc v.id = some v := by
  unfold Node.svc
  rw [Node.putSvc_au]
  exact find?_insertBy_of_only _ (by simp) (by simp)
theorem Node.svc_putSvc_ne (n : Node) {v : Service} {id : Nat} (h : id ≠ v.id) : (n.putSvc v).svc id = n.svc id := by
  unfold Node.svc
  rw [Node.putSvc_au]
  dsimp only
  rw [find?_insertBy_of_not _ (by simpa using h.symm)]
  exact find?_filter_ne Service.id h _
@[simp] theorem Node.svc_dropSvc (n : Node) (id : Nat) : (n.dropSvc id).svc id = none :=
  find?_filter_same Service.id id _
theorem Node.svc_dropSvc_ne (n : Node) {id j : Nat} (h : j ≠ id) : (n.dropSvc id).svc j = n.svc j :=
  find?_filter_ne Service.id h _
/-- A record found for an id has that id. -/
theorem Node.svc_id {n : Node} {id : Nat} {v : Service} (h : n.svc id = some v) : v.id = id := by
  simpa using List.find?_some h
/-- What leaves the service table alone leaves every record. -/
theorem Node.svc_congr {n m : Node} (h : m.au.services = n.au.services) (id : Nat) : m.svc id = n.svc id := by
  simp only [Node.svc, h]

/-! ## The use of a level (R69) -/

/-- The halves that a service adds to the use of a level. -/
def Service.useAt (v : Service) (lv : Nat) : Nat := if v.level = lv then v.halves else 0
/-- The halves that the record of an id adds to the use of a level. -/
def Node.useOf (n : Node) (id lv : Nat) : Nat := ((n.svc id).map (·.useAt lv)).getD 0

theorem Protection.halves_zero (p : Protection) : p.halves 0 = 0 := by cases p <;> rfl
theorem Protection.halves_mono (p : Protection) {g k : Nat} (h : g ≤ k) : p.halves g ≤ p.halves k := by
  cases p with
  | dual => exact Nat.mul_le_mul_left 2 h
  | reroute => exact h
theorem Service.halves_nil {v : Service} (h : v.cells = []) : v.halves = 0 := by
  rw [Service.halves, h]; exact v.prot.halves_zero
theorem Service.useAt_nil {v : Service} (h : v.cells = []) (lv : Nat) : v.useAt lv = 0 := by
  rw [Service.useAt, v.halves_nil h, ite_self]

theorem Node.levelUse_eq_sum (n : Node) (lv : Nat) : n.levelUse lv = (n.au.services.map (·.useAt lv)).sum := by
  unfold Node.levelUse
  induction n.au.services with
  | nil => rfl
  | cons v l ih =>
    by_cases h : v.level = lv
    · simp [h, ih, Service.useAt]
    · simp [h, ih, Service.useAt]
theorem Node.levelUse_congr {n m : Node} (h : m.au.services = n.au.services) (lv : Nat) : m.levelUse lv = n.levelUse lv := by
  simp only [Node.levelUse, h]
theorem sum_map_insertBy {α : Type} (le : α → α → Bool) (f : α → Nat) (x : α) (l : List α) :
    ((insertBy le x l).map f).sum = f x + (l.map f).sum := by
  induction l with
  | nil => rfl
  | cons y l ih =>
    unfold insertBy
    split
    · rfl
    · rw [List.map_cons, List.sum_cons, ih, List.map_cons, List.sum_cons]; omega
/-- A record entered or replaced counts with what the others use. -/
theorem Node.levelUse_putSvc (n : Node) (v : Service) (lv : Nat) :
    (n.putSvc v).levelUse lv = v.useAt lv + (n.dropSvc v.id).levelUse lv := by
  rw [Node.levelUse_eq_sum, Node.levelUse_eq_sum]
  exact sum_map_insertBy _ _ _ _
/-- What the record of an id uses and what the others use are all of it. -/
theorem Node.levelUse_dropSvc {n : Node} (h : n.au.services.Pairwise (·.id < ·.id)) (id lv : Nat) :
    (n.dropSvc id).levelUse lv + n.useOf id lv = n.levelUse lv := by
  rw [Node.levelUse_eq_sum, Node.levelUse_eq_sum]
  unfold Node.useOf Node.svc
  rw [Node.dropSvc_au]
  dsimp only
  generalize n.au.services = l at h
  induction l with
  | nil => rfl
  | cons v l ih =>
    have hl := List.pairwise_cons.1 h
    by_cases hv : v.id = id
    · have hkeep : l.filter (·.id != id) = l := by
        rw [List.filter_eq_self]
        intro w hw
        have := hl.1 w hw
        simp only [bne_iff_ne]
        omega
      simp [hv, hkeep, Nat.add_comm]
    · have := ih hl.2
      simp only [List.filter_cons, List.find?_cons, hv, bne_iff_ne, ne_eq, not_false_eq_true, if_true, List.map_cons,
        List.sum_cons, beq_eq_false_iff_ne.2 hv]
      omega
theorem Node.levelUse_dropSvc_le (n : Node) (id lv : Nat) : (n.dropSvc id).levelUse lv ≤ n.levelUse lv := by
  rw [Node.levelUse_eq_sum, Node.levelUse_eq_sum]
  exact (List.filter_sublist.map _).sum_le_sum fun _ _ => Nat.zero_le _
theorem Node.useOf_of_svc {n : Node} {id : Nat} {v : Service} (h : n.svc id = some v) (lv : Nat) :
    n.useOf id lv = v.useAt lv := by
  simp [Node.useOf, h]

end Sys2Proof.Machine
end

section
/-! SUPPORT. The cells that a placement takes (R74, R75): in order LINEAR the lowest usable ones, in order SPREAD those of the
lowest rank in their slots. -/

namespace Sys2Proof.Machine

/-! ## The rank of a cell in its slot -/

/-- How many cells of a list stand below a cell in its slot. -/
def slotRank (usable : List Nat) (c : Nat) : Nat := (usable.filter fun d => decide (d / 12 = c / 12 ∧ d < c)).length

/-- The lower rank first, and the lower cell among equals. -/
def RankedBefore (usable : List Nat) (c d : Nat) : Prop :=
  slotRank usable c < slotRank usable d ∨ (slotRank usable c = slotRank usable d ∧ c < d)

/-- The walk over an ascending list gives each cell its rank. `seen` are the cells before: as many of them as `next` says lie in
the slot `slot`, and none in any later slot. -/
theorem ranked_eq (l seen : List Nat) (slot next : Nat) (hasc : (seen ++ l).Pairwise (· < ·))
    (hnext : next = (seen.filter fun d => decide (d / 12 = slot)).length)
    (hlater : ∀ d ∈ seen, ∀ c ∈ l, c / 12 ≠ slot → d / 12 ≠ c / 12) :
    ranked slot next l = l.map fun c => (slotRank (seen ++ l) c, c) := by
  induction l generalizing seen slot next with
  | nil => rfl
  | cons c l ih =>
    obtain ⟨hseen, htail, hbelow⟩ := List.pairwise_append.1 hasc
    have hc := (List.pairwise_cons.1 htail).1
    have hsplit : seen ++ c :: l = (seen ++ [c]) ++ l := by simp
    have hrank : slotRank (seen ++ c :: l) c = (seen.filter fun d => decide (d / 12 = c / 12)).length := by
      have habove : (c :: l).filter (fun d => decide (d / 12 = c / 12 ∧ d < c)) = [] := by
        rw [List.filter_eq_nil_iff]
        intro d hd
        have : c ≤ d := (List.mem_cons.1 hd).elim (fun e => e.ge) fun h => (hc d h).le
        simp only [decide_eq_true_eq]
        omega
      have hlow : seen.filter (fun d => decide (d / 12 = c / 12 ∧ d < c)) = seen.filter fun d => decide (d / 12 = c / 12) :=
        List.filter_congr fun d hd => by simp [hbelow d hd c List.mem_cons_self]
      rw [slotRank, List.filter_append, habove, hlow, List.append_nil]
    have hrest (k : Nat) (hk : k = ((seen ++ [c]).filter fun d => decide (d / 12 = c / 12)).length) :
        ranked (c / 12) k l = l.map fun d => (slotRank (seen ++ c :: l) d, d) := by
      rw [hsplit] at hasc ⊢
      refine ih (seen ++ [c]) (c / 12) k hasc hk fun d hd e he hne => ?_
      have hde : d / 12 ≤ c / 12 := by
        rcases List.mem_append.1 hd with h | h
        · exact Nat.div_le_div_right (hbelow d h c List.mem_cons_self).le
        · rw [List.mem_singleton.1 h]
      have hce : c / 12 ≤ e / 12 := Nat.div_le_div_right (hc e he).le
      omega
    unfold ranked
    split
    · rename_i hslot
      subst hslot
      rw [List.map_cons, hrank, ← hnext]
      exact congrArg _ (hrest (next + 1) (by simp [hnext]))
    · rename_i hslot
      have hnone : (seen.filter fun d => decide (d / 12 = c / 12)) = [] := by
        rw [List.filter_eq_nil_iff]
        intro d hd
        simpa using hlater d hd c List.mem_cons_self hslot
      rw [List.map_cons, hrank, hnone]
      exact congrArg _ (hrest 1 (by simp [hnone]))

/-- A slot has 12 cells. -/
theorem slotRank_lt {usable : List Nat} (h : usable.Nodup) (c : Nat) : slotRank usable c < 12 := by
  have hsub : (usable.filter fun d => decide (d / 12 = c / 12 ∧ d < c)) ⊆ List.range' (12 * (c / 12)) (c % 12) := by
    intro d hd
    have := of_decide_eq_true (List.mem_filter.1 hd).2
    rw [List.mem_range'_1]
    omega
  have hle := ((h.filter _).subperm hsub).length_le
  rw [List.length_range'] at hle
  have : c % 12 < 12 := Nat.mod_lt _ (by omega)
  exact Nat.lt_of_le_of_lt hle this

/-! ## The order in which usable cells are taken -/

theorem Order.rank_spread {usable : List Nat} (h : usable.Pairwise (· < ·)) :
    Order.spread.rank usable = (List.range 12).flatMap fun r => usable.filter (slotRank usable · == r) := by
  have := ranked_eq usable [] 78 0 h rfl nofun
  rw [List.nil_append] at this
  simp only [Order.rank, this, List.filter_map, List.map_map, Function.comp_def, List.map_id']
theorem Order.rank_spread_pairwise {usable : List Nat} (h : usable.Pairwise (· < ·)) :
    (Order.spread.rank usable).Pairwise (RankedBefore usable) := by
  rw [Order.rank_spread h, List.pairwise_flatMap]
  refine ⟨fun r _ => ?_, List.pairwise_lt_range.imp fun hrs c hc d hd => ?_⟩
  · refine (h.filter _).imp_of_mem fun {c d} hc hd hlt => .inr ⟨?_, hlt⟩
    have hcr := beq_iff_eq.1 (List.mem_filter.1 hc).2
    have hdr := beq_iff_eq.1 (List.mem_filter.1 hd).2
    rw [hcr, hdr]
  · have hcr := beq_iff_eq.1 (List.mem_filter.1 hc).2
    have hdr := beq_iff_eq.1 (List.mem_filter.1 hd).2
    exact .inl (by rw [hcr, hdr]; exact hrs)
theorem RankedBefore.ne {usable : List Nat} {c d : Nat} (h : RankedBefore usable c d) : c ≠ d := by
  rintro rfl
  rcases h with h | h <;> omega
/-- Each usable cell is ranked, once. -/
theorem Order.rank_perm (o : Order) {usable : List Nat} (h : usable.Pairwise (· < ·)) : (o.rank usable).Perm usable := by
  cases o with
  | linear => exact .refl _
  | spread =>
    have hnodup : usable.Nodup := h.imp Nat.ne_of_lt
    refine (List.perm_ext_iff_of_nodup ((Order.rank_spread_pairwise h).imp RankedBefore.ne) hnodup).2 fun c => ?_
    rw [Order.rank_spread h]
    simp only [List.mem_flatMap, List.mem_range, List.mem_filter, beq_iff_eq]
    exact ⟨fun ⟨_, _, hc, _⟩ => hc, fun hc => ⟨_, slotRank_lt hnodup c, hc, rfl⟩⟩

/-! ## The cells taken -/

theorem Order.take_sublist (o : Order) (g : Nat) (usable : List Nat) : (o.take g usable).Sublist usable :=
  List.filter_sublist
theorem Order.mem_take {o : Order} {g : Nat} {usable : List Nat} {c : Nat} :
    c ∈ o.take g usable ↔ c ∈ usable ∧ c ∈ (o.rank usable).take g := by
  simp [Order.take]
/-- As many usable cells as the grant are taken, if there are as many. -/
theorem Order.length_take (o : Order) (g : Nat) {usable : List Nat} (h : usable.Pairwise (· < ·)) :
    (o.take g usable).length = min g usable.length := by
  have hperm := o.rank_perm h
  have hnodup : usable.Nodup := h.imp Nat.ne_of_lt
  have hchosen : ((o.rank usable).take g).Nodup := (hperm.nodup_iff.2 hnodup).sublist (List.take_sublist _ _)
  have htaken : (o.take g usable).Perm ((o.rank usable).take g) :=
    (List.perm_ext_iff_of_nodup (hnodup.sublist (o.take_sublist g usable)) hchosen).2 fun c =>
      Order.mem_take.trans ⟨fun hc => hc.2, fun hc => ⟨hperm.subset (List.mem_of_mem_take hc), hc⟩⟩
  rw [htaken.length_eq, List.length_take, hperm.length_eq]
theorem Order.take_linear (g : Nat) {usable : List Nat} (h : usable.Pairwise (· < ·)) :
    Order.linear.take g usable = usable.take g := by
  have hperm : (Order.linear.take g usable).Perm (usable.take g) := by
    have hnodup : usable.Nodup := h.imp Nat.ne_of_lt
    refine (List.perm_ext_iff_of_nodup (hnodup.sublist (Order.take_sublist _ _ _))
      (hnodup.sublist (List.take_sublist _ _))).2 fun c => ?_
    exact Order.mem_take.trans ⟨fun hc => hc.2, fun hc => ⟨List.mem_of_mem_take hc, hc⟩⟩
  exact hperm.eq_of_pairwise (fun _ _ _ _ hab hba => absurd hab (Nat.lt_asymm hba)) (h.sublist (Order.take_sublist _ _ _))
    (h.sublist (List.take_sublist _ _))
/-- In order SPREAD a cell taken is ranked before any that is left. -/
theorem Order.take_spread {g : Nat} {usable : List Nat} (h : usable.Pairwise (· < ·)) {c d : Nat}
    (hc : c ∈ Order.spread.take g usable) (hd : d ∈ usable) (hleft : d ∉ Order.spread.take g usable) :
    RankedBefore usable c d := by
  have hpair := Order.rank_spread_pairwise h
  rw [← List.take_append_drop g (Order.spread.rank usable)] at hpair
  refine (List.pairwise_append.1 hpair).2.2 c (Order.mem_take.1 hc).2 d ?_
  have hrank : d ∈ Order.spread.rank usable := (Order.spread.rank_perm h).mem_iff.2 hd
  rw [← List.take_append_drop g (Order.spread.rank usable)] at hrank
  exact (List.mem_append.1 hrank).resolve_left fun htaken => hleft (Order.mem_take.2 ⟨hd, htaken⟩)

end Sys2Proof.Machine
end

section
/-! SUPPORT. A placement without pre-emption (R73 to R75): when it is feasible, the cells it takes, and the halves that the service
owns afterwards. -/

namespace Sys2Proof.Machine

/-! ## Usable cells (R74) -/

theorem Node.cellsFor_ascending {n : Node} (h : n.au.allot.Pairwise (·.cell < ·.cell)) (need : Need) (free : Nat → Bool) :
    (n.cellsFor need free).Pairwise (· < ·) := List.pairwise_map.2 (h.filter _)

/-- A half is vacant for a service when it is unowned or the service's own. -/
theorem opens_self (id : Nat) (o : Option Nat) : opens (· == id) o = decide (o = none ∨ o = some id) := by
  cases o with
  | none => rfl
  | some j => by_cases h : j = id <;> simp [opens, h]
theorem Protection.need_a (p : Protection) (x : Side) : (!(p.need x).a) = decide (p = .reroute ∧ x = .b) := by
  cases p <;> cases x <;> rfl
theorem Protection.need_b (p : Protection) (x : Side) : (!(p.need x).b) = decide (p = .reroute ∧ x = .a) := by
  cases p <;> cases x <;> rfl
theorem HalfEntry.fits_eq (e : HalfEntry) (p : Protection) (x : Side) (free : Nat → Bool) : e.fits (p.need x) free =
    ((decide (p = .reroute ∧ x = .b) || opens free e.a) && (decide (p = .reroute ∧ x = .a) || opens free e.b)) := by
  rw [HalfEntry.fits, p.need_a, p.need_b]

/-! ## Feasibility (R69, R74) -/

/-- What a placement without pre-emption needs for a grant: the cells, and room below the level's ceiling. -/
def Node.Feasible (n : Node) (v : Service) (x : Side) (g : Nat) : Prop :=
  g ≤ (n.cellsFor (v.prot.need x) (· == v.id)).length ∧
    n.levelUse v.level - v.halves + v.prot.halves g ≤ n.au.map.ceilingOf v.level

theorem Node.plainCells_of_feasible {n : Node} {v : Service} {x : Side} {g : Nat} (h : n.Feasible v x g) :
    n.plainCells v x g = some (v.order.take g (n.cellsFor (v.prot.need x) (· == v.id))) := if_pos h
theorem Node.plainCells_of_not_feasible {n : Node} {v : Service} {x : Side} {g : Nat} (h : ¬ n.Feasible v x g) :
    n.plainCells v x g = none := if_neg h
/-- The cells of a placement are those of its grant's number that its order takes, of a feasible grant. -/
theorem Node.plainCells_eq_some {n : Node} {v : Service} {x : Side} {g : Nat} {cells : List Nat} :
    n.plainCells v x g = some cells ↔
      n.Feasible v x g ∧ cells = v.order.take g (n.cellsFor (v.prot.need x) (· == v.id)) := by
  by_cases h : n.Feasible v x g
  · rw [Node.plainCells_of_feasible h, Option.some_inj]
    exact ⟨fun e => ⟨h, e.symm⟩, fun e => e.2.symm⟩
  · rw [Node.plainCells_of_not_feasible h]
    exact ⟨nofun, fun e => absurd e.1 h⟩

/-! ## The halves owned afterwards (R74) -/

/-- The halves of a service: on each side that it uses, those of its cells. -/
theorem Service.halfSet_eq (v : Service) : v.halfSet =
    { a := if v.prot = .dual ∨ v.current = some .a then v.cells else []
      b := if v.prot = .dual ∨ v.current = some .b then v.cells else [] } := by
  unfold Service.halfSet
  split
  · rename_i hp; simp [hp]
  · rename_i hp hc; simp [hp, hc]
  · rename_i hp hc; simp [hp, hc]
  · rename_i hp hc; simp [hp, hc]

section takeCells
variable (n : Node) (v : Service) (cells : List Nat)

theorem Node.takeCells_allot :
    (n.takeCells v cells).au.allot = setOwner n.au.allot v.id { v with cells := cells }.halfSet := rfl
theorem Node.takeCells_services :
    (n.takeCells v cells).au.services = (n.putSvc { v with cells := cells }).au.services := rfl
theorem Node.takeCells_svc : (n.takeCells v cells).svc v.id = some { v with cells := cells } :=
  (Node.svc_congr (Node.takeCells_services n v cells) v.id).trans (n.svc_putSvc { v with cells := cells })
theorem Node.takeCells_svc_ne {id : Nat} (h : id ≠ v.id) : (n.takeCells v cells).svc id = n.svc id :=
  (Node.svc_congr (Node.takeCells_services n v cells) id).trans (n.svc_putSvc_ne (v := { v with cells := cells }) h)
theorem Node.takeCells_entry (c : Nat) : entryOf (n.takeCells v cells).au.allot c =
    (entryOf n.au.allot c).map fun e => { e with
      a := if (v.prot = .dual ∨ v.current = some .a) ∧ c ∈ cells then some v.id else if e.a = some v.id then none else e.a
      b := if (v.prot = .dual ∨ v.current = some .b) ∧ c ∈ cells then some v.id else if e.b = some v.id then none else e.b } := by
  rw [Node.takeCells_allot, entryOf_setOwner, Service.halfSet_eq]
  simp only [ownHalf_eq, List.contains_iff_mem, List.mem_ite_nil_right]
theorem Node.takeCells_staging : ∃ e, (n.takeCells v cells).cs.staging = n.cs.staging.filter (·.id != v.id) ++
    [{ id := v.id, cls := v.cls, eff := e
       set := { a := if v.prot = .dual ∨ v.current = some .a then cells else []
                b := if v.prot = .dual ∨ v.current = some .b then cells else [] } }] :=
  ⟨_, by rw [← Service.halfSet_eq { v with cells := cells }]; rfl⟩

end takeCells

/-- Settles O39: feasibility by the model's own test, the cells taken by the order's rules, the halves by `setOwner`. -/
theorem placementTakesUsableCellsInOrder : Obligations.PlacementTakesUsableCellsInOrder := by
  intro n v x g w vacant usable feasible below
  have husable : usable = n.cellsFor (v.prot.need x) (· == v.id) := by
    simp only [Node.cellsFor, HalfEntry.fits_eq, opens_self]
    rfl
  have hfeasible : feasible ↔ n.Feasible v x g := by rw [Node.Feasible, ← husable]
  have hasc : usable.Pairwise (· < ·) := husable ▸ Node.cellsFor_ascending w.allotment _ _
  refine ⟨fun h => Node.plainCells_of_not_feasible fun hf => h (hfeasible.2 hf), fun h => ?_, fun cells => ?_⟩
  · refine ⟨v.order.take g usable, ?_, ?_, v.order.take_sublist g usable, fun ho => ?_, fun ho c hc d hd hleft => ?_⟩
    · rw [husable]; exact Node.plainCells_of_feasible (hfeasible.1 h)
    · rw [v.order.length_take g hasc, Nat.min_eq_left h.1]
    · rw [ho]; exact Order.take_linear g hasc
    · rw [ho] at hc hleft; exact Order.take_spread hasc hc hd hleft
  · exact ⟨n.takeCells_svc v cells, fun id hid => n.takeCells_svc_ne v cells hid, n.takeCells_entry v cells,
      n.takeCells_staging v cells, rfl, rfl⟩

end Sys2Proof.Machine
end

section
/-! SUPPORT. The grant of a rate (R70, R71). -/

namespace Sys2Proof.Machine

theorem Class.minimum_eq (cls : Class) : cls.minimum = if cls = .e then 1 else 2 := by cases cls <;> rfl
theorem payloadRate_eq (cls : Class) (g : Nat) : payloadRate cls g = 64000 * (if cls = .e then g else g - 1) := by
  unfold payloadRate
  split <;> exact Nat.mul_comm _ _

/-! ## The rounded count (R70) -/

section roundCount
variable {q r : Nat} (hr : r < 64000)
include hr

theorem roundCount_down : 64000 * roundCount .down q r ≤ 64000 * q + r ∧
    64000 * q + r < 64000 * (roundCount .down q r + 1) := by
  unfold roundCount
  dsimp only
  omega
theorem roundCount_up : 64000 * q + r ≤ 64000 * roundCount .up q r ∧ 64000 * roundCount .up q r < 64000 * q + r + 64000 := by
  unfold roundCount
  dsimp only
  split <;> omega
/-- The nearest count, and at a tie the even one. -/
theorem roundCount_nearestEven : 64000 * roundCount .nearestEven q r ≤ 64000 * q + r + 32000 ∧
    64000 * q + r ≤ 64000 * roundCount .nearestEven q r + 32000 ∧
    (64000 * roundCount .nearestEven q r = 64000 * q + r + 32000 ∨ 64000 * q + r = 64000 * roundCount .nearestEven q r + 32000 →
      roundCount .nearestEven q r % 2 = 0) := by
  unfold roundCount
  dsimp only
  split
  · omega
  · split
    · omega
    · split <;> omega

end roundCount

/-- Settles O38: the rate is its whole cells and their remainder, and each mode rounds by `roundCount`. -/
theorem grantsRoundTheRateToCells : Obligations.GrantsRoundTheRateToCells := by
  intro cls mode rate x low g
  have hr : x % 64000 < 64000 := Nat.mod_lt _ (by omega)
  have hx : 64000 * (x / 64000) + x % 64000 = x := Nat.div_add_mod x 64000
  have hlow : cls.minimum = low := cls.minimum_eq
  have hclamped : g.clamped = true ↔ roundCount mode (x / 64000) (x % 64000) < cls.minimum := decide_eq_true_iff
  refine ⟨rfl, ⟨roundCount mode (x / 64000) (x % 64000), ?_, ?_, ?_, ?_, ?_⟩, payloadRate_eq cls _⟩
  · rw [← hlow]; rfl
  · rw [← hlow]; exact hclamped
  · rintro rfl
    have := roundCount_down (q := x / 64000) hr
    rwa [hx] at this
  · rintro rfl
    have := roundCount_up (q := x / 64000) hr
    rwa [hx] at this
  · rintro rfl
    have := roundCount_nearestEven (q := x / 64000) hr
    rwa [hx] at this

end Sys2Proof.Machine
end

section
/-! SUPPORT. SET_LEVELS (R68): the class map replaced, and the pass after a raised ceiling. -/

namespace Sys2Proof.Machine

/-- The checks of SET_LEVELS, in order. -/
def levelChecks (n : Node) (b : List Byte) : List (Bool × Reply) :=
  commonChecks n false b 18 ++ levelFieldChecks b ++ classInUseChecks n b ++ ceilingChecks n b
/-- The node with another class map. -/
def Node.withMap (n : Node) (map : ClassMap) : Node := { n with au := { n.au with map := map } }
/-- The new map raises the ceiling of some level. -/
def Node.raises (n : Node) (map : ClassMap) : Prop := ∃ lv < 4, n.au.map.ceilingOf lv < map.ceilingOf lv

section owner
variable {n : Node} {b : List Byte} (k : Link)

theorem ownSetLevels_raised (hc : firstRefusal (levelChecks n b) = none) (h : n.raises (classMapOf b)) :
    ownSetLevels k b n = { node := (n.withMap (classMapOf b)).pass, reply := okReply [] } := by
  refine (checked_passed ((firstRefusal_eq_none _).1 hc)).trans ?_
  have hr : ((List.range 4).any fun lv => decide (n.au.map.ceilingOf lv < (classMapOf b).ceilingOf lv)) = true := by
    simpa [List.any_eq_true, Node.raises] using h
  dsimp only
  rw [hr]
  rfl
theorem ownSetLevels_not_raised (hc : firstRefusal (levelChecks n b) = none) (h : ¬ n.raises (classMapOf b)) :
    ownSetLevels k b n = { node := n.withMap (classMapOf b), reply := okReply [] } := by
  refine (checked_passed ((firstRefusal_eq_none _).1 hc)).trans ?_
  have hr : ((List.range 4).any fun lv => decide (n.au.map.ceilingOf lv < (classMapOf b).ceilingOf lv)) = false := by
    simpa [List.any_eq_false, Node.raises] using h
  dsimp only
  rw [hr]
  rfl

end owner

/-- Settles O43: the checks fail or all pass, and then a pass follows just when some ceiling is raised. -/
theorem setLevelsReplacesTheClassMap : Obligations.SetLevelsReplacesTheClassMap := by
  intro s i r hasks hkind n b checks map m
  have hmine := isKind_of_eq hkind
  refine ⟨fun rep hrep => ?_, fun hnone => ⟨fun hkept => ?_, fun hraised => ?_⟩⟩
  · exact handle_refused hasks hmine (checked_failed hrep)
  · exact handle_ok hasks hmine (ownSetLevels_not_raised _ hnone fun ⟨lv, hlv, hlt⟩ => Nat.not_le.2 hlt (hkept lv hlv))
  · exact handle_ok hasks hmine (ownSetLevels_raised _ hnone hraised)

end Sys2Proof.Machine
end

section
/-! SUPPORT. What the engines do in a restoration pass (R163, R164, R182): frames are offered to transmit queues, transfers and
stations change and reports are sent, but no service's packet state is opened or closed and the weather service stays. -/

namespace Sys2Proof.Machine

/-- An event of the engines that keeps the services of the packet engine and the weather service. -/
structure Node.Offers (n m : Node) : Prop extends Node.Engines n m where
  ids : m.pe.svcs.map (·.id) = n.pe.svcs.map (·.id)
  service : m.pc.service = n.pc.service

namespace Node.Offers

theorem refl (n : Node) : n.Offers n := ⟨.refl n, rfl, rfl⟩
theorem trans {a b c : Node} (h : a.Offers b) (k : b.Offers c) : a.Offers c :=
  ⟨h.toEngines.trans k.toEngines, k.ids.trans h.ids, k.service.trans h.service⟩
theorem ite {n a b : Node} {c : Prop} [Decidable c] (ha : n.Offers a) (hb : n.Offers b) : n.Offers (if c then a else b) := by
  split
  · exact ha
  · exact hb
theorem foldl {α : Type} (f : Node → α → Node) (hf : ∀ (n : Node) (a : α), n.Offers (f n a)) (l : List α) (n : Node) :
    n.Offers (l.foldl f n) := by
  induction l generalizing n with
  | nil => exact refl n
  | cons a l ih => exact (hf n a).trans (ih _)

end Node.Offers

open Node.Offers

theorem Node.report_offers (n : Node) (b : ReportBody) : n.Offers (n.report b) := ⟨n.report_engines b, rfl, rfl⟩
theorem Node.svcEventOf_offers (n : Node) (id : Nat) (old : Option SvcState) (c : SvcCause) :
    n.Offers (n.svcEventOf id old c) := by
  unfold Node.svcEventOf
  split
  · exact n.report_offers _
  · exact refl n
/-- A service's packet state is replaced by one of its id. -/
theorem Node.setPe_offers (n : Node) (v : PeService) : n.Offers (n.setPe v) := by
  refine ⟨n.setPe_engines v, ?_, rfl⟩
  rw [Node.setPe_pe, List.map_map]
  refine List.map_congr_left fun w _ => ?_
  by_cases h : w.id = v.id
  · simp [h]
  · simp [h]
theorem Node.setXfer_offers (n : Node) (t : Fin 4) (r : Option Transfer) : n.Offers (n.setXfer t r) :=
  ⟨n.setXfer_engines t r, rfl, rfl⟩
theorem Node.modStation_offers (n : Node) (k : Fin 8) (f : Station → Station) : n.Offers (n.modStation k f) :=
  ⟨n.modStation_engines k f, rfl, rfl⟩
theorem Node.offerFrame_offers (n : Node) (id : Nat) (data : List Byte) : n.Offers (n.offerFrame id data).1 := by
  unfold Node.offerFrame
  split
  · split
    · exact n.setPe_offers _
    · split
      · exact n.setPe_offers _
      · exact n.setPe_offers _
  · exact refl n
theorem Node.offerState_offers (n : Node) (t : Fin 4) : n.Offers (n.offerState t) := by
  unfold Node.offerState
  split
  · exact refl n
  · exact ite ((n.offerFrame_offers _ _).trans (Node.setXfer_offers _ _ _)) (refl n)
theorem Node.transferTo_offers (n : Node) (t : Fin 4) (old : Option TransferState) (r : Transfer) (c : TransferCause) :
    n.Offers (n.transferTo t old r c) := (n.setXfer_offers _ _).trans (Node.report_offers _ _)
theorem Node.transferShed_offers (n : Node) (id : Nat) : n.Offers (n.transferShed id) := by
  unfold Node.transferShed
  split
  · exact refl n
  · split
    · exact ite (n.transferTo_offers _ _ _ _) (refl n)
    · exact refl n
theorem Node.transferPlaced_offers (n : Node) (id : Nat) : n.Offers (n.transferPlaced id) := by
  unfold Node.transferPlaced
  split
  · exact refl n
  · split
    · exact ite ((n.transferTo_offers _ _ _ _).trans (Node.offerState_offers _ _)) (refl n)
    · exact refl n
theorem Node.resumeOne_offers (n : Node) (t : Fin 4) : n.Offers (n.resumeOne t) := by
  unfold Node.resumeOne
  split
  · exact (n.transferTo_offers _ _ _ _).trans (Node.offerState_offers _ _)
  · exact refl n
theorem Node.resumeStore_offers (n : Node) : n.Offers n.resumeStore := foldl _ Node.resumeOne_offers _ _
theorem Node.resumeIf_offers (n : Node) (freed : Bool) : n.Offers (n.resumeIf freed) := ite n.resumeStore_offers (refl n)
theorem Node.forwardReading_offers (n : Node) (k : Fin 8) : n.Offers (n.forwardReading k) := by
  unfold Node.forwardReading
  split
  · exact refl n
  · split
    · exact n.modStation_offers _ _
    · exact (n.offerFrame_offers _ _).trans (Node.modStation_offers _ _ _)
theorem Node.weatherPlaced_offers (n : Node) (id : Nat) : n.Offers (n.weatherPlaced id) :=
  ite (foldl _ (fun n k => ite (n.forwardReading_offers k) (refl n)) _ _) (refl n)

end Sys2Proof.Machine
end

section
/-! SUPPORT. What a restoration pass does, said once for every relation between nodes (R95 to R99): it follows from frames offered
by the engines and the placements of calls, of the shed list, of grown services and of services brought home. -/

namespace Sys2Proof.Machine

/-- A relation between nodes that runs through the moves of a restoration pass. -/
structure Node.PassClosed (R : Node → Node → Prop) : Prop where
  refl : ∀ n : Node, R n n
  trans : ∀ {a b c : Node}, R a b → R b c → R a c
  offers : ∀ {n m : Node}, n.Offers m → R n m
  calls : ∀ (n : Node) (cc : Calls), R n { n with cc := cc }
  call : ∀ {n : Node} {p : Fin 8} {x : Side} {r : Room}, n.attempts (callService p x) x (callService p x).fullAttempts = some r →
    R n (Node.placeNew r (callService p x) x)
  restore : ∀ {n : Node} {v : Service} {x : Side} {g : Nat} {cells : List Nat} (st : SvcState), n.svc v.id = some v →
    (n.au.economy && decide (2 ≤ v.level)) = false → n.plainCells v x g = some cells →
    R n (Node.placeNew { node := n, cells := cells, state := st } v x)
  grow : ∀ {n : Node} {v : Service} {x : Side} {cells : List Nat}, n.svc v.id = some v → n.plainCells v x v.full = some cells →
    R n (n.takeCells { v with state := .active } cells)
  home : ∀ {n : Node} {v : Service} {cells : List Nat}, n.svc v.id = some v →
    n.plainCells v v.primary v.cells.length = some cells → R n (n.takeCells { v with current := some v.primary } cells)

/-- An attempt succeeds in one of two ways: by the cells usable as they stand, or by those left when victims are shed. -/
theorem Node.attempt_cases {n : Node} {v : Service} {x : Side} {t : Attempt} {r : Room} (h : n.attempt v x t = some r) :
    (∃ cells, n.plainCells v x t.grant = some cells ∧ r = { node := n, cells := cells, state := t.state }) ∨
    (t.preempt = true ∧ ∃ m cells, n.preemptCells v x t.grant = some (m, cells) ∧
      r = { node := m, cells := cells, state := t.state }) := by
  unfold Node.attempt at h
  split at h
  · rename_i hp
    split at h
    · obtain ⟨q, hq, rfl⟩ := Option.map_eq_some_iff.1 h
      exact .inr ⟨hp, q.1, q.2, hq, rfl⟩
    · cases h
  · obtain ⟨cells, hcells, rfl⟩ := Option.map_eq_some_iff.1 h
    exact .inl ⟨cells, hcells, rfl⟩
/-- Attempts without pre-emption leave the node as it is. -/
theorem Node.attempts_plain {n : Node} {v : Service} {x : Side} {l : List Attempt} {r : Room}
    (h : n.attempts v x (l.filter fun t => !t.preempt) = some r) :
    ∃ g cells, n.plainCells v x g = some cells ∧ r = { node := n, cells := cells, state := r.state } := by
  obtain ⟨t, ht, hr⟩ := List.exists_of_findSome?_eq_some h
  rcases Node.attempt_cases hr with ⟨cells, hcells, rfl⟩ | ⟨hp, -⟩
  · exact ⟨_, cells, hcells, rfl⟩
  · simp [hp] at ht

namespace Node.PassClosed

variable {R : Node → Node → Prop} (hR : Node.PassClosed R)
include hR

theorem report (n : Node) (b : ReportBody) : R n (n.report b) := hR.offers (n.report_offers b)
theorem svcEventOf {n m : Node} (h : R n m) (id : Nat) (old : Option SvcState) (c : SvcCause) : R n (m.svcEventOf id old c) :=
  hR.trans h (hR.offers (m.svcEventOf_offers id old c))
theorem foldl {α : Type} (f : Node → α → Node) (hf : ∀ (n : Node) (a : α), R n (f n a)) (l : List α) (n : Node) :
    R n (l.foldl f n) := by
  induction l generalizing n with
  | nil => exact hR.refl n
  | cons a l ih => exact hR.trans (hf n a) (ih _)
theorem foldPass (f : Pass → Nat → Pass) (hf : ∀ (q : Pass) (a : Nat), R q.node (f q a).node) (l : List Nat) (q : Pass) :
    R q.node (l.foldl f q).node := by
  induction l generalizing q with
  | nil => exact hR.refl _
  | cons a l ih => exact hR.trans (hf q a) (ih _)

/-! ## The four steps -/

theorem callPlacement {n m : Node} {p : Fin 8} (h : n.callPlacement p = some m) : R n m := by
  unfold Node.callPlacement at h
  obtain ⟨r, hr, rfl⟩ := Option.map_eq_some_iff.1 h
  exact hR.svcEventOf (hR.call hr) _ _ _
theorem openCall (n : Node) (p : Fin 8) : R n (n.openCall p) := hR.trans (hR.calls n _) (hR.report _ _)
theorem passCalls (l : List (Fin 8)) (q : Pass) : R q.node (Machine.passCalls l q).node := by
  induction l generalizing q with
  | nil => exact hR.refl _
  | cons p l ih =>
    unfold Machine.passCalls
    split
    · rename_i m hm
      exact hR.trans (hR.trans (hR.callPlacement hm) (hR.openCall m p)) (ih { q with node := m.openCall p, placed := q.placed + 1 })
    · exact hR.refl _
theorem passRestore (q : Pass) (id : Nat) : R q.node (q.restore id).node := by
  unfold Pass.restore
  split
  · exact hR.refl _
  · rename_i v hv
    have hself : q.node.svc v.id = some v := by rw [Node.svc_id hv]; exact hv
    split
    · exact hR.refl _
    · rename_i heco
      split
      · exact hR.refl _
      · split
        · exact hR.refl _
        · rename_i x _ _ r hr
          obtain ⟨g, cells, hcells, he⟩ := Node.attempts_plain hr
          have hplaced : R q.node (Node.placeNew r v x) := he ▸ hR.restore r.state hself (Bool.not_eq_true _ ▸ heco) hcells
          exact hR.trans (hR.trans (hR.svcEventOf hplaced _ _ _) (hR.offers (Node.transferPlaced_offers _ _)))
            (hR.offers (Node.weatherPlaced_offers _ _))
theorem passGrow (q : Pass) (id : Nat) : R q.node (q.grow id).node := by
  unfold Pass.grow
  split
  · exact hR.refl _
  · rename_i v hv
    split
    · exact hR.refl _
    · rename_i cells hcells
      exact hR.svcEventOf (hR.grow (by rw [Node.svc_id hv]; exact hv) hcells) _ _ _
theorem moveHome {n m : Node} {id : Nat} {v : Service} (hv : n.svc id = some v) (h : n.moveHome v = some m) : R n m := by
  obtain ⟨cells, hcells, rfl⟩ := Option.map_eq_some_iff.1 h
  exact hR.svcEventOf (hR.home (by rw [Node.svc_id hv]; exact hv) hcells) _ _ _
theorem passHome (q : Pass) (id : Nat) : R q.node (q.home id).node := by
  unfold Pass.home
  split
  · rename_i m hm
    obtain ⟨v, hv, hhome⟩ := Option.bind_eq_some_iff.1 hm
    exact hR.moveHome hv hhome
  · exact hR.refl _

/-! ## The pass -/

theorem steps (q : Pass) : R q.node q.steps.node :=
  hR.trans (hR.trans (hR.trans (hR.passCalls _ { q with moved := false }) (hR.foldPass _ hR.passRestore _ _))
    (hR.foldPass _ hR.passGrow _ _)) (hR.foldPass _ hR.passHome _ _)
theorem loop (fuel : Nat) (q : Pass) : R q.node (passLoop fuel q).node := by
  induction fuel generalizing q with
  | zero => exact hR.refl _
  | succ fuel ih =>
    unfold passLoop
    dsimp only
    split
    · exact hR.trans (hR.steps q) (ih _)
    · exact hR.steps q
theorem passCounted (n : Node) : R n n.passCounted.node := hR.loop _ { node := n }
theorem pass (n : Node) : R n n.pass := hR.passCounted n

end Node.PassClosed

end Sys2Proof.Machine
end

section
/-! SUPPORT. What every step does to the admission unit's tables, said once for every relation between nodes that looks at those
tables alone: the commands change them by a few operations of the admission unit (`Node.Governed`), call after call. -/

namespace Sys2Proof.Machine

/-- The node in which a service that was placed owns no half any more (R83 step 1). -/
def Node.halvesGone (n : Node) (v : Service) : Node :=
  if v.state = .shed then n else (n.freeHalves v).handHalves v.id v.cls {}
/-- The SERVICE_EVENT of a release (R83 step 4). -/
def Service.released (v : Service) : ReportBody :=
  .serviceEvent v.id v.cls v.level v.prot (some v.state) none .released none none 0 none v.adm none
/-- The node that a release leaves to its pass: the service's halves, binding and record gone, its end reported (R83). -/
def Node.vacated (n : Node) (v : Service) : Node := (((n.halvesGone v).unbind v).dropSvc v.id).report v.released
theorem Node.release_eq (n : Node) (v : Service) : n.release v = (n.vacated v).pass.resumeIf (n.releaseFrees v) := rfl
/-- The node in economy mode, every placed service of level 2 or 3 shed (R104). -/
def Node.economyShed (n : Node) : Node :=
  ((byVictim (n.placed.filter fun v => decide (2 ≤ v.level))).map (·.id)).foldl (fun m id => m.shedId id .economy)
    (n.setEconomy true)

/-- A relation between nodes that looks at the admission unit alone and runs through each of its operations. -/
structure Node.Governed (R : Node → Node → Prop) : Prop extends Node.PassClosed R where
  quiet : ∀ {n m : Node}, m.au = n.au → R n m
  powerOn : ∀ n : Node, R n n.powerOn
  mover : ∀ (n : Node) (x : Side) (id : Nat), R n (n.rerouteOne x id)
  vacated : ∀ (n : Node) (v : Service), R n (n.vacated v)
  define : ∀ {n m : Node} {d : Definition}, n.define (n.recordOf d) = some m → R n m
  levels : ∀ {n : Node} {b : List Byte}, firstRefusal (levelChecks n b) = none → R n (n.withMap (classMapOf b))
  economyEnter : ∀ n : Node, R n n.economyShed
  economyLeave : ∀ n : Node, R n (n.setEconomy false)
  start : ∀ n : Node, R n n.startValues
  add : ∀ (n : Node) (cells : List Nat), R n (n.addCells cells)
  remove : ∀ (n : Node) (cells : List Nat), R n (n.removeCells cells)

/-! ## What leaves the admission unit alone -/

theorem Node.stagingApply_au (n : Node) : n.stagingApply.au = n.au := by
  unfold Node.stagingApply
  split
  · split
    · exact (n.applyRecord_rest _).1
    · rfl
  · rfl
theorem Node.lineHoldEnd_au (n : Node) (l : Line) : (n.lineHoldEnd l).au = n.au := by
  unfold Node.lineHoldEnd
  split <;> rfl
theorem State.gapEnd_au (s : State) : s.gapEnd.node.au = s.node.au := by
  unfold State.gapEnd
  split
  · split <;> rfl
  · rfl
theorem State.offerRequest_au (s : State) (r : Request) (bs : List Byte) : (s.offerRequest r bs).node.au = s.node.au := by
  unfold State.offerRequest
  split
  · rfl
  · split <;> rfl
theorem State.frameByte_au (s : State) (bs : List Byte) : (s.frameByte bs).node.au = s.node.au := by
  unfold State.frameByte
  split
  · rfl
  · split
    · split
      · exact s.offerRequest_au _ _
      · rfl
    · rfl
theorem State.rxByte_au (s : State) (b : Byte) : (s.rxByte b).node.au = s.node.au := by
  refine Eq.trans ?_ s.gapEnd_au
  unfold State.rxByte
  dsimp only
  split
  · split <;> rfl
  · exact State.frameByte_au _ _
theorem State.rxByteIf_au (s : State) (take : Bool) (b : Byte) : (if take then s.rxByte b else s).node.au = s.node.au := by
  split
  · exact s.rxByte_au b
  · rfl
theorem State.rxError_au (s : State) : s.rxError.node.au = s.node.au := by
  refine Eq.trans ?_ s.gapEnd_au
  unfold State.rxError
  dsimp only
  split <;> rfl
theorem State.changeRate_au (s : State) (r : LinkRate) : (s.changeRate r).node.au = s.node.au := by
  unfold State.changeRate
  split
  · rfl
  · dsimp only
    split <;> rfl
theorem State.reportSent_au (s : State) : s.reportSent.node.au = s.node.au := by
  unfold State.reportSent
  split <;> rfl
theorem checked_au {n : Node} {checks : List (Bool × Reply)} {a : Answer} (h : a.node.au = n.au) :
    (checked n checks a).node.au = n.au := by
  rcases checked_cases n checks a with ⟨r, -, he⟩ | ⟨-, he⟩
  · rw [he]
  · rw [he, h]

namespace Node.Governed

variable {R : Node → Node → Prop} (hR : Node.Governed R)

theorem branch {n a b : Node} {c : Prop} [Decidable c] (ha : R n a) (hb : R n b) : R n (if c then a else b) := by
  split
  · exact ha
  · exact hb

include hR

theorem lines {n m : Node} (h : n.Lines m) : R n m := hR.quiet h.au
theorem engines {n m : Node} (h : n.Engines m) : R n m := hR.quiet h.au

/-! ## Reroute, revert, release (R83, R100 to R103) -/

theorem reroute (n : Node) (x : Side) : R n (n.reroute x) :=
  branch (hR.refl n) (hR.trans (hR.foldl _ (fun n id => hR.mover n x id) _ _) (hR.pass _))
theorem revertOne (n : Node) (id : Nat) : R n (n.revertOne id) := by
  unfold Node.revertOne
  split
  · exact hR.refl n
  · rename_i v hv
    cases h : n.moveHome v with
    | some m => exact hR.moveHome hv h
    | none => exact hR.report n _
theorem revert (n : Node) (x : Side) : R n (n.revert x) := hR.trans (hR.foldl _ hR.revertOne _ _) (hR.pass _)
theorem release (n : Node) (v : Service) : R n (n.release v) :=
  hR.trans (hR.trans (hR.vacated n v) (hR.pass _)) (hR.engines (Node.resumeIf_engines _ _))

/-! ## Calls -/

/-- A call's record changed and reported. -/
theorem phoneEvent (n : Node) (p : Fin 8) (f : Phone → Phone) (old : CallState) (o : CallOutcome) :
    R n ((n.modPhone p f).callEvent p old o) := hR.quiet rfl
theorem callerCall (n : Node) (p : Fin 8) : R n (n.callerCall p) := by
  unfold Node.callerCall
  split
  · rename_i m hm; exact hR.trans (hR.callPlacement hm) (hR.openCall m p)
  · exact hR.quiet rfl
theorem testCaller (n : Node) (p : Fin 8) : R n (n.testCaller p) := branch (hR.callerCall n p) (hR.refl n)
theorem enterIdle (n : Node) (p : Fin 8) (o : CallOutcome) : R n (n.enterIdle p o) :=
  hR.trans (hR.trans (hR.calls n _) (hR.report _ _)) (hR.testCaller _ p)
theorem guardEnd (n : Node) (p : Fin 8) : R n (n.guardEnd p) := by
  unfold Node.guardEnd
  refine hR.trans ?_ (hR.enterIdle _ _ _)
  split
  · exact hR.release n _
  · exact hR.refl n
theorem enterClearing (n : Node) (p : Fin 8) (o : CallOutcome) : R n (n.enterClearing p o) :=
  branch (hR.trans (hR.phoneEvent n _ _ _ _) (hR.guardEnd _ p)) (hR.phoneEvent n _ _ _ _)
theorem testFlash (n : Node) (p : Fin 8) : R n (n.testFlash p) := by
  refine branch ?_ (hR.refl n)
  split <;> exact hR.quiet rfl
theorem offHook (n : Node) (p : Fin 8) : R n (n.offHook p) := by
  have hset : R n (n.modPhone p fun ph => { ph with hook := .offHook, hookDue := false }) := hR.quiet rfl
  refine hR.trans hset ?_
  unfold Node.offHook
  dsimp only
  split
  · exact hR.testCaller _ p
  · exact hR.phoneEvent _ _ _ _ _
  · exact hR.phoneEvent _ _ _ _ _
  · exact hR.refl _
theorem onHook (n : Node) (p : Fin 8) : R n (n.onHook p) := by
  have hset : R n (n.modPhone p fun ph => { ph with hook := .onHook, hookDue := false, clearLock := false }) := hR.quiet rfl
  have hend (m : Node) (held : Bool) : R m (if held then m.enterHeld p else m.enterClearing p .callerCleared) :=
    branch (hR.phoneEvent m _ _ _ _) (hR.enterClearing m p _)
  refine hR.trans hset ?_
  unfold Node.onHook
  dsimp only
  split
  · exact hR.enterIdle _ p _
  · exact hend _ _
  · exact hend _ _
  · exact hR.refl _
theorem hookEvent (n : Node) (p : Fin 8) : R n (n.hookEvent p) := by
  unfold Node.hookEvent
  refine branch ?_ (hR.refl n)
  split
  · exact hR.offHook n p
  · exact hR.onHook n p
theorem acceptEvent (n : Node) (p : Fin 8) : R n (n.acceptEvent p) :=
  branch (hR.trans (hR.trans (hR.hookEvent n p) (hR.calls _ _)) (branch (hR.testFlash _ p) (hR.refl _))) (hR.refl n)
theorem timerEvent (n : Node) (p : Fin 8) : R n (n.timerEvent p) := by
  unfold Node.timerEvent
  split
  · exact hR.enterClearing n p _
  · exact hR.enterClearing n p _
  · exact hR.guardEnd n p
  · exact hR.refl n
theorem settlePhone (n : Node) (p : Fin 8) : R n (n.settlePhone p) :=
  hR.trans (hR.trans (hR.trans (hR.hookEvent n p) (hR.acceptEvent _ p)) (hR.calls _ _)) (hR.timerEvent _ p)
theorem reselectCall (n : Node) (p : Fin 8) : R n (n.reselectCall p) := by
  unfold Node.reselectCall
  exact branch (branch (hR.quiet rfl) (hR.quiet rfl)) (hR.refl n)
theorem clearCall (n : Node) (p : Fin 8) : R n (n.clearCall p) :=
  hR.trans (hR.calls n _) (branch (hR.enterIdle _ p _) (hR.enterClearing _ p _))

/-! ## Signals taken and due events -/

theorem auTakes (n : Node) (g : PathSignal) (f : Node → Node) (hf : ∀ m : Node, R m (f m)) : R n (n.auTakes g f) := by
  have hsig : R n { n with sig := { n.sig with au := n.sig.au.erase g } } := hR.quiet rfl
  exact branch (hR.trans hsig (hf _)) (hR.refl n)
theorem ccTakes (n : Node) (g : PathSignal) : R n (n.ccTakes g) := by
  have hsig : R n { n with sig := { n.sig with cc := n.sig.cc.erase g } } := hR.quiet rfl
  exact branch (hR.trans hsig (hR.foldl _ hR.reselectCall _ _)) (hR.refl n)
theorem peTakes (n : Node) (g : PathSignal) : R n (n.peTakes g) := branch (hR.quiet rfl) (hR.refl n)
theorem takeAuSignal (n : Node) (g : PathSignal) : R n (n.takeAuSignal g) := by
  refine hR.auTakes n g _ fun m => ?_
  cases g with
  | lost x => exact hR.reroute m x
  | restored x => exact hR.revert m x
theorem takeSignals (n : Node) : R n n.takeSignals :=
  hR.trans (hR.trans (hR.foldl _ hR.takeAuSignal _ _) (hR.foldl _ hR.ccTakes _ _)) (hR.foldl _ hR.peTakes _ _)
theorem settleNode (n : Node) : R n n.settle := by
  have hlines : n.Lines (((((((n.settleLine .u).settleLine .d).periodicDue .u).periodicDue .d).holdOffEnd .a).holdOffEnd
      .b).wtrEnd .a |>.wtrEnd .b).timingRevert :=
    ((((((((n.settleLine_lines _).trans (Node.settleLine_lines _ _)).trans (Node.periodicDue_lines _ _)).trans
      (Node.periodicDue_lines _ _)).trans (Node.holdOffEnd_lines _ _)).trans (Node.holdOffEnd_lines _ _)).trans
      (Node.wtrEnd_lines _ _)).trans (Node.wtrEnd_lines _ _)).trans (Node.timingRevert_lines _)
  have hengines (m : Node) : m.Engines (allStations.foldl Node.stationDue (allFour.foldl Node.stateTimerEnd m).intervalEnd.cycleStart) :=
    (((Node.Engines.foldl _ Node.stateTimerEnd_engines _ _).trans (Node.intervalEnd_engines _)).trans
      (Node.cycleStart_engines _)).trans (Node.Engines.foldl _ Node.stationDue_engines _ _)
  exact hR.trans (hR.trans (hR.lines hlines) (hR.takeSignals _)) (hR.engines (hengines _))
theorem settleTick (s : State) : R s.node s.settleTick.node := by
  have hphones : R s.node (allPhones.foldl Node.settlePhone s.node).replyTimeout :=
    hR.trans (hR.foldl _ hR.settlePhone _ _) (hR.engines (Node.replyTimeout_engines _))
  unfold State.settleTick
  generalize (allPhones.foldl Node.settlePhone s.node).replyTimeout = m at hphones ⊢
  exact hR.trans hphones (hR.quiet (State.gapEnd_au { s with node := m }))
theorem msTick (s : State) : R s.node s.msTick.node := by
  have htick (n : Node) : R n n.tick := hR.quiet rfl
  unfold State.msTick
  split
  · exact hR.trans (hR.settleTick s) (htick _)
  · exact hR.refl _
theorem settle (s : State) : R s.node s.settle.node := by
  rw [State.settle_node]
  exact hR.trans (hR.trans (hR.trans (hR.settleTick s) (hR.msTick _)) (hR.settleTick _)) (hR.settleNode _)
theorem frameStart (n : Node) (voice : Vector CellVal 8) : R n (n.frameStart voice) := by
  unfold Node.frameStart
  refine hR.trans ?_ (hR.foldl _ (fun n p => hR.calls n _) _ _)
  refine hR.trans ?_ (hR.engines (Node.readTrains_engines _))
  refine hR.trans ?_ (hR.lines (Node.beginFrame_lines _ _ _))
  refine hR.trans ?_ (hR.lines (Node.beginFrame_lines _ _ _))
  refine hR.trans ?_ (hR.engines (Node.buildTrains_engines _))
  have happlied : R n n.applyDue := hR.foldl _ (fun m _ => hR.quiet m.stagingApply_au) _ _
  exact hR.trans happlied (hR.quiet rfl)

/-! ## Requests -/

theorem of_checked {n : Node} {checks : List (Bool × Reply)} {a : Answer} (h : firstRefusal checks = none → R n a.node) :
    R n (checked n checks a).node := by
  rcases checked_cases n checks a with ⟨r, -, he⟩ | ⟨hnone, he⟩
  · rw [he]; exact hR.refl n
  · rw [he]; exact h hnone
theorem setLevels (k : Link) (b : List Byte) (n : Node) : R n (ownSetLevels k b n).node := by
  refine hR.of_checked fun hnone => hR.trans (hR.levels hnone) ?_
  exact branch (hR.pass _) (hR.refl _)
theorem defineService (k : Link) (b : List Byte) (n : Node) : R n (ownDefineService k b n).node := by
  refine hR.of_checked fun _ => ?_
  dsimp only
  split
  · exact hR.refl n
  · rename_i m hm; exact hR.define hm
theorem releaseService (k : Link) (b : List Byte) (n : Node) : R n (ownReleaseService k b n).node := by
  refine hR.of_checked fun _ => ?_
  dsimp only
  split
  · exact hR.release n _
  · exact hR.refl n
theorem enterEconomy (k : Link) (b : List Byte) (n : Node) : R n (ownEconomyEnter k b n).node := by
  refine hR.of_checked fun _ => ?_
  split
  · exact hR.refl n
  · exact branch (hR.economyEnter n) (hR.trans (hR.economyEnter n) (hR.pass _))
theorem leaveEconomy (k : Link) (b : List Byte) (n : Node) : R n (ownEconomyLeave k b n).node := by
  refine hR.of_checked fun _ => ?_
  split
  · dsimp only
    exact hR.trans (hR.economyLeave n) (hR.passCounted _)
  · exact hR.refl n
theorem setAllotmentAdd (k : Link) (b : List Byte) (n : Node) : R n (ownSetAllotmentAdd k b n).node := by
  refine hR.of_checked fun _ => ?_
  dsimp only
  split
  · exact hR.add n _
  · exact hR.trans (hR.add n _) (hR.pass _)
theorem setAllotmentRemove (k : Link) (b : List Byte) (n : Node) : R n (ownSetAllotmentRemove k b n).node := by
  refine hR.of_checked fun _ => ?_
  split
  · exact hR.refl n
  · exact hR.remove n _
theorem startRequest (k : Link) (b : List Byte) (n : Node) : R n (ownStart k b n).node := by
  have hlines : R n.startValues ((n.startValues.startLine .u).startLine .d) :=
    hR.lines ((n.startValues.startLine_lines .u).trans (Node.startLine_lines _ .d))
  have hstart : R n n.start := by
    unfold Node.start
    refine hR.trans ?_ (hR.pass _)
    refine hR.trans (hR.trans (hR.start n) hlines) ?_
    exact hR.quiet rfl
  unfold ownStart
  refine hR.of_checked fun _ => ?_
  dsimp only
  exact hstart
theorem callRing (k : Link) (b : List Byte) (n : Node) : R n (ownCallRing k b n).node := by
  refine hR.of_checked fun _ => ?_
  split
  · rename_i m hm; exact hR.trans (hR.callPlacement hm) (hR.phoneEvent m _ _ _ _)
  · exact hR.refl n
theorem callClear (k : Link) (b : List Byte) (n : Node) : R n (ownCallClear k b n).node :=
  hR.of_checked fun _ => hR.clearCall n _

end Node.Governed

/-! ## The requests of the other blocks -/

section owners
variable (value : Bool) (k : Link) (b : List Byte) (n : Node)

theorem ownSetLink_au : (ownSetLink k b n).node.au = n.au := by
  refine checked_au ?_
  split <;> rfl
theorem ownSetNode_au : (ownSetNode k b n).node.au = n.au := by
  refine checked_au ?_
  exact (n.applySettings_paths _).au
theorem ownLineSet_au : (ownLineSet k b n).node.au = n.au := by
  refine checked_au ?_
  exact ((n.modLine_lines _ _).trans (Node.enableAsSet_lines (n.modLine _ _) _)).au
theorem ownMarginScan_au : (ownMarginScan k b n).node.au = n.au := by
  refine checked_au ?_
  exact (n.startScan_lines _ _).au
theorem ownPathForceSet_au : (ownPathForceSet k b n).node.au = n.au := by
  refine checked_au ?_
  exact (n.forceOut_lines _).au
theorem ownPathForceClear_au : (ownPathForceClear k b n).node.au = n.au := by
  refine checked_au ?_
  exact (n.forceClear_lines _).au
theorem ownPhoneSetPort_au : (ownPhoneSetPort k b n).node.au = n.au := by
  refine checked_au ?_
  exact rfl
theorem ownPhoneSetCommon_au : (ownPhoneSetCommon k b n).node.au = n.au := by
  refine checked_au ?_
  exact rfl
theorem ownCallAnswer_au : (ownCallAnswer k b n).node.au = n.au := by
  refine checked_au ?_
  exact rfl
theorem ownCallHold_au : (ownCallHold value k b n).node.au = n.au := by
  refine checked_au ?_
  exact rfl
theorem ownRingTest_au : (ownRingTest value k b n).node.au = n.au := by
  refine checked_au ?_
  exact rfl
theorem ownPacketPortSet_au : (ownPacketPortSet k b n).node.au = n.au := by
  refine checked_au ?_
  exact ((n.modPort_engines _ _).trans (Node.readyOn_engines _ _)).au
theorem ownTransferOpen_au : (ownTransferOpen k b n).node.au = n.au := by
  refine checked_au ?_
  exact (n.transferOffered_engines _ _ _ _).au
theorem ownTransferAbort_au : (ownTransferAbort k b n).node.au = n.au := by
  refine checked_au ?_
  exact (n.hostAbort_engines _).au
theorem ownPollSet_au : (ownPollSet k b n).node.au = n.au := by
  have hset : n.Engines { n with pc := n.pc.configure b (n.op == OpState.running) } := ⟨rfl⟩
  refine checked_au ?_
  exact (hset.trans (.ite (Node.catchUp_engines _) (.refl _))).au
theorem ownStationSet_au : (ownStationSet k b n).node.au = n.au := by
  refine checked_au ?_
  exact (n.setStationEntry_engines _ _ _ _).au

end owners

end Sys2Proof.Machine
end

section
/-! SUPPORT. Every command, row by row: what each of them does to the admission unit's tables is one of the operations of
`Node.Governed`. -/

namespace Sys2Proof.Machine

namespace Node.Governed

variable {R : Node → Node → Prop} (hR : Node.Governed R) {s t : State}
include hR

/-! ## The kinds of commands -/

/-- An event of the management link, of the blocks, and a request. -/
theorem link {f : State → State} (hf : R s.node (f s).node) (h : unlessHeld s f = .next t) : R s.node t.node :=
  unlessHeld_keeps h (hR.refl _) hf
theorem event {f : Node → Node} (hf : ∀ n : Node, R n (f n)) (h : onNode s f = .next t) : R s.node t.node :=
  hR.link (f := fun s => { s with node := f s.node }) (hf _) h
theorem owner {mine : Request → Bool} {own : Link → List Byte → Node → Answer} (ho : ∀ k b n, R n (own k b n).node)
    (h : handle s mine own = .next t) : R s.node t.node := by
  refine hR.link ?_ h
  dsimp only
  split
  · split
    · exact ho _ _ _
    · exact hR.refl _
  · exact hR.refl _
/-- A request whose owner leaves the admission unit alone. -/
theorem quietOwner {mine : Request → Bool} {own : Link → List Byte → Node → Answer}
    (ho : ∀ k b n, (own k b n).node.au = n.au) (h : handle s mine own = .next t) : R s.node t.node :=
  hR.owner (fun k b n => hR.quiet (ho k b n)) h
theorem setPins (q : Pins) : R s.node (s.setPins q).node := hR.quiet rfl
theorem powerValues (low : Bool) : R s.node (s.powerValues.setReset low).node :=
  hR.trans (hR.powerOn s.node) (hR.quiet rfl)
theorem replySent : R s.node s.replySent.node := by
  unfold State.replySent
  split
  · unfold State.afterReply
    dsimp only
    split
    · exact hR.refl _
    · exact hR.quiet (State.changeRate_au _ _)
    · exact hR.powerOn _
  · exact hR.refl _
  · exact hR.refl _

omit hR in
/-- A request that only answers leaves the node as it is. -/
theorem answer_au (own : Link → List Byte → Node → Answer) (ho : ∀ k b n, (own k b n).node = n) (k : Link) (b : List Byte)
    (n : Node) : (own k b n).node.au = n.au := by rw [ho]

/-! ## The commands -/

theorem exec (c : Instr) (h : Machine.exec c s = .next t) : R s.node t.node := by
  cases c with
  | powerOn => cases h; exact hR.powerOn s.node
  | resetInputLow => cases h; exact hR.powerValues true
  | resetInputRise => cases h; exact hR.powerValues false
  | frameStart voice =>
    have hframe : R s.node (s.settle.node.frameStart voice) := hR.trans (hR.settle s) (hR.frameStart _ voice)
    unfold Machine.exec execFrameStart at h
    refine hR.link ?_ h
    dsimp only
    exact hframe
  | msTick loops => exact hR.trans (hR.setPins _) (hR.link (hR.msTick _) h)
  | stagingApply => exact hR.event (fun n => hR.quiet n.stagingApply_au) h
  | lineHoldEnd l => exact hR.event (fun n => hR.quiet (n.lineHoldEnd_au l)) h
  | lineFrameReceived l p f d => exact hR.event (fun n => hR.lines (n.lineFrame_lines l p f d)) h
  | signalLost l pin => exact hR.trans (hR.setPins _) (hR.event (fun n => hR.lines (n.signalGone_lines l)) h)
  | signalReturned l pin => exact hR.trans (hR.setPins _) (hR.event hR.refl h)
  | errorWindowEnd l => exact hR.event (fun n => hR.lines (n.windowEnd_lines l)) h
  | presetConfirmTimeout l => exact hR.event (fun n => hR.lines (n.confirmTimeout_lines l)) h
  | settleFramesEnd l => exact hR.event (fun n => hR.lines (n.settleEnd_lines l)) h
  | marginPositionDone l => exact hR.event (fun n => hR.lines (n.positionDone_lines l)) h
  | trainingRetry l => exact hR.event (fun n => hR.lines (n.retryEnd_lines l)) h
  | periodicScanDue l => exact hR.event (fun n => hR.lines (n.periodicDue_lines l)) h
  | holdOffExpired x => exact hR.event (fun n => hR.lines (n.holdOffEnd_lines x)) h
  | wtrExpired x => exact hR.event (fun n => hR.lines (n.wtrEnd_lines x)) h
  | timingRevert => exact hR.event (fun n => hR.lines n.timingRevert_lines) h
  | pathLostReroute x => exact hR.event (fun n => hR.auTakes n (.lost x) _ fun m => hR.reroute m x) h
  | pathRestoredRevert x => exact hR.event (fun n => hR.auTakes n (.restored x) _ fun m => hR.revert m x) h
  | callReselect g => exact hR.event (fun n => hR.ccTakes n g) h
  | dualReceiveReselect g => exact hR.event (fun n => hR.peTakes n g) h
  | loopAcceptedRise p => exact hR.event (fun n => branch (hR.refl n) (hR.acceptEvent n p)) h
  | loopAcceptedFall p => exact hR.event (fun n => branch (hR.acceptEvent n p) (hR.refl n)) h
  | offHookConfirmed p => exact hR.event (fun n => branch (hR.offHook n p) (hR.refl n)) h
  | onHookConfirmed p => exact hR.event (fun n => branch (hR.onHook n p) (hR.refl n)) h
  | cadencePeriodStart p =>
    unfold Machine.exec execCadencePeriodStart at h
    refine hR.event (fun n => ?_) h
    split
    · exact branch (hR.refl n) (hR.quiet rfl)
    · exact hR.refl n
  | cadenceOffPhase p =>
    unfold Machine.exec execCadenceOffPhase at h
    refine hR.event (fun n => ?_) h
    split
    · exact branch (hR.quiet rfl) (hR.refl n)
    · exact hR.refl n
  | heldLimitExpired p => exact hR.event (fun n => branch (hR.timerEvent n p) (hR.refl n)) h
  | ringTimeoutExpired p => exact hR.event (fun n => branch (hR.timerEvent n p) (hR.refl n)) h
  | clearGuardExpired p => exact hR.event (fun n => branch (hR.timerEvent n p) (hR.refl n)) h
  | tributaryFrameReceived k f => exact hR.event (fun n => hR.engines (n.tributaryIn_engines k f)) h
  | tributaryFrameSent k => exact hR.event (fun n => hR.engines (n.outputEnd_engines k)) h
  | outputFrameBegin k => exact hR.event (fun n => hR.engines (n.outputBegin_engines k)) h
  | readyInputChange k level => exact hR.trans (hR.setPins _) (hR.event (fun n => hR.engines (n.readyOn_engines k)) h)
  | stateFrameTimer x => exact hR.event (fun n => hR.engines (n.stateTimerEnd_engines x)) h
  | countingIntervalEnd => exact hR.event (fun n => hR.engines n.intervalEnd_engines) h
  | pollCycleStart => exact hR.event (fun n => hR.engines n.cycleStart_engines) h
  | stationDue k => exact hR.event (fun n => hR.engines (n.stationDue_engines k)) h
  | pollTelegramSent => exact hR.event (fun n => hR.engines n.windowOpens_engines) h
  | pollReplyStart => exact hR.event (fun n => hR.engines n.replyStart_engines) h
  | pollReplyTimeout => exact hR.event (fun n => hR.engines n.replyTimeout_engines) h
  | pollReplyEnd bs => exact hR.event (fun n => hR.engines (n.replyEnd_engines _)) h
  | pollReplyGap bs => exact hR.event (fun n => hR.engines (n.replyEnd_engines _)) h
  | lateReplyRunEnd =>
    unfold Machine.exec execLateReplyRunEnd at h
    refine hR.event (fun n => ?_) h
    exact branch (hR.quiet rfl) (hR.refl n)
  | requestFrameReceived b => exact hR.link (hR.quiet (s.rxByteIf_au _ b)) h
  | frameTooLong b => exact hR.link (hR.quiet (s.rxByteIf_au _ b)) h
  | frameGap => exact hR.link (hR.quiet s.gapEnd_au) h
  | frameByteError => exact hR.link (hR.quiet s.rxError_au) h
  | replySent => exact hR.link hR.replySent h
  | reportSent => exact hR.link (hR.quiet s.reportSent_au) h
  | linkByteReceived b low =>
    unfold Machine.exec execLinkByteReceived at h
    refine hR.link ?_ h
    split
    · exact hR.quiet s.rxError_au
    · exact hR.quiet (s.rxByte_au b)
  | unknownKindRequest => exact hR.quietOwner (answer_au ownUnknown fun _ _ _ => rfl) h
  | identify => exact hR.quietOwner (answer_au ownIdentify fun _ _ _ => Node.Kept.checked_node) h
  | setLink => exact hR.quietOwner ownSetLink_au h
  | start => exact hR.owner hR.startRequest h
  | reset => exact hR.quietOwner (answer_au ownReset fun _ _ _ => Node.Kept.checked_node) h
  | nodeStatus => exact hR.quietOwner (answer_au ownNodeStatus fun _ _ _ => Node.Kept.checked_node) h
  | setNode => exact hR.quietOwner ownSetNode_au h
  | lineSet => exact hR.quietOwner ownLineSet_au h
  | marginScan => exact hR.quietOwner ownMarginScan_au h
  | lineStatus => exact hR.quietOwner (answer_au ownLineStatus fun _ _ _ => Node.Kept.checked_node) h
  | pathForceSet => exact hR.quietOwner ownPathForceSet_au h
  | pathForceClear => exact hR.quietOwner ownPathForceClear_au h
  | pathStatus => exact hR.quietOwner (answer_au ownPathStatus fun _ _ _ => Node.Kept.checked_node) h
  | setAllotmentAdd => exact hR.owner hR.setAllotmentAdd h
  | setAllotmentRemove => exact hR.owner hR.setAllotmentRemove h
  | mapStatus => exact hR.quietOwner (answer_au ownMapStatus fun _ _ _ => Node.Kept.checked_node) h
  | setLevels => exact hR.owner hR.setLevels h
  | defineService => exact hR.owner hR.defineService h
  | releaseService => exact hR.owner hR.releaseService h
  | serviceStatusOne => exact hR.quietOwner (answer_au ownServiceStatusOne fun _ _ _ => Node.Kept.checked_node) h
  | serviceStatusSummary => exact hR.quietOwner (answer_au ownServiceStatusSummary fun _ _ _ => Node.Kept.checked_node) h
  | shedList => exact hR.quietOwner (answer_au ownShedList fun _ _ _ => Node.Kept.checked_node) h
  | economyEnter => exact hR.owner hR.enterEconomy h
  | economyLeave => exact hR.owner hR.leaveEconomy h
  | phoneSetPort => exact hR.quietOwner ownPhoneSetPort_au h
  | phoneSetCommon => exact hR.quietOwner ownPhoneSetCommon_au h
  | callControlAnswer => exact hR.quietOwner ownCallAnswer_au h
  | callControlHold => exact hR.quietOwner (ownCallHold_au true) h
  | callControlUnhold => exact hR.quietOwner (ownCallHold_au false) h
  | callControlClear => exact hR.owner hR.callClear h
  | callControlRing => exact hR.owner hR.callRing h
  | callStatus => exact hR.quietOwner (answer_au ownCallStatus fun _ _ _ => Node.Kept.checked_node) h
  | ringTestOn => exact hR.quietOwner (ownRingTest_au true) h
  | ringTestOff => exact hR.quietOwner (ownRingTest_au false) h
  | packetPortSet => exact hR.quietOwner ownPacketPortSet_au h
  | portStatusPort => exact hR.quietOwner (answer_au ownPortStatusPort fun _ _ _ => Node.Kept.checked_node) h
  | portStatusService => exact hR.quietOwner (answer_au ownPortStatusService fun _ _ _ => Node.Kept.checked_node) h
  | transferOpen => exact hR.quietOwner ownTransferOpen_au h
  | transferAbort => exact hR.quietOwner ownTransferAbort_au h
  | transferStatusOne => exact hR.quietOwner (answer_au ownTransferStatusOne fun _ _ _ => Node.Kept.checked_node) h
  | transferStatusAll => exact hR.quietOwner (answer_au ownTransferStatusAll fun _ _ _ => Node.Kept.checked_node) h
  | pollSet => exact hR.quietOwner ownPollSet_au h
  | stationSet => exact hR.quietOwner ownStationSet_au h
  | stationRead => exact hR.quietOwner (answer_au ownStationRead fun _ _ _ => Node.Kept.checked_node) h

/-- What runs through the operations of the admission unit runs through every step. -/
theorem step (h : Machine.step s = .next t) : R s.node t.node := by
  unfold Machine.step at h
  split at h
  · cases h; exact hR.refl _
  · rename_i c rest _
    exact hR.exec (s := s.withPending rest) c h

end Node.Governed

end Sys2Proof.Machine
end

section
/-! SUPPORT. The ceilings kept by every step (R69): what frees halves lowers the use of each level, and what takes cells has been
given room below the ceiling of its level. -/

namespace Sys2Proof.Machine

/-! ## What frees halves -/

/-- The class map stays, and no level uses more than before. -/
structure Node.Eases (n m : Node) : Prop where
  map : m.au.map = n.au.map
  use : ∀ lv, m.levelUse lv ≤ n.levelUse lv

namespace Node.Eases

theorem refl (n : Node) : n.Eases n := ⟨rfl, fun _ => Nat.le_refl _⟩
theorem trans {a b c : Node} (h : a.Eases b) (k : b.Eases c) : a.Eases c :=
  ⟨k.map.trans h.map, fun lv => (k.use lv).trans (h.use lv)⟩
theorem foldl {α : Type} (f : Node → α → Node) (hf : ∀ (n : Node) (a : α), n.Eases (f n a)) (l : List α) (n : Node) :
    n.Eases (l.foldl f n) := by
  induction l generalizing n with
  | nil => exact refl n
  | cons a l ih => exact (hf n a).trans (ih _)
/-- What leaves the services and the class map alone. -/
theorem of_same {n m : Node} (hm : m.au.map = n.au.map) (hs : m.au.services = n.au.services) : n.Eases m :=
  ⟨hm, fun lv => (Node.levelUse_congr hs lv).le⟩
theorem of_au {n m : Node} (h : m.au = n.au) : n.Eases m := of_same (by rw [h]) (by rw [h])

end Node.Eases

theorem Node.putSvc_eases (n : Node) {v : Service} (h : v.cells = []) : n.Eases (n.putSvc v) := by
  refine ⟨rfl, fun lv => ?_⟩
  rw [Node.levelUse_putSvc, Service.useAt_nil h, Nat.zero_add]
  exact n.levelUse_dropSvc_le _ _
theorem Node.dropSvc_eases (n : Node) (id : Nat) : n.Eases (n.dropSvc id) := ⟨rfl, n.levelUse_dropSvc_le id⟩
theorem Node.freeHalves_eases (n : Node) (v : Service) : n.Eases (n.freeHalves v) := by
  refine Node.Eases.trans ?_ (Node.putSvc_eases _ rfl)
  exact .of_same rfl rfl
theorem Node.shed_eases (n : Node) (v : Service) (why : ShedReason) : n.Eases (n.shed v why) := by
  have hfree : n.Eases (n.freeHalves v).countShed := (n.freeHalves_eases v).trans (.of_same rfl rfl)
  have hput : n.Eases ((n.freeHalves v).countShed.putSvc { v with
      cells := [], state := .shed, reason := some why, current := none
      shedNo := some (n.freeHalves v).countShed.au.shedCounter }) := hfree.trans (Node.putSvc_eases _ rfl)
  exact (hput.trans (.of_au rfl)).trans (.of_au (Node.transferShed_engines _ _).au)
theorem Node.shedId_eases (n : Node) (id : Nat) (why : ShedReason) : n.Eases (n.shedId id why) := by
  unfold Node.shedId
  split
  · exact n.shed_eases _ _
  · exact .refl n
theorem Node.preemptCells_eases {n m : Node} {v : Service} {x : Side} {g : Nat} {cells : List Nat}
    (h : n.preemptCells v x g = some (m, cells)) : n.Eases m := by
  unfold Node.preemptCells at h
  dsimp only at h
  split at h
  · cases h; exact .foldl _ (fun m id => m.shedId_eases id _) _ _
  · cases h
theorem Node.defineShed_eases (n : Node) {v : Service} (h : v.cells = []) (why : ShedReason) : n.Eases (n.defineShed v why) := by
  have hput : n.Eases (n.countShed.putSvc { v with
      state := .shed, reason := some why, shedNo := some n.countShed.au.shedCounter }) := by
    refine Node.Eases.trans ?_ (Node.putSvc_eases _ h)
    exact .of_same rfl rfl
  exact hput.trans (.of_au rfl)
theorem Node.halvesGone_eases (n : Node) (v : Service) : n.Eases (n.halvesGone v) := by
  unfold Node.halvesGone
  split
  · exact .refl n
  · exact (n.freeHalves_eases v).trans (.of_au rfl)
theorem Node.vacated_eases (n : Node) (v : Service) : n.Eases (n.vacated v) :=
  (((n.halvesGone_eases v).trans (.of_au (Node.unbind_engines _ v).au)).trans (Node.dropSvc_eases _ _)).trans (.of_au rfl)
theorem Node.vacated_traffic (n : Node) (v : Service) : n.Traffic (n.vacated v) := by
  refine Node.Traffic.trans ?_ (Node.report_traffic _ _)
  refine Node.Traffic.trans ?_ (Node.dropSvc_traffic _ _)
  refine Node.Traffic.trans ?_ (Node.unbind_traffic _ _)
  exact .ite (.refl n) ((n.freeHalves_traffic v).trans (Node.handHalves_traffic _ _ _ _))
theorem Node.economyShed_eases (n : Node) : n.Eases n.economyShed :=
  Node.Eases.trans (b := n.setEconomy true) (.of_same rfl rfl) (.foldl _ (fun m id => m.shedId_eases id _) _ _)
theorem Node.economyShed_traffic (n : Node) : n.Traffic n.economyShed :=
  Node.Traffic.trans (b := n.setEconomy true) (n.traffic_of_blocks _ _ _ _ _ _ rfl rfl rfl id)
    (.foldl _ (fun m id => m.shedId_traffic id _) _ _)

/-! ## What the ceilings rest on -/

/-- No level is above its ceiling, in tables that list each cell and each service once. -/
structure WithinCeilings (n : Node) : Prop where
  cells : n.au.allot.Pairwise (·.cell < ·.cell)
  services : n.au.services.Pairwise (·.id < ·.id)
  use : CeilingsHold n

theorem allot_ascending_of_cells {x y : List HalfEntry} (h : y.map (·.cell) = x.map (·.cell)) (w : x.Pairwise (·.cell < ·.cell)) :
    y.Pairwise (·.cell < ·.cell) := by
  have := List.pairwise_map.2 w
  rw [← h] at this
  exact List.pairwise_map.1 this

namespace WithinCeilings

variable {n m : Node}

theorem congr (h : m.au = n.au) (w : WithinCeilings n) : WithinCeilings m := by
  refine ⟨h ▸ w.cells, h ▸ w.services, fun lv hlv => ?_⟩
  rw [Node.levelUse_congr (n := n) (m := m) (by rw [h]), h]
  exact w.use lv hlv
theorem eases (t : n.Traffic m) (e : n.Eases m) (w : WithinCeilings n) : WithinCeilings m := by
  refine ⟨allot_ascending_of_cells t.allotCells w.cells, t.services w.services, fun lv hlv => ?_⟩
  rw [e.map]
  exact (e.use lv).trans (w.use lv hlv)

end WithinCeilings

/-! ## Cells taken with room for them (R69, R73, R74) -/

/-- The cells for a service leave its level within its ceiling, its own halves counted once. -/
def Node.RoomFor (n : Node) (v : Service) (cells : List Nat) : Prop :=
  n.levelUse v.level - v.halves + v.prot.halves cells.length ≤ n.au.map.ceilingOf v.level
/-- The halves that a record names as its own are those that the table gives it. -/
def Node.OwnHalves (n : Node) (v : Service) : Prop := v.cells = [] ∨ n.svc v.id = some v

/-- The other services of a level use no more than what is left when a service's own halves are taken off. -/
theorem Node.OwnHalves.others_le {n : Node} {v : Service} (h : n.OwnHalves v) (hs : n.au.services.Pairwise (·.id < ·.id)) :
    (n.dropSvc v.id).levelUse v.level ≤ n.levelUse v.level - v.halves := by
  rcases h with hnil | hv
  · rw [Service.halves_nil hnil]
    exact n.levelUse_dropSvc_le _ _
  · have := Node.levelUse_dropSvc hs v.id v.level
    rw [Node.useOf_of_svc hv, Service.useAt, if_pos rfl] at this
    omega

theorem Service.useAt_cells (w : Service) (cells : List Nat) (lv : Nat) :
    { w with cells := cells }.useAt lv = if w.level = lv then w.prot.halves cells.length else 0 := rfl
/-- A service with its new state and side takes cells for which there is room. -/
theorem WithinCeilings.takeCells {n : Node} {v w : Service} {cells : List Nat} (h : WithinCeilings n) (hown : n.OwnHalves v)
    (hroom : n.RoomFor v cells) (hid : w.id = v.id) (hlevel : w.level = v.level) (hprot : w.prot = v.prot) :
    WithinCeilings (n.takeCells w cells) := by
  have t := n.takeCells_traffic w cells
  refine ⟨allot_ascending_of_cells t.allotCells h.cells, t.services h.services, fun lv hlv => ?_⟩
  have huse : (n.takeCells w cells).levelUse lv = { w with cells := cells }.useAt lv + (n.dropSvc v.id).levelUse lv :=
    hid ▸ (Node.levelUse_congr (n.takeCells_services w cells) lv).trans (n.levelUse_putSvc _ lv)
  rw [huse, show (n.takeCells w cells).au.map = n.au.map from rfl, Service.useAt_cells]
  by_cases hsame : w.level = lv
  · have hothers := hown.others_le h.services
    rw [if_pos hsame, hprot, ← hsame, hlevel]
    unfold Node.RoomFor at hroom
    omega
  · rw [if_neg hsame, Nat.zero_add]
    exact (n.levelUse_dropSvc_le _ _).trans (h.use lv hlv)

theorem Node.plainCells_room {n : Node} {v : Service} {x : Side} {g : Nat} {cells : List Nat} (w : WithinCeilings n)
    (h : n.plainCells v x g = some cells) : n.RoomFor v cells := by
  obtain ⟨⟨-, hceil⟩, rfl⟩ := Node.plainCells_eq_some.1 h
  refine Nat.le_trans (Nat.add_le_add_left (v.prot.halves_mono ?_) _) hceil
  rw [v.order.length_take g (Node.cellsFor_ascending w.cells _ _)]
  exact Nat.min_le_left _ _
/-- What the victims leave is within the ceilings, and has room for the cells taken: the level of the service counted with all its
halves. -/
theorem Node.preemptCells_room {n m : Node} {v : Service} {x : Side} {g : Nat} {cells : List Nat} (w : WithinCeilings n)
    (h : n.preemptCells v x g = some (m, cells)) : WithinCeilings m ∧ m.RoomFor v cells := by
  have e := Node.preemptCells_eases h
  have wm : WithinCeilings m := w.eases (Node.preemptCells_traffic h) e
  refine ⟨wm, ?_⟩
  unfold Node.preemptCells at h
  dsimp only at h
  split at h
  · rename_i hfeasible
    obtain ⟨hm, hcells⟩ := Prod.mk.inj (Option.some.inj h)
    rw [hm] at hcells
    have hlen : cells.length ≤ g := by
      rw [← hcells, v.order.length_take g (Node.cellsFor_ascending wm.cells _ _)]
      exact Nat.min_le_left _ _
    have huse := e.use v.level
    have hgrant := v.prot.halves_mono hlen
    have hceil := hfeasible.2
    unfold Node.RoomFor
    rw [e.map]
    omega
  · cases h
theorem Node.attempts_room {n : Node} {v : Service} {x : Side} {l : List Attempt} {r : Room} (w : WithinCeilings n)
    (h : n.attempts v x l = some r) : WithinCeilings r.node ∧ r.node.RoomFor v r.cells := by
  obtain ⟨t, -, ht⟩ := List.exists_of_findSome?_eq_some h
  rcases Node.attempt_cases ht with ⟨cells, hcells, rfl⟩ | ⟨-, m, cells, hcells, rfl⟩
  · exact ⟨w, Node.plainCells_room w hcells⟩
  · exact Node.preemptCells_room w hcells
/-- A placement from nothing takes the next admission order number and its cells. -/
theorem WithinCeilings.placeNew {r : Room} {v : Service} {x : Side} (w : WithinCeilings r.node) (hown : r.node.OwnHalves v)
    (hroom : r.node.RoomFor v r.cells) : WithinCeilings (Node.placeNew r v x) := by
  have hcount : WithinCeilings r.node.countAdmission := ⟨w.cells, w.services, w.use⟩
  exact hcount.takeCells (v := v) hown hroom rfl rfl rfl

/-! ## The operations of the admission unit -/

theorem WithinCeilings.mover {n : Node} (w : WithinCeilings n) (x : Side) (id : Nat) : WithinCeilings (n.rerouteOne x id) := by
  unfold Node.rerouteOne
  split
  · exact w
  · rename_i v _
    have hfreed : WithinCeilings (n.freeHalves v) := w.eases (n.freeHalves_traffic v) (n.freeHalves_eases v)
    have hshed (u : Service) : WithinCeilings ((n.freeHalves v).shed u .pathLost) :=
      hfreed.eases (Node.shed_traffic _ _ _) (Node.shed_eases _ _ _)
    dsimp only
    split
    · split
      · rename_i r hr
        obtain ⟨hleft, hroom⟩ := Node.attempts_room hfreed hr
        have htaken : WithinCeilings (r.node.takeCells { v with current := some x.other, state := r.state, cells := [] } r.cells) :=
          hleft.takeCells (v := { v with cells := [] }) (.inl rfl) hroom rfl rfl rfl
        exact htaken.congr (Node.svcEventOf_offers _ _ _ _).au
      · exact hshed _
    · exact hshed _
theorem WithinCeilings.define {n m : Node} {v : Service} (w : WithinCeilings n) (hv : v.cells = [])
    (h : n.define v = some m) : WithinCeilings m := by
  have hshed (why : ShedReason) : WithinCeilings (n.defineShed v why) := w.eases (n.defineShed_traffic v why) (n.defineShed_eases hv why)
  unfold Node.define at h
  split at h
  · cases h; exact hshed _
  · split at h
    · cases h; exact hshed _
    · split at h
      · rename_i r hr
        cases h
        obtain ⟨hleft, hroom⟩ := Node.attempts_room w hr
        exact (hleft.placeNew (.inl hv) hroom).congr ((Node.openPe_engines _ _).trans (Node.svcEventOf_offers _ _ _ _).toEngines).au
      · split at h
        · cases h; exact hshed _
        · cases h
/-- No ceiling of an accepted class map is below the use of its level (R68). -/
theorem WithinCeilings.levels {n : Node} {b : List Byte} (w : WithinCeilings n) (h : firstRefusal (levelChecks n b) = none) :
    WithinCeilings (n.withMap (classMapOf b)) := by
  refine ⟨w.cells, w.services, fun lv hlv => ?_⟩
  have hcheck : decide (f2 b (4 + 2 * lv) < n.levelUse lv) = false :=
    (firstRefusal_eq_none _).1 h (_, refusal .ceilingBelowUse (be1 lv ++ be2 (n.levelUse lv)))
      (List.mem_append_right _ (List.mem_map.2 ⟨lv, List.mem_range.2 hlv, rfl⟩))
  have hceil : (classMapOf b).ceilingOf lv = f2 b (4 + 2 * lv) := by
    match lv, hlv with
    | 0, _ => rfl
    | 1, _ => rfl
    | 2, _ => rfl
    | 3, _ => rfl
  rw [show (n.withMap (classMapOf b)).au.map = classMapOf b from rfl, hceil]
  exact Nat.not_lt.1 (of_decide_eq_false hcheck)
theorem Service.renumber_useAt (v : Service) (lv : Nat) : v.renumber.useAt lv = v.useAt lv := rfl
theorem WithinCeilings.start {n : Node} (w : WithinCeilings n) : WithinCeilings n.startValues := by
  refine ⟨w.cells, List.pairwise_map.2 w.services, fun lv hlv => ?_⟩
  have huse : n.startValues.levelUse lv = n.levelUse lv := by
    rw [Node.levelUse_eq_sum, Node.levelUse_eq_sum]
    simp only [Node.startValues, List.map_map, Function.comp_def, Service.renumber_useAt]
  rw [huse]
  exact w.use lv hlv

theorem withinCeilings_governed : Node.Governed (fun n m => WithinCeilings n → WithinCeilings m) where
  refl _ w := w
  trans h k w := k (h w)
  offers h w := w.congr h.au
  calls _ _ w := ⟨w.cells, w.services, w.use⟩
  call h w := by
    obtain ⟨hleft, hroom⟩ := Node.attempts_room w h
    exact hleft.placeNew (.inl rfl) hroom
  restore _ hv _ h w := w.placeNew (.inr hv) (Node.plainCells_room w h)
  grow hv h w := w.takeCells (.inr hv) (Node.plainCells_room w h) rfl rfl rfl
  home hv h w := w.takeCells (.inr hv) (Node.plainCells_room w h) rfl rfl rfl
  quiet h w := w.congr h
  powerOn _ _ := ⟨.nil, .nil, fun _ _ => Nat.zero_le _⟩
  mover _ x id w := w.mover x id
  vacated n v w := w.eases (n.vacated_traffic v) (n.vacated_eases v)
  define h w := w.define rfl h
  levels h w := w.levels h
  economyEnter n w := w.eases n.economyShed_traffic n.economyShed_eases
  economyLeave _ w := ⟨w.cells, w.services, w.use⟩
  start _ w := w.start
  add _ cells w := ⟨addCells_ascending w.cells cells, w.services, w.use⟩
  remove _ cells w := ⟨w.cells.sublist (removeCells_sublist _ cells), w.services, w.use⟩

/-- Settles O9: every operation of the admission unit that takes cells has room for them below its level's ceiling, and every
other lowers the use of each level. -/
theorem stepKeepsTheCeilings : Obligations.StepKeepsTheCeilings := by
  intro s t tables ceilings h
  exact (withinCeilings_governed.step h ⟨tables.allotment, tables.services, ceilings⟩).use

end Sys2Proof.Machine
end

section
/-! SUPPORT. DEFINE_SERVICE (R66, R77 to R81): the record that an accepted definition leaves, placed by its first attempt that
succeeds, or shed; and the refusal when no attempt does. -/

namespace Sys2Proof.Machine

/-! ## The packet engine's state of a service (R138) -/

@[simp] theorem Node.peOf_openPe (n : Node) (id : Nat) : (n.openPe id).peOf id = some { id := id } :=
  find?_insertBy_of_only _ (by simp) (by simp)
theorem Node.svcEventOf_pe (n : Node) (id : Nat) (old : Option SvcState) (c : SvcCause) : (n.svcEventOf id old c).pe = n.pe := by
  unfold Node.svcEventOf
  split <;> rfl

/-! ## Attempts in order (R80) -/

theorem Protection.current_eq (p : Protection) (x : Side) : p.current x = if p = .dual then none else some x := by
  cases p <;> rfl

section attempts
variable {n : Node} {v : Service} {x : Side} {g : Nat} {st : SvcState} {rest : List Attempt}

/-- An attempt without pre-emption and one with it, for the same grant and state. -/
def attemptsAt (g : Nat) (st : SvcState) : List Attempt := [⟨g, st, false⟩, ⟨g, st, true⟩]

theorem Node.attempts_of_plain {cells : List Nat} (h : n.plainCells v x g = some cells) :
    n.attempts v x (attemptsAt g st ++ rest) = some { node := n, cells := cells, state := st } := by
  simp [Node.attempts, attemptsAt, Node.attempt, h]
theorem Node.attempts_of_preempt {left : Node} {cells : List Nat} (h : n.plainCells v x g = none)
    (hmay : n.au.map.mayPreempt v.level = true) (hp : n.preemptCells v x g = some (left, cells)) :
    n.attempts v x (attemptsAt g st ++ rest) = some { node := left, cells := cells, state := st } := by
  simp [Node.attempts, attemptsAt, Node.attempt, h, hmay, hp]
/-- Two attempts that fail leave it to the rest. -/
theorem Node.attempts_of_fails (h : n.plainCells v x g = none)
    (hp : n.au.map.mayPreempt v.level = true → n.preemptCells v x g = none) :
    n.attempts v x (attemptsAt g st ++ rest) = n.attempts v x rest := by
  by_cases hmay : n.au.map.mayPreempt v.level = true
  · simp [Node.attempts, attemptsAt, Node.attempt, h, hp hmay]
  · simp [Node.attempts, attemptsAt, Node.attempt, h, hmay]

end attempts

/-! ## What pre-emption leaves -/

theorem Node.shedId_admCounter (n : Node) (id : Nat) (why : ShedReason) :
    (n.shedId id why).au.admCounter = n.au.admCounter := by
  unfold Node.shedId
  split
  · rw [Node.shed, (Node.transferShed_engines _ _).au]; rfl
  · rfl
theorem Node.preemptCells_admCounter {n m : Node} {v : Service} {x : Side} {g : Nat} {cells : List Nat}
    (h : n.preemptCells v x g = some (m, cells)) : m.au.admCounter = n.au.admCounter := by
  have hfold (l : List Nat) (k : Node) : (l.foldl (fun m id => m.shedId id .preEmpted) k).au.admCounter = k.au.admCounter := by
    induction l generalizing k with
    | nil => rfl
    | cons id l ih => exact (ih _).trans (k.shedId_admCounter id _)
  unfold Node.preemptCells at h
  dsimp only at h
  split at h
  · cases h; exact hfold _ n
  · cases h

/-! ## The node that a definition makes (R81) -/

/-- The node that a definition placed by an attempt makes. -/
def Node.definedAt (r : Room) (v : Service) (x : Side) : Node :=
  ((Node.placeNew r v x).openPe v.id).svcEventOf v.id none .defined

section definedAt
variable (r : Room) (v : Service) (x : Side)

theorem Node.definedAt_au : (Node.definedAt r v x).au = (Node.placeNew r v x).au := (Node.svcEventOf_offers _ _ _ _).au
theorem Node.definedAt_svc_eq (id : Nat) : (Node.definedAt r v x).svc id = (Node.placeNew r v x).svc id :=
  Node.svc_congr (by rw [Node.definedAt_au]) id
theorem Node.definedAt_svc : (Node.definedAt r v x).svc v.id = some { v with
    state := r.state, reason := none, shedNo := none, adm := some (min 4294967295 (r.node.au.admCounter + 1))
    current := if v.prot = .dual then none else some x, cells := r.cells } := by
  rw [Node.definedAt_svc_eq, ← v.prot.current_eq x]
  exact Node.takeCells_svc r.node.countAdmission { v with
    state := r.state, reason := none, shedNo := none, adm := some r.node.countAdmission.au.admCounter
    current := v.prot.current x } r.cells
theorem Node.definedAt_svc_ne {id : Nat} (h : id ≠ v.id) : (Node.definedAt r v x).svc id = r.node.svc id := by
  rw [Node.definedAt_svc_eq]
  exact Node.takeCells_svc_ne r.node.countAdmission { v with
    state := r.state, reason := none, shedNo := none, adm := some r.node.countAdmission.au.admCounter
    current := v.prot.current x } r.cells h
theorem Node.definedAt_admCounter : (Node.definedAt r v x).au.admCounter = min 4294967295 (r.node.au.admCounter + 1) := by
  rw [Node.definedAt_au]; rfl
theorem Node.definedAt_peOf : (Node.definedAt r v x).peOf v.id = some { id := v.id } := by
  unfold Node.peOf
  rw [Node.definedAt, Node.svcEventOf_pe]
  exact Node.peOf_openPe _ v.id
theorem Node.definedAt_live : (Node.definedAt r v x).cs.live = r.node.cs.live := by
  rw [Node.definedAt, (Node.svcEventOf_offers _ _ _ _).cs]; rfl

end definedAt

section defineShed
variable (n : Node) (v : Service) (why : ShedReason)

theorem Node.defineShed_svc : (n.defineShed v why).svc v.id = some { v with
    state := .shed, reason := some why, shedNo := some (min 4294967295 (n.au.shedCounter + 1)) } :=
  Node.svc_putSvc n.countShed { v with
    state := .shed, reason := some why, shedNo := some n.countShed.au.shedCounter }
theorem Node.defineShed_peOf : (n.defineShed v why).peOf v.id = some { id := v.id } := Node.peOf_openPe _ v.id

end defineShed

/-! ## The decision (R79, R80) -/

section define
variable {n : Node} {v : Service} {x : Side}

/-- Economy mode does not keep the service from being placed. -/
def Node.Admissible (n : Node) (v : Service) : Prop := n.au.economy = false ∨ v.level < 2

theorem Node.Admissible.eq_false (h : n.Admissible v) : (n.au.economy && decide (2 ≤ v.level)) = false := by
  rcases h with h | h
  · rw [h]; rfl
  · rw [decide_eq_false (Nat.not_le.2 h), Bool.and_false]
theorem Node.define_economy (h : n.au.economy = true) (hlevel : 2 ≤ v.level) : n.define v = some (n.defineShed v .economy) := by
  simp [Node.define, h, hlevel]
theorem Node.define_no_side (h : n.Admissible v) (hside : n.targetSide v = none) :
    n.define v = some (n.defineShed v .pathLost) := by
  simp [Node.define, h.eq_false, hside]
theorem Node.define_placed (h : n.Admissible v) (hside : n.targetSide v = some x) {r : Room}
    (hr : n.attempts v x (v.fullAttempts ++ v.floorAttempts) = some r) : n.define v = some (Node.definedAt r v x) := by
  simp [Node.define, h.eq_false, hside, hr, Node.definedAt]
theorem Node.define_no_room (h : n.Admissible v) (hside : n.targetSide v = some x)
    (hr : n.attempts v x (v.fullAttempts ++ v.floorAttempts) = none) :
    n.define v = if v.wait then some (n.defineShed v .noRoom) else none := by
  simp [Node.define, h.eq_false, hside, hr]
/-- A REROUTE service has no side to be placed on when neither is usable (R76). -/
theorem Node.targetSide_none (hp : v.prot = .reroute) (ha : n.usable .a = false) (hb : n.usable .b = false) :
    n.targetSide v = none := by
  have hboth (y : Side) : n.usable y = false := by
    cases y
    · exact ha
    · exact hb
  simp [Node.targetSide, hp, Node.pickSide, hboth]

end define

/-! ## The answer (R81) -/

section owner
variable {n : Node} {b : List Byte} (k : Link)

/-- The reply to a definition that leaves a record: the flags of its grants and the fields of the record. -/
def defineReply (w : Service) (d : Definition) (used : Rounding) : Reply :=
  { flags := defineFlags w (d.fullGrant used) (d.floorGrant used), fields := defineFields w }

theorem ownDefineService_made (hc : firstRefusal (commonChecks n false b 22 ++ defineChecks n b) = none) {m : Node} {w : Service}
    (hm : n.define (n.recordOf (definitionOf b)) = some m) (hw : m.svc (n.recordOf (definitionOf b)).id = some w) :
    ownDefineService k b n =
      { node := m, reply := defineReply w (definitionOf b) (n.recordOf (definitionOf b)).modeUsed } := by
  have hid : m.svc (definitionOf b).id = some w := hw
  refine (checked_passed ((firstRefusal_eq_none _).1 hc)).trans ?_
  dsimp only
  rw [hm]
  dsimp only
  rw [hid]
  rfl
theorem ownDefineService_no_capacity (hc : firstRefusal (commonChecks n false b 22 ++ defineChecks n b) = none)
    (hm : n.define (n.recordOf (definitionOf b)) = none) :
    ownDefineService k b n = { node := n, reply := refusal .noCapacity } := by
  refine (checked_passed ((firstRefusal_eq_none _).1 hc)).trans ?_
  dsimp only
  rw [hm]

end owner

/-- Settles O41: the checks fail or all pass, and then `Node.define` decides: the record is shed or the first attempt places it. -/
theorem definitionPlacesShedsOrRefuses : Obligations.DefinitionPlacesShedsOrRefuses := by
  intro s i r hasks hkind w n checks d v answered shed
  have hmine := isKind_of_eq hkind
  have hanswered (hnone : checks = none) {m : Node} {u : Service} (hm : n.define v = some m) (hu : m.svc v.id = some u) :
      answered m u := ⟨hu, handle_asks hasks _ hmine |>.trans (by rw [ownDefineService_made _ hnone hm hu]; rfl)⟩
  have hshed (hnone : checks = none) {why : ShedReason} (hm : n.define v = some (n.defineShed v why)) :
      ∃ m, shed m why :=
    ⟨n.defineShed v why, hanswered hnone hm (n.defineShed_svc v why), rfl, rfl, n.defineShed_peOf v why, rfl⟩
  refine ⟨fun rep hrep => handle_refused hasks hmine (checked_failed hrep), fun hnone => ⟨fun heco hlevel => ?_, fun hadm =>
    ⟨fun hp ha hb => ?_, fun x hside => ?_⟩⟩⟩
  · exact hshed hnone (Node.define_economy heco hlevel)
  · exact hshed hnone (Node.define_no_side hadm (Node.targetSide_none hp ha hb))
  · intro placed may fails placedAt
    have hplaced {left : Node} {st : SvcState} {cells : List Nat} (hcount : left.au.admCounter = n.au.admCounter)
        (hlive : left.cs.live = n.cs.live) (hr : n.attempts v x (v.fullAttempts ++ v.floorAttempts) =
          some { node := left, cells := cells, state := st }) : placed left st cells := by
      refine ⟨Node.definedAt ⟨left, cells, st⟩ v x, hanswered hnone (Node.define_placed hadm hside hr) ?_, ?_,
        Node.definedAt_peOf _ v x, fun id hid => Node.definedAt_svc_ne _ v x hid, (Node.definedAt_live _ v x).trans hlive⟩
      · rw [Node.definedAt_svc, hcount]; rfl
      · rw [Node.definedAt_admCounter, hcount]
    have hplacedAt {g : Nat} {st : SvcState} {rest : List Attempt}
        (htries : n.attempts v x (v.fullAttempts ++ v.floorAttempts) = n.attempts v x (attemptsAt g st ++ rest)) :
        placedAt g st :=
      ⟨fun cells hcells => hplaced rfl rfl (htries.trans (Node.attempts_of_plain hcells)),
        fun left cells hplain hmay hcells => hplaced (Node.preemptCells_admCounter hcells) (Node.preemptCells_hands hcells).live
          (htries.trans (Node.attempts_of_preempt hplain hmay hcells))⟩
    refine ⟨hplacedAt rfl, fun f hf hfails => hplacedAt (rest := []) ?_, fun htries => ⟨fun hwait => ?_, fun hwait => ?_⟩⟩
    · have hfloor : v.floorAttempts = attemptsAt f .reduced ++ [] := by rw [Service.floorAttempts, hf]; rfl
      rw [← hfloor]
      exact Node.attempts_of_fails hfails.1 hfails.2
    · exact hshed hnone (by rw [Node.define_no_room hadm hside htries, if_pos hwait])
    · exact handle_refused hasks hmine (ownDefineService_no_capacity _ hnone
        (by rw [Node.define_no_room hadm hside htries, hwait]; rfl))

end Sys2Proof.Machine
end

section
/-! SUPPORT. STORE-suspended transfers resumed (R162): the first of them in number order, as many as there are free blocks. -/

namespace Sys2Proof.Machine

/-! ## The first of an ascending list -/

/-- In an ascending list, the first `k` with a property are those with fewer than `k` others of it before them. -/
theorem mem_take_filter {l : List (Fin 4)} (h : l.Pairwise (· < ·)) (p : Fin 4 → Bool) (k : Nat) (t : Fin 4) :
    t ∈ (l.filter p).take k ↔ t ∈ l ∧ p t = true ∧ (l.filter fun j => decide (j < t) && p j).length < k := by
  induction l generalizing k with
  | nil => simp
  | cons a l ih =>
    obtain ⟨ha, hl⟩ := List.pairwise_cons.1 h
    by_cases hta : t = a
    · subst hta
      have hnone : l.filter (fun j => decide (j < t) && p j) = [] := by
        rw [List.filter_eq_nil_iff]
        intro j hj
        simp [(ha j hj).le]
      by_cases hp : p t = true
      · cases k with
        | zero => simp
        | succ k => simp [hp, hnone]
      · have hout : t ∉ (l.filter p).take k := fun hin => hp (List.mem_filter.1 (List.mem_of_mem_take hin)).2
        simp [hp, hout]
    · by_cases hp : p a = true
      · by_cases htl : t ∈ l
        · have hlt := ha t htl
          cases k with
          | zero => simp
          | succ k => simp [hp, hta, htl, hlt, ih hl]
        · have hout : t ∉ (l.filter p).take (k - 1) := fun hin => htl (List.mem_filter.1 (List.mem_of_mem_take hin)).1
          cases k with
          | zero => simp
          | succ k =>
            rw [Nat.add_sub_cancel] at hout
            simp [hp, hta, htl, hout]
      · simp [hp, hta, ih hl]

theorem allFour_ascending : allFour.Pairwise (· < ·) := by decide
theorem mem_allFour (t : Fin 4) : t ∈ allFour := by revert t; decide

/-! ## One transfer resumed -/

theorem Node.offerFrame_te (n : Node) (id : Nat) (data : List Byte) : (n.offerFrame id data).1.te = n.te := by
  unfold Node.offerFrame
  split
  · split
    · rfl
    · split <;> rfl
  · rfl

/-- A transfer with the counts that the offer of a state frame may change. -/
def Transfer.offered (x : Transfer) (reported timer : Nat) (counts : TransferCounts) : Transfer :=
  { x with reported := reported, timer := timer, counts := counts }

section one
variable {n : Node} {t : Fin 4} {x : Transfer}

theorem Node.offerState_xfer (h : n.xfer t = some x) :
    ∃ reported timer counts, (n.offerState t).xfer t = some (x.offered reported timer counts) := by
  unfold Node.offerState
  rw [h]
  dsimp only
  split
  · rw [Node.xfer_setXfer]
    split
    · exact ⟨_, _, _, rfl⟩
    · exact ⟨_, _, _, rfl⟩
  · exact ⟨x.reported, x.timer, x.counts, h⟩
theorem Node.offerState_xfer_ne (n : Node) {t u : Fin 4} (h : t ≠ u) : (n.offerState t).xfer u = n.xfer u := by
  unfold Node.offerState
  split
  · rfl
  · split
    · rw [Node.xfer_setXfer_ne _ h, Node.xfer, Node.offerFrame_te]; rfl
    · rfl
theorem Node.resumeOne_xfer (h : n.xfer t = some x) : ∃ reported timer counts,
    (n.resumeOne t).xfer t = some ({ x with state := .receiving, reason := none }.offered reported timer counts) := by
  unfold Node.resumeOne
  rw [h]
  refine Node.offerState_xfer ?_
  simp [Node.transferTo]
theorem Node.resumeOne_xfer_ne (n : Node) {t u : Fin 4} (h : t ≠ u) : (n.resumeOne t).xfer u = n.xfer u := by
  unfold Node.resumeOne
  split
  · rw [Node.offerState_xfer_ne _ h, Node.transferTo, Node.xfer_report, Node.xfer_setXfer_ne _ h]
  · rfl
/-- The offers of state frames and reports leave the bulk store and the poll controller alone. -/
theorem Node.offerState_rest (n : Node) (t : Fin 4) : (n.offerState t).te.store = n.te.store ∧ (n.offerState t).pc = n.pc := by
  have hpc (id : Nat) (data : List Byte) : (n.offerFrame id data).1.pc = n.pc := by
    unfold Node.offerFrame
    split
    · split
      · rfl
      · split <;> rfl
    · rfl
  unfold Node.offerState
  split
  · exact ⟨rfl, rfl⟩
  · split
    · dsimp only [Node.setXfer]
      rw [Node.offerFrame_te]
      exact ⟨rfl, hpc _ _⟩
    · exact ⟨rfl, rfl⟩
theorem Node.resumeOne_rest (n : Node) (t : Fin 4) : (n.resumeOne t).te.store = n.te.store ∧ (n.resumeOne t).pc = n.pc := by
  unfold Node.resumeOne
  split
  · exact Node.offerState_rest _ t
  · exact ⟨rfl, rfl⟩

end one

/-! ## The transfers resumed -/

theorem Node.resumeAll_xfer_of_not_mem {l : List (Fin 4)} {u : Fin 4} (h : u ∉ l) (n : Node) :
    (l.foldl Node.resumeOne n).xfer u = n.xfer u := by
  induction l generalizing n with
  | nil => rfl
  | cons t l ih =>
    obtain ⟨hne, hl⟩ := List.ne_and_not_mem_of_not_mem_cons h
    exact (ih hl _).trans (n.resumeOne_xfer_ne hne.symm)
theorem Node.resumeAll_xfer {l : List (Fin 4)} (hl : l.Nodup) {u : Fin 4} (h : u ∈ l) {n : Node} {x : Transfer}
    (hx : n.xfer u = some x) : ∃ reported timer counts, (l.foldl Node.resumeOne n).xfer u =
      some ({ x with state := .receiving, reason := none }.offered reported timer counts) := by
  induction l generalizing n with
  | nil => exact absurd h List.not_mem_nil
  | cons t l ih =>
    obtain ⟨ht, hl⟩ := List.nodup_cons.1 hl
    by_cases hut : u = t
    · subst hut
      rw [List.foldl_cons, Node.resumeAll_xfer_of_not_mem ht]
      exact Node.resumeOne_xfer hx
    · exact ih hl ((List.mem_cons.1 h).resolve_left hut) ((n.resumeOne_xfer_ne (Ne.symm hut)).trans hx)
theorem Node.resumeStore_rest (n : Node) : n.resumeStore.te.store = n.te.store ∧ n.resumeStore.pc = n.pc := by
  have hfold (l : List (Fin 4)) (k : Node) :
      (l.foldl Node.resumeOne k).te.store = k.te.store ∧ (l.foldl Node.resumeOne k).pc = k.pc := by
    induction l generalizing k with
    | nil => exact ⟨rfl, rfl⟩
    | cons t l ih =>
      obtain ⟨hstore, hpc⟩ := ih (k.resumeOne t)
      obtain ⟨hstore', hpc'⟩ := k.resumeOne_rest t
      exact ⟨hstore.trans hstore', hpc.trans hpc'⟩
  exact hfold _ n
theorem Node.storeSuspended_eq (n : Node) (t : Fin 4) :
    n.storeSuspended t = (n.xfer t).any fun x => decide (x.state = .suspended ∧ x.reason = some .store) := by
  unfold Node.storeSuspended
  cases n.xfer t with
  | none => rfl
  | some x => exact Bool.eq_iff_iff.2 (by simp)

theorem Node.resumeStore_resumed (n : Node) : StoreResumed n n.resumeStore := by
  unfold StoreResumed
  intro waits t resumes
  have hwaits : waits = n.storeSuspended := funext fun t => (n.storeSuspended_eq t).symm
  have hmem : t ∈ (allFour.filter n.storeSuspended).take n.freeBlocks.length ↔ resumes := by
    rw [mem_take_filter allFour_ascending, ← hwaits]
    exact ⟨fun h => h.2, fun h => ⟨mem_allFour t, h⟩⟩
  have hnodup : ((allFour.filter n.storeSuspended).take n.freeBlocks.length).Nodup :=
    ((allFour_ascending.imp (fun h => ne_of_lt h)).sublist List.filter_sublist).sublist (List.take_sublist _ _)
  exact ⟨fun h => Node.resumeAll_xfer_of_not_mem (fun hin => h (hmem.1 hin)) n,
    fun h x hx => Node.resumeAll_xfer hnodup (hmem.2 h) hx⟩

end Sys2Proof.Machine
end

section
/-! SUPPORT. What a restoration pass leaves of an id that has no record: it is given none, no half comes to name it, its staging
record and its packet state stay (R53, R64, R95 to R99). -/

namespace Sys2Proof.Machine

/-- No half of the allotment is owned by an id. -/
def Node.Unnamed (n : Node) (id : Nat) : Prop := ∀ e ∈ n.au.allot, e.a ≠ some id ∧ e.b ≠ some id

/-- What is kept of an id that has no record. -/
structure Node.Spares (id : Nat) (n m : Node) : Prop where
  record : m.svc id = none
  unnamed : n.Unnamed id → m.Unnamed id
  staged : ∀ x ∈ n.cs.staging, x.id = id → x ∈ m.cs.staging
  ids : m.pe.svcs.map (·.id) = n.pe.svcs.map (·.id)
  map : m.au.map = n.au.map
  economy : m.au.economy = n.au.economy
  service : m.pc.service = n.pc.service

/-! ## Halves given to another id -/

theorem ownHalf_ne_of_ne {id j : Nat} (hne : j ≠ id) {o : Option Nat} (ho : o ≠ some id) (inSet : Bool) :
    ownHalf j inSet o ≠ some id := by
  rw [ownHalf_eq]
  split
  · simpa using hne
  · split
    · nofun
    · exact ho
/-- An id that is given an empty half set owns no half. -/
theorem ownHalf_false_ne (id : Nat) (o : Option Nat) : ownHalf id false o ≠ some id := by
  rw [ownHalf_eq, if_neg Bool.false_ne_true]
  split
  · nofun
  · assumption
theorem Node.Unnamed.setOwner {n m : Node} {id j : Nat} {h : HalfSet} (w : n.Unnamed id) (hne : j ≠ id)
    (hm : m.au.allot = Machine.setOwner n.au.allot j h) : m.Unnamed id := by
  intro e he
  rw [hm] at he
  obtain ⟨d, hd, rfl⟩ := List.mem_map.1 he
  obtain ⟨ha, hb⟩ := w d hd
  exact ⟨ownHalf_ne_of_ne hne ha _, ownHalf_ne_of_ne hne hb _⟩
theorem Node.Unnamed.of_emptied {n m : Node} {id : Nat} (hm : m.au.allot = Machine.setOwner n.au.allot id {}) : m.Unnamed id := by
  intro e he
  rw [hm] at he
  obtain ⟨d, -, rfl⟩ := List.mem_map.1 he
  exact ⟨ownHalf_false_ne id d.a, ownHalf_false_ne id d.b⟩

namespace Node.Spares

variable {id : Nat}

theorem trans {a b c : Node} (h : a.Spares id b) (k : b.Spares id c) : a.Spares id c :=
  ⟨k.record, fun w => k.unnamed (h.unnamed w), fun x hx hid => k.staged x (h.staged x hx hid) hid, k.ids.trans h.ids,
    k.map.trans h.map, k.economy.trans h.economy, k.service.trans h.service⟩
theorem of_offers {n m : Node} (o : n.Offers m) (h : n.svc id = none) : n.Spares id m where
  record := (Node.svc_congr (by rw [o.au]) id).trans h
  unnamed w := by rw [Node.Unnamed, o.au]; exact w
  staged x hx _ := by rw [o.cs]; exact hx
  ids := o.ids
  map := by rw [o.au]
  economy := by rw [o.au]
  service := o.service
theorem refl {n : Node} (h : n.svc id = none) : n.Spares id n := of_offers (.refl n) h
/-- Another service takes cells. -/
theorem takeCells {n : Node} (h : n.svc id = none) {v : Service} (hne : v.id ≠ id) (cells : List Nat) :
    n.Spares id (n.takeCells v cells) where
  record := (n.takeCells_svc_ne v cells hne.symm).trans h
  unnamed w := w.setOwner hne (n.takeCells_allot v cells)
  staged x hx hid := List.mem_append_left _ (List.mem_filter.2 ⟨hx, by simp [hid, hne.symm]⟩)
  ids := rfl
  map := rfl
  economy := rfl
  service := rfl
theorem placeNew {r : Room} (h : r.node.svc id = none) {v : Service} (hne : v.id ≠ id) (x : Side) :
    r.node.Spares id (Node.placeNew r v x) := by
  have hcount : r.node.Spares id r.node.countAdmission := ⟨h, fun w => w, fun x hx _ => hx, rfl, rfl, rfl, rfl⟩
  exact hcount.trans (takeCells hcount.record (v := { v with
    state := r.state, reason := none, shedNo := none, adm := some r.node.countAdmission.au.admCounter
    current := v.prot.current x }) hne r.cells)
theorem shed {n : Node} (h : n.svc id = none) {v : Service} (hne : v.id ≠ id) (why : ShedReason) :
    n.Spares id (n.shed v why) := by
  have hshed : n.Spares id (((n.freeHalves v).countShed.putSvc { v with
      cells := [], state := .shed, reason := some why, current := none
      shedNo := some (n.freeHalves v).countShed.au.shedCounter }).handHalves v.id v.cls {}) :=
    { record := by
        refine (Node.svc_putSvc_ne _ (v := { v with
          cells := [], state := .shed, reason := some why, current := none
          shedNo := some (n.freeHalves v).countShed.au.shedCounter }) hne.symm).trans ?_
        exact (Node.svc_putSvc_ne _ (v := { v with cells := [] }) hne.symm).trans h
      unnamed := fun w => w.setOwner (h := {}) hne rfl
      staged := fun x hx hid => List.mem_append_left _ (List.mem_filter.2 ⟨hx, by simp [hid, hne.symm]⟩)
      ids := rfl
      map := rfl
      economy := rfl
      service := rfl }
  exact hshed.trans (of_offers ((Node.report_offers _ _).trans (Node.transferShed_offers _ _)) hshed.record)
theorem shedId {n : Node} (h : n.svc id = none) (j : Nat) (why : ShedReason) : n.Spares id (n.shedId j why) := by
  unfold Node.shedId
  split
  · rename_i v hv
    refine shed h (fun hid => ?_) why
    rw [Node.svc_id hv] at hid
    rw [hid, h] at hv
    cases hv
  · exact refl h
theorem shedAll {n : Node} (h : n.svc id = none) (l : List Nat) (why : ShedReason) :
    n.Spares id (l.foldl (fun m j => m.shedId j why) n) := by
  induction l generalizing n with
  | nil => exact refl h
  | cons j l ih =>
    have hfirst := shedId h j why
    exact hfirst.trans (ih hfirst.record)
theorem attempts {n : Node} (h : n.svc id = none) {v : Service} {x : Side} {l : List Attempt} {r : Room}
    (hr : n.attempts v x l = some r) : n.Spares id r.node := by
  obtain ⟨t, -, ht⟩ := List.exists_of_findSome?_eq_some hr
  rcases Node.attempt_cases ht with ⟨cells, -, rfl⟩ | ⟨-, m, cells, hm, rfl⟩
  · exact refl h
  · unfold Node.preemptCells at hm
    dsimp only at hm
    split at hm
    · cases hm; exact shedAll h _ _
    · cases hm

end Node.Spares

/-- A record found is not that of an id without one. -/
theorem Node.svc_id_ne {n : Node} {id : Nat} (h : n.svc id = none) {v : Service} (hv : n.svc v.id = some v) : v.id ≠ id := by
  intro hid
  rw [hid, h] at hv
  cases hv

/-- A pass gives an id below 56 that has no record neither record nor half (R64, R95 to R99). -/
theorem spares_passClosed {id : Nat} (hid : id < 56) :
    Node.PassClosed (fun n m => n.svc id = none → n.Spares id m) where
  refl _ h := .refl h
  trans hab hbc h := (hab h).trans (hbc (hab h).record)
  offers o h := .of_offers o h
  calls n cc h := ⟨h, fun w => w, fun x hx _ => hx, rfl, rfl, rfl, rfl⟩
  call {n p x r} hr h := by
    have hleft := Node.Spares.attempts h hr
    refine hleft.trans (.placeNew hleft.record ?_ _)
    have : (callService p x).id = 56 + p.val := rfl
    omega
  restore st hv _ _ h := .placeNew (r := ⟨_, _, st⟩) h (Node.svc_id_ne h hv) _
  grow {n v x cells} hv _ h := .takeCells h (v := { v with state := .active }) (Node.svc_id_ne h (v := v) hv) _
  home {n v cells} hv _ h := .takeCells h (v := { v with current := some v.primary }) (Node.svc_id_ne h (v := v) hv) _

end Sys2Proof.Machine
end

section
/-! SUPPORT. RELEASE_SERVICE (R83, R162, R169): the node that a release leaves to its pass, record by record, and what the pass and
the transfers resumed after it leave of the released id. -/

namespace Sys2Proof.Machine

/-! ## The transfer that a service carries (R169) -/

theorem Node.xfer_congr {n m : Node} (h : m.te = n.te) (t : Fin 4) : m.xfer t = n.xfer t := by simp only [Node.xfer, h]
theorem Node.freeBlocks_congr {n m : Node} (h : m.te = n.te) : m.freeBlocks = n.freeBlocks := by
  simp only [Node.freeBlocks, Node.xfer_congr h]

/-- Transfer `t`, with record `x`, is the first open one of a service. -/
def Node.Carries (n : Node) (id : Nat) (t : Fin 4) (x : Transfer) : Prop :=
  n.xfer t = some x ∧ x.service = id ∧ ∀ j, j < t → ∀ y, n.xfer j = some y → y.service ≠ id

/-- Transfer `t` is open for a service. -/
def Node.openFor (n : Node) (id : Nat) (t : Fin 4) : Bool := (n.xfer t).any (·.service == id)

theorem Node.openFor_iff (n : Node) (id : Nat) (t : Fin 4) :
    n.openFor id t = true ↔ ∃ x, n.xfer t = some x ∧ x.service = id := by
  simp [Node.openFor, Option.any_eq_true]
/-- The transfer that a service carries is the first open one. -/
theorem Node.transferOf_eq_some (n : Node) (id : Nat) (t : Fin 4) :
    n.transferOf id = some t ↔ n.openFor id t = true ∧ ∀ j, j < t → n.openFor id j = false := by
  have hfind : n.transferOf id = allFour.find? (n.openFor id) := by
    unfold Node.transferOf
    congr 1
    funext t
    unfold Node.openFor
    cases n.xfer t <;> rfl
  rw [hfind, ← List.head?_filter, ← Option.mem_toList, ← List.take_one, mem_take_filter allFour_ascending, Nat.lt_one_iff,
    List.length_eq_zero_iff, List.filter_eq_nil_iff]
  simp [mem_allFour]
theorem Node.transferOf_of_carries {n : Node} {id : Nat} {t : Fin 4} {x : Transfer} (h : n.Carries id t x) :
    n.transferOf id = some t := by
  obtain ⟨hx, hid, hnone⟩ := h
  refine (n.transferOf_eq_some id t).2 ⟨(n.openFor_iff id t).2 ⟨x, hx, hid⟩, fun j hj => Bool.eq_false_iff.2 fun hopen => ?_⟩
  obtain ⟨y, hy, hyid⟩ := (n.openFor_iff id j).1 hopen
  exact hnone j hj y hy hyid
theorem Node.carries_of_transferOf {n : Node} {id : Nat} {t : Fin 4} (h : n.transferOf id = some t) :
    ∃ x, n.Carries id t x := by
  obtain ⟨hopen, hnone⟩ := (n.transferOf_eq_some id t).1 h
  obtain ⟨x, hx, hid⟩ := (n.openFor_iff id t).1 hopen
  refine ⟨x, hx, hid, fun j hj y hy hyid => ?_⟩
  exact Bool.eq_false_iff.1 (hnone j hj) ((n.openFor_iff id j).2 ⟨y, hy, hyid⟩)

/-! ## The end of a binding (R83 step 2) -/

/-- The node without the packet state of a service. -/
def Node.withoutPe (n : Node) (id : Nat) : Node := { n with pe := { n.pe with svcs := n.pe.svcs.filter (·.id != id) } }

section unbind
variable {n : Node} {v : Service}

theorem Node.unbind_of_transfer {place quota age : Nat} (hb : v.binding = .transfer place quota age) : n.unbind v =
    (n.transferOf v.id).elim (n.withoutPe v.id) fun t => (n.withoutPe v.id).abortTransfer t .serviceGone := by
  rw [Node.unbind, hb]
  dsimp only
  split
  · rename_i t ht
    rw [show n.transferOf v.id = some t from ht]
    rfl
  · rename_i ht
    rw [show n.transferOf v.id = none from ht]
    rfl
theorem Node.unbind_transfer {place quota age : Nat} (hb : v.binding = .transfer place quota age) {t : Fin 4} {x : Transfer}
    (h : n.Carries v.id t x) :
    n.unbind v = (n.withoutPe v.id).closeRecord t x .aborted .aborted (some .serviceGone) := by
  have hx : (n.withoutPe v.id).xfer t = some x := h.1
  rw [Node.unbind_of_transfer hb, Node.transferOf_of_carries h, Option.elim_some, Node.abortTransfer, hx]
  rfl
theorem Node.unbind_no_transfer {place quota age : Nat} (hb : v.binding = .transfer place quota age)
    (h : n.transferOf v.id = none) : n.unbind v = n.withoutPe v.id := by
  rw [Node.unbind_of_transfer hb, h, Option.elim_none]
theorem Node.unbind_poll {quota age : Nat} (hb : v.binding = .poll quota age) : n.unbind v =
    if n.pc.service = some v.id then { n.withoutPe v.id with pc := { n.pc with service := none } } else n.withoutPe v.id := by
  rw [Node.unbind, hb]
  rfl
/-- Every end of a binding: an open transfer is aborted, or the weather service given up, or neither. -/
theorem Node.unbind_cases (n : Node) (v : Service) :
    (∃ place quota age t x, v.binding = .transfer place quota age ∧ n.Carries v.id t x ∧
      n.unbind v = (n.withoutPe v.id).closeRecord t x .aborted .aborted (some .serviceGone)) ∨
    (∃ quota age, v.binding = .poll quota age ∧ n.pc.service = some v.id ∧
      n.unbind v = { n.withoutPe v.id with pc := { n.pc with service := none } }) ∨
    ((∀ place quota age, v.binding = .transfer place quota age → n.transferOf v.id = none) ∧
      (∀ quota age, v.binding = .poll quota age → n.pc.service ≠ some v.id) ∧ n.unbind v = n.withoutPe v.id) := by
  cases hb : v.binding with
  | transfer place quota age =>
    cases ht : n.transferOf v.id with
    | some t =>
      obtain ⟨x, hx⟩ := Node.carries_of_transferOf ht
      exact .inl ⟨place, quota, age, t, x, rfl, hx, Node.unbind_transfer hb hx⟩
    | none => exact .inr (.inr ⟨fun _ _ _ _ => rfl, nofun, Node.unbind_no_transfer hb ht⟩)
  | poll quota age =>
    have hpoll := Node.unbind_poll (n := n) hb
    by_cases hs : n.pc.service = some v.id
    · rw [if_pos hs] at hpoll
      exact .inr (.inl ⟨quota, age, rfl, hs, hpoll⟩)
    · rw [if_neg hs] at hpoll
      exact .inr (.inr ⟨nofun, fun _ _ _ => hs, hpoll⟩)
  | packet port channel quota age => exact .inr (.inr ⟨nofun, nofun, by rw [Node.unbind, hb]; rfl⟩)
  | phone port => exact .inr (.inr ⟨nofun, nofun, by rw [Node.unbind, hb]; rfl⟩)
theorem Node.unbind_pe (n : Node) (v : Service) : (n.unbind v).pe = (n.withoutPe v.id).pe := by
  rcases n.unbind_cases v with ⟨_, _, _, _, _, _, _, he⟩ | ⟨_, _, _, _, he⟩ | ⟨_, _, he⟩
  all_goals exact (congrArg Node.pe he).trans rfl

end unbind

/-! ## The node that a release leaves to its pass -/

theorem filter_insertBy_of_not {α : Type} {p : α → Bool} {x : α} (le : α → α → Bool) (hx : p x = false) (l : List α) :
    (insertBy le x l).filter p = l.filter p := by
  induction l with
  | nil => simp [insertBy, hx]
  | cons y l ih =>
    unfold insertBy
    split
    · rw [List.filter_cons, hx]; rfl
    · rw [List.filter_cons, List.filter_cons, ih]

section vacated
variable (n : Node) (v : Service)

/-- Freeing halves concerns the admission unit and the cell switch alone. -/
theorem Node.halvesGone_rest : n.halvesGone v = { n with au := (n.halvesGone v).au, cs := (n.halvesGone v).cs } := by
  unfold Node.halvesGone
  split <;> rfl
theorem Node.halvesGone_pc : (n.halvesGone v).pc = n.pc := by rw [n.halvesGone_rest v]
theorem Node.halvesGone_others : (n.halvesGone v).au.services.filter (·.id != v.id) = n.au.services.filter (·.id != v.id) := by
  unfold Node.halvesGone
  split
  · rfl
  · refine (filter_insertBy_of_not _ (by simp) _).trans ?_
    rw [List.filter_filter]
    simp
theorem Node.vacated_au : (n.vacated v).au =
    { (n.halvesGone v).au with services := (n.halvesGone v).au.services.filter (·.id != v.id) } := by
  rw [Node.vacated, Node.report_au, Node.dropSvc_au, (Node.unbind_engines _ v).au]
theorem Node.vacated_services : (n.vacated v).au.services = (n.dropSvc v.id).au.services := by
  rw [Node.vacated_au]
  exact n.halvesGone_others v
theorem Node.vacated_cs : (n.vacated v).cs = (n.halvesGone v).cs := (Node.unbind_engines _ v).cs
theorem Node.vacated_settings : (n.vacated v).au.map = n.au.map ∧ (n.vacated v).au.economy = n.au.economy ∧
    (n.vacated v).au.admCounter = n.au.admCounter ∧ (n.vacated v).au.shedCounter = n.au.shedCounter := by
  rw [Node.vacated_au, Node.halvesGone]
  split <;> exact ⟨rfl, rfl, rfl, rfl⟩

theorem Node.vacated_svc : (n.vacated v).svc v.id = none :=
  (Node.svc_congr (n.vacated_services v) v.id).trans (n.svc_dropSvc v.id)
theorem Node.vacated_svc_ne {j : Nat} (h : j ≠ v.id) : (n.vacated v).svc j = n.svc j :=
  (Node.svc_congr (n.vacated_services v) j).trans (n.svc_dropSvc_ne h)
/-- The use of the service's level falls by its halves. -/
theorem Node.vacated_levelUse {n : Node} {v : Service} (hs : n.au.services.Pairwise (·.id < ·.id)) (hv : n.svc v.id = some v)
    (lv : Nat) : (n.vacated v).levelUse lv + (if v.level = lv then v.halves else 0) = n.levelUse lv := by
  have h := Node.levelUse_dropSvc hs v.id lv
  rw [Node.useOf_of_svc hv] at h
  rw [Node.levelUse_congr (n.vacated_services v) lv]
  exact h

theorem Node.vacated_of_shed (h : v.state = .shed) : (n.vacated v).au.allot = n.au.allot ∧ (n.vacated v).cs = n.cs := by
  rw [Node.vacated_au, Node.vacated_cs, Node.halvesGone, if_pos h]
  exact ⟨rfl, rfl⟩
theorem Node.vacated_allot (h : v.state ≠ .shed) : (n.vacated v).au.allot = setOwner n.au.allot v.id {} := by
  rw [Node.vacated_au, Node.halvesGone, if_neg h]
  rfl
theorem Node.vacated_entry (h : v.state ≠ .shed) (c : Nat) : entryOf (n.vacated v).au.allot c =
    (entryOf n.au.allot c).map fun e => { e with
      a := if e.a = some v.id then none else e.a, b := if e.b = some v.id then none else e.b } := by
  rw [n.vacated_allot v h, entryOf_setOwner]
  rfl
theorem Node.vacated_handed (h : v.state ≠ .shed) : (n.vacated v).cs.live = n.cs.live ∧
    ∃ e, (n.vacated v).cs.staging = n.cs.staging.filter (·.id != v.id) ++
      [{ id := v.id, cls := v.cls, set := { a := [], b := [] }, eff := e }] := by
  rw [Node.vacated_cs, Node.halvesGone, if_neg h]
  exact ⟨rfl, _, rfl⟩

theorem Node.vacated_pe : (n.vacated v).pe = { n.pe with svcs := n.pe.svcs.filter (·.id != v.id) } := by
  have h : (n.vacated v).pe = ((n.halvesGone v).withoutPe v.id).pe := Node.unbind_pe _ v
  rw [h, n.halvesGone_rest v]
  rfl
theorem Node.vacated_peOf : (n.vacated v).peOf v.id = none := by
  rw [Node.peOf, Node.vacated_pe]
  exact find?_filter_same PeService.id v.id _
theorem Node.vacated_peOf_ne {j : Nat} (h : j ≠ v.id) : (n.vacated v).peOf j = n.peOf j := by
  rw [Node.peOf, Node.vacated_pe]
  exact find?_filter_ne PeService.id h _
/-- Everything else of the node is as it was. -/
theorem Node.vacated_rest : (n.vacated v).cc = n.cc ∧ (n.vacated v).line = n.line ∧ (n.vacated v).path = n.path ∧
    (n.vacated v).cfg = n.cfg ∧ (n.vacated v).clk = n.clk ∧ (n.vacated v).op = n.op ∧ (n.vacated v).runTime = n.runTime := by
  have t := n.vacated_traffic v
  have hcc : (n.vacated v).cc = n.cc := by
    refine (Node.unbind_engines _ v).cc.trans ?_
    rw [n.halvesGone_rest v]
  exact ⟨hcc, t.line, t.path, t.cfg, t.clk, t.op, t.runTime⟩

/-! ## What the binding's end leaves (R83 step 2, R169) -/

/-- A carried transfer is aborted, its record closed and reported before the service's end. -/
theorem Node.vacated_of_carries {n : Node} {v : Service} {place quota age : Nat} (hb : v.binding = .transfer place quota age)
    {t : Fin 4} {x : Transfer} (h : n.Carries v.id t x) :
    (n.vacated v).te = { n.te with recs := n.te.recs.set t none } ∧
    (n.vacated v).reports = ((n.report (.transferEvent t v.id x.page (some x.state) .aborted .aborted none (some .serviceGone)
      x.received x.declared none 0 (n.vacated v).freeBlocks.length)).report v.released).reports ∧ (n.vacated v).pc = n.pc := by
  have hgone : (n.halvesGone v).Carries v.id t x := by
    rw [n.halvesGone_rest v]; exact h
  have hunbind := Node.unbind_transfer hb hgone
  have hte : (n.vacated v).te = { n.te with recs := n.te.recs.set t none } := by
    have : (n.vacated v).te = ((n.halvesGone v).unbind v).te := rfl
    rw [this, hunbind, n.halvesGone_rest v]
    rfl
  refine ⟨hte, ?_, ?_⟩
  · have hfree : (n.vacated v).freeBlocks = (n.setXfer t none).freeBlocks := Node.freeBlocks_congr hte
    rw [hfree, ← h.2.1, Node.vacated, hunbind, n.halvesGone_rest v]
    rfl
  · have : (n.vacated v).pc = ((n.halvesGone v).unbind v).pc := rfl
    rw [this, hunbind, n.halvesGone_rest v]
    rfl
/-- Without an open transfer, transfers and reports are as they were but for the service's end. -/
theorem Node.vacated_of_not_carried {n : Node} {v : Service}
    (h : ∀ place quota age, v.binding = .transfer place quota age → n.transferOf v.id = none) :
    (n.vacated v).te = n.te ∧ (n.vacated v).reports = (n.report v.released).reports := by
  have hte : (n.vacated v).te = ((n.halvesGone v).unbind v).te := rfl
  rcases (n.halvesGone v).unbind_cases v with ⟨place, quota, age, t, x, hb, hx, -⟩ | ⟨_, _, _, _, he⟩ | ⟨_, _, he⟩
  · have hcarried : n.Carries v.id t x := by
      rw [n.halvesGone_rest v] at hx; exact hx
    rw [Node.transferOf_of_carries hcarried] at h
    cases h place quota age hb
  all_goals
    rw [hte, Node.vacated, he, n.halvesGone_rest v]
    exact ⟨rfl, rfl⟩
/-- The weather service is given up when its POLL service is released. -/
theorem Node.vacated_pc_poll {n : Node} {v : Service} {quota age : Nat} (hb : v.binding = .poll quota age)
    (hs : n.pc.service = some v.id) : (n.vacated v).pc = { n.pc with service := none } := by
  have hpc : (n.vacated v).pc = ((n.halvesGone v).unbind v).pc := rfl
  rw [hpc, Node.unbind_poll hb, n.halvesGone_pc v, if_pos hs]
theorem Node.vacated_pc_other {n : Node} {v : Service}
    (h : (∀ quota age, v.binding ≠ .poll quota age) ∨ n.pc.service ≠ some v.id) : (n.vacated v).pc = n.pc := by
  have hpc : (n.vacated v).pc = ((n.halvesGone v).unbind v).pc := rfl
  rcases (n.halvesGone v).unbind_cases v with ⟨_, _, _, _, _, _, _, he⟩ | ⟨quota, age, hb, hs, -⟩ | ⟨_, _, he⟩
  · rw [hpc, he, n.halvesGone_rest v]; rfl
  · rw [n.halvesGone_pc v] at hs
    rcases h with h | h
    · exact absurd hb (h quota age)
    · exact absurd hs h
  · rw [hpc, he, n.halvesGone_rest v]; rfl

end vacated

/-! ## Blocks freed (R162, R169) -/

theorem Node.releaseFrees_of_carries {n : Node} {v : Service} {place quota age : Nat}
    (hb : v.binding = .transfer place quota age) {t : Fin 4} {x : Transfer} (h : n.Carries v.id t x) :
    n.releaseFrees v = (x.blocks != []) := by
  rw [Node.releaseFrees, hb]
  dsimp only
  rw [Node.transferOf_of_carries h, Option.any_some, Node.holdsBlocks, h.1, Option.any_some]
theorem Node.releaseFrees_of_not_carried {n : Node} {v : Service}
    (h : ∀ place quota age, v.binding = .transfer place quota age → n.transferOf v.id = none) : n.releaseFrees v = false := by
  unfold Node.releaseFrees
  split
  · rename_i place quota age hb; rw [h place quota age hb]; rfl
  · rfl
  · rfl
  · rfl

/-! ## After the pass -/

/-- The pass and the transfers resumed after it leave the released id without record and without a new half. -/
theorem Node.release_spares (n : Node) {v : Service} (h : v.id < 56) : (n.vacated v).Spares v.id (n.release v) := by
  have hpass := (spares_passClosed h).pass (n.vacated v) (n.vacated_svc v)
  rw [Node.release_eq]
  exact hpass.trans (.of_offers (Node.resumeIf_offers _ _) hpass.record)
theorem Node.Spares.peOf {n m : Node} {id j : Nat} (s : n.Spares id m) (h : n.peOf j = none) : m.peOf j = none := by
  have hiff (k : Node) : k.peOf j = none ↔ j ∉ k.pe.svcs.map (·.id) := by
    simp [Node.peOf, List.find?_eq_none]
  rw [hiff, s.ids]
  exact (hiff n).1 h

end Sys2Proof.Machine
end

section
/-! SUPPORT. The requests to release a service, accepted and refused (R83). -/

namespace Sys2Proof.Machine

section owner
variable {n : Node} {b : List Byte} (k : Link)

theorem ownReleaseService_ok (hlen : b.length = 1) (hid : f1 b 0 ≤ 55) {v : Service} (hv : n.svc (f1 b 0) = some v) :
    ownReleaseService k b n = { node := n.release v, reply := okReply [] } := by
  have h63 : f1 b 0 ≤ 63 := by omega
  refine (checked_append (commonChecks_passed hlen) (by simp [hid, h63, hv])).trans ?_
  rw [hv]
theorem ownReleaseService_no_service (hlen : b.length = 1) (hid : f1 b 0 ≤ 55) (hv : n.svc (f1 b 0) = none) :
    ownReleaseService k b n = { node := n, reply := refusal .noSuchService } := by
  have h63 : ¬ 63 < f1 b 0 := by omega
  have h55 : ¬ 55 < f1 b 0 := by omega
  exact checked_failed (by simp [firstRefusal, commonChecks, hlen, h63, h55, hv])
theorem ownReleaseService_reserved (hlen : b.length = 1) (h55 : 55 < f1 b 0) (h63 : f1 b 0 ≤ 63) :
    ownReleaseService k b n = { node := n, reply := refusal .idReserved } :=
  checked_failed (by simp [firstRefusal, commonChecks, hlen, h55, Nat.not_lt.2 h63])
theorem ownReleaseService_out_of_range (hlen : b.length = 1) (h63 : 63 < f1 b 0) :
    ownReleaseService k b n = { node := n, reply := badField 0 } :=
  checked_failed (by simp [firstRefusal, commonChecks, hlen, h63])

end owner

/-- Settles O42: the checks pass or one fails; a release leaves `Node.vacated`, over which the pass runs, sparing the released id,
and the transfers resume when the abort freed blocks. -/
theorem releaseRemovesTheService : Obligations.ReleaseRemovesTheService := by
  intro s i r hasks hkind hlen n id unnamed
  have hmine := isKind_of_eq hkind
  refine ⟨fun v hle hv => ?_, fun hle hv => ?_, fun h55 h63 => ?_, fun h63 => ?_⟩
  · intro carried released
    have hexec : exec .releaseService s = .next (s.replied i r (n.release v) (okBytes [])) :=
      handle_ok hasks hmine (ownReleaseService_ok _ hlen hle hv)
    have hid : v.id = id := Node.svc_id hv
    clear_value id
    subst hid
    have hspares : (n.vacated v).Spares v.id (n.release v) := n.release_spares (by omega)
    have htraffic : n.Traffic (n.release v) := n.release_traffic v
    have hcarries {t : Fin 4} {x : Transfer} (h : n.Carries v.id t x) {place quota age : Nat}
        (hb : v.binding = .transfer place quota age) : carried t x := ⟨⟨place, quota, age, hb⟩, h⟩
    obtain ⟨hmap, heco, hadm, hshed⟩ := n.vacated_settings v
    obtain ⟨hcc, hline, hpath, hcfg, hclk, hop, hrun⟩ := n.vacated_rest v
    refine ⟨n.vacated v, n.release v, hexec, ⟨n.vacated_svc v, fun j hj => n.vacated_svc_ne v hj, hmap, heco, hadm, hshed⟩,
      fun w => Node.vacated_levelUse w.services hv, n.vacated_of_shed v, fun hst => ?_,
      ⟨n.vacated_peOf v, fun j hj => n.vacated_peOf_ne v hj, ?_⟩, fun quota age hb hs => Node.vacated_pc_poll hb hs,
      fun h => Node.vacated_pc_other h, fun t x hx => ?_, fun hnone => ?_, fun hun => ?_, hspares.record,
      hspares.peOf (n.vacated_peOf v), hspares.map.trans hmap, hspares.economy.trans heco, fun quota age hb hs => ?_,
      fun hst => ?_, hcc, hline, hpath, hcfg, hclk, hop, hrun, htraffic.line, htraffic.path, htraffic.cfg, htraffic.clk,
      htraffic.op, htraffic.runTime⟩
    · exact ⟨Node.Unnamed.of_emptied (n.vacated_allot v hst), n.vacated_entry v hst, n.vacated_handed v hst⟩
    · rw [n.vacated_pe v]
    · obtain ⟨⟨place, quota, age, hb⟩, hx⟩ := hx
      obtain ⟨hte, hreports, -⟩ := Node.vacated_of_carries hb hx
      refine ⟨hte, hreports, fun hnone => ?_, fun hsome => ?_⟩
      · rw [Node.release_eq, Node.releaseFrees_of_carries hb hx, hnone]
        rfl
      · have hfrees : n.release v = (n.vacated v).pass.resumeStore := by
          rw [Node.release_eq, Node.releaseFrees_of_carries hb hx, bne_iff_ne.2 hsome]
          rfl
        have hengines := (n.vacated v).pass.resumeStore_engines
        obtain ⟨hstore, hpc⟩ := (n.vacated v).pass.resumeStore_rest
        rw [hfrees]
        exact ⟨Node.resumeStore_resumed _, hengines.au, hengines.cs, hengines.cc, hpc, hstore⟩
    · have hfree : ∀ place quota age, v.binding = .transfer place quota age → n.transferOf v.id = none := by
        intro place quota age hb
        cases ht : n.transferOf v.id with
        | none => rfl
        | some t =>
          obtain ⟨x, hx⟩ := Node.carries_of_transferOf ht
          exact absurd (hcarries hx hb) (hnone t x)
      obtain ⟨hte, hreports⟩ := Node.vacated_of_not_carried hfree
      exact ⟨hte, hreports, by rw [Node.release_eq, Node.releaseFrees_of_not_carried hfree, Node.resumeIf_false]⟩
    · refine hspares.unnamed ?_
      by_cases hst : v.state = .shed
      · rw [Node.Unnamed, (n.vacated_of_shed v hst).1]
        exact hun.resolve_left (not_not_intro hst)
      · exact Node.Unnamed.of_emptied (n.vacated_allot v hst)
    · rw [hspares.service, Node.vacated_pc_poll hb hs]
    · obtain ⟨-, e, hstaging⟩ := n.vacated_handed v hst
      exact ⟨_, hspares.staged _ (by rw [hstaging]; exact List.mem_append_right _ (List.mem_singleton.2 rfl)) rfl, rfl, rfl⟩
  · exact handle_refused hasks hmine (ownReleaseService_no_service _ hlen hle hv)
  · exact handle_refused hasks hmine (ownReleaseService_reserved _ hlen h55 h63)
  · exact handle_refused hasks hmine (ownReleaseService_out_of_range _ hlen h63)

end Sys2Proof.Machine
end

section
/-! SUPPORT. Services listed in an order of their keys (R89, R92, R98): a sorted list holds the services it is made of, each once,
the earlier before the later. -/

namespace Sys2Proof.Machine

/-! ## Sorted lists -/

theorem insertBy_eq_orderedInsert {α : Type} (le : α → α → Bool) (x : α) (l : List α) :
    insertBy le x l = l.orderedInsert (fun a b => le a b = true) x := by
  induction l with
  | nil => rfl
  | cons y l ih => rw [insertBy, List.orderedInsert_cons, ih]
theorem sortBy_eq_insertionSort {α : Type} (le : α → α → Bool) (l : List α) :
    sortBy le l = l.insertionSort fun a b => le a b = true := by
  induction l with
  | nil => rfl
  | cons y l ih => exact (insertBy_eq_orderedInsert le y _).trans (congrArg _ ih)
theorem sortBy_perm {α : Type} (le : α → α → Bool) (l : List α) : (sortBy le l).Perm l :=
  sortBy_eq_insertionSort le l ▸ List.perm_insertionSort _ l

theorem numberedLe_iff (x y : Nat × Nat × Nat) : numberedLe x y = true ↔
    x.1 < y.1 ∨ (x.1 = y.1 ∧ (x.2.1 < y.2.1 ∨ (x.2.1 = y.2.1 ∧ x.2.2 ≤ y.2.2))) := by
  simp [numberedLe]
theorem numberedLe_total (x y : Nat × Nat × Nat) : numberedLe x y = true ∨ numberedLe y x = true := by
  rw [numberedLe_iff, numberedLe_iff]; omega
theorem numberedLe_trans {x y z : Nat × Nat × Nat} (h : numberedLe x y = true) (k : numberedLe y z = true) :
    numberedLe x z = true := by
  rw [numberedLe_iff] at *; omega
/-- A list sorted by a level, a number and an id stands in their order. -/
theorem sortBy_ascending {α : Type} (key : α → Nat × Nat × Nat) (l : List α) :
    (sortBy (fun x y => numberedLe (key x) (key y)) l).Pairwise fun x y => numberedLe (key x) (key y) = true := by
  have : Std.Total fun x y => numberedLe (key x) (key y) = true := ⟨fun _ _ => numberedLe_total _ _⟩
  have : IsTrans α fun x y => numberedLe (key x) (key y) = true := ⟨fun _ _ _ => numberedLe_trans⟩
  exact sortBy_eq_insertionSort _ l ▸ List.pairwise_insertionSort _ l
theorem sortBy_descending {α : Type} (key : α → Nat × Nat × Nat) (l : List α) :
    (sortBy (fun x y => numberedLe (key y) (key x)) l).Pairwise fun x y => numberedLe (key y) (key x) = true := by
  have : Std.Total fun x y => numberedLe (key y) (key x) = true := ⟨fun _ _ => numberedLe_total _ _⟩
  have : IsTrans α fun x y => numberedLe (key y) (key x) = true := ⟨fun _ _ _ h k => numberedLe_trans k h⟩
  exact sortBy_eq_insertionSort _ l ▸ List.pairwise_insertionSort _ l

/-! ## The records of the table -/

/-- The table lists its services in id order, each id once (R64). -/
abbrev Node.ByIds (n : Node) : Prop := n.au.services.Pairwise (·.id < ·.id)

theorem TablesInOrder.byIds {n : Node} (w : TablesInOrder n) : n.ByIds := w.services
theorem Node.ByIds.eq_of_id {n : Node} (h : n.ByIds) {v w : Service} (hv : v ∈ n.au.services) (hw : w ∈ n.au.services)
    (hid : v.id = w.id) : v = w :=
  List.inj_on_of_nodup_map (List.pairwise_map.2 (h.imp Nat.ne_of_lt)) hv hw hid
theorem Node.mem_of_svc {n : Node} {id : Nat} {v : Service} (h : n.svc id = some v) : v ∈ n.au.services :=
  List.mem_of_find?_eq_some h
theorem Node.ByIds.svc_of_mem {n : Node} (h : n.ByIds) {v : Service} (hv : v ∈ n.au.services) : n.svc v.id = some v := by
  cases hw : n.svc v.id with
  | none => exact absurd (List.find?_eq_none.1 hw v hv) (by simp)
  | some w => rw [h.eq_of_id (Node.mem_of_svc hw) hv (Node.svc_id hw)]

/-! ## Listed services -/

theorem Node.ByIds.nodup {n : Node} (h : n.ByIds) : n.au.services.Nodup := h.imp fun hlt he => by rw [he] at hlt; omega
/-- The services of a kind, each once and in some order, give the ids in that order. -/
theorem Node.ByIds.listed {n : Node} (h : n.ByIds) {l : List Service} {which : Service → Prop}
    {before : Service → Service → Prop} (hmem : ∀ v, v ∈ l ↔ v ∈ n.au.services ∧ which v) (hnodup : l.Nodup)
    (hpair : l.Pairwise fun v w => v.id ≠ w.id → before v w) : Listed n which before (l.map (·.id)) := by
  have hmap : (l.map (·.id)).Nodup := hnodup.map_on fun v hv w hw => h.eq_of_id ((hmem v).1 hv).1 ((hmem w).1 hw).1
  refine ⟨hmap, fun id => ⟨fun hid => ?_, fun ⟨v, hv, hwhich⟩ => ?_⟩, ?_⟩
  · obtain ⟨v, hv, rfl⟩ := List.mem_map.1 hid
    exact ⟨v, h.svc_of_mem ((hmem v).1 hv).1, ((hmem v).1 hv).2⟩
  · exact List.mem_map.2 ⟨v, (hmem v).2 ⟨Node.mem_of_svc hv, hwhich⟩, Node.svc_id hv⟩
  · refine List.pairwise_map.2 ((hpair.and (List.pairwise_map.1 hmap)).imp_of_mem fun {v w} hv hw hvw x y hx hy => ?_)
    rw [h.svc_of_mem ((hmem v).1 hv).1] at hx
    rw [h.svc_of_mem ((hmem w).1 hw).1] at hy
    cases hx
    cases hy
    exact hvw.1 hvw.2
/-- The services that pass a test, sorted. -/
theorem Node.ByIds.listed_sortBy {n : Node} (h : n.ByIds) (p : Service → Bool) (le : Service → Service → Bool)
    {before : Service → Service → Prop}
    (hpair : (sortBy le (n.au.services.filter p)).Pairwise fun v w => v.id ≠ w.id → before v w) :
    Listed n (fun v => p v = true) before ((sortBy le (n.au.services.filter p)).map (·.id)) :=
  h.listed (fun v => by rw [(sortBy_perm _ _).mem_iff, List.mem_filter])
    ((sortBy_perm _ _).nodup_iff.2 (h.nodup.filter p)) hpair

/-- What holds of the same services under other words. -/
theorem Listed.congr {n : Node} {which which' : Service → Prop} {before : Service → Service → Prop} {ids : List Nat}
    (h : Listed n which before ids) (hw : ∀ v, which v ↔ which' v) : Listed n which' before ids :=
  ⟨h.1, fun id => (h.2.1 id).trans (exists_congr fun v => and_congr_right fun _ => hw v), h.2.2⟩

theorem earlierAdmitted_of_numberedLe {v w : Service} (h : numberedLe v.admKey w.admKey = true) : EarlierAdmitted v w := by
  rw [numberedLe_iff] at h
  unfold EarlierAdmitted
  simp only [Service.admKey] at h
  omega
theorem earlierShed_of_numberedLe {v w : Service} (h : numberedLe v.shedKey w.shedKey = true) (hne : v.id ≠ w.id) :
    EarlierShed v w := by
  rw [numberedLe_iff] at h
  unfold EarlierShed
  simp only [Service.shedKey] at h
  omega

/-- The services of a kind in order of level and admission order number (R98, R100). -/
theorem Node.ByIds.listed_byAdmission {n : Node} (h : n.ByIds) (p : Service → Bool) :
    Listed n (fun v => p v = true) EarlierAdmitted ((byAdmission (n.au.services.filter p)).map (·.id)) :=
  h.listed_sortBy p _ ((sortBy_ascending Service.admKey _).imp fun {v w} hle (_ : v.id ≠ w.id) =>
    earlierAdmitted_of_numberedLe hle)
/-- Those of them that pass a further test, in the same order. -/
theorem Node.ByIds.listed_filter_byAdmission {n : Node} (h : n.ByIds) (p q : Service → Bool) :
    Listed n (fun v => p v = true ∧ q v = true) EarlierAdmitted
      (((byAdmission (n.au.services.filter p)).filter q).map (·.id)) := by
  have hperm : (byAdmission (n.au.services.filter p)).Perm (n.au.services.filter p) := sortBy_perm _ _
  refine h.listed (fun v => ?_) ((hperm.nodup_iff.2 (h.nodup.filter p)).filter q) (List.Pairwise.filter q ?_)
  · rw [List.mem_filter, hperm.mem_iff, List.mem_filter, and_assoc]
  · exact (sortBy_ascending Service.admKey _).imp fun {v w} hle (_ : v.id ≠ w.id) => earlierAdmitted_of_numberedLe hle
/-- The shed list (R89). -/
theorem Node.ByIds.listed_shed {n : Node} (h : n.ByIds) : Listed n (fun v => v.state = .shed) EarlierShed n.shedIds :=
  (h.listed_sortBy (·.state == .shed) _ ((sortBy_ascending Service.shedKey _).imp fun hle hne =>
    earlierShed_of_numberedLe hle hne)).congr fun _ => beq_iff_eq

end Sys2Proof.Machine
end

section
/-! SUPPORT. Records entered in the service table one at a time, and services shed (R64, R88): the records, the halves and the counter
that a shed leaves, and what shedding several services leaves. -/

namespace Sys2Proof.Machine

/-! ## One record entered -/

/-- Node `m` holds the services of node `n`, with a record entered or replaced; class map, economy flag and paths stay. -/
structure Node.Puts (n : Node) (v : Service) (m : Node) : Prop where
  services : m.au.services = (n.putSvc v).au.services
  map : m.au.map = n.au.map
  economy : m.au.economy = n.au.economy
  path : m.path = n.path

namespace Node.Puts

variable {n m k : Node} {v w : Service}

theorem svc (h : n.Puts v m) : m.svc v.id = some v := (Node.svc_congr h.services _).trans (n.svc_putSvc v)
theorem svc_ne (h : n.Puts v m) {id : Nat} (hne : id ≠ v.id) : m.svc id = n.svc id :=
  (Node.svc_congr h.services _).trans (n.svc_putSvc_ne hne)
theorem byIds (h : n.Puts v m) (hn : n.ByIds) : m.ByIds := by
  rw [Node.ByIds, h.services]
  exact n.putSvc_ascending v hn
/-- The last of two records entered for one id counts. -/
theorem again (h : n.Puts v m) (hk : m.Puts w k) (hid : w.id = v.id) : n.Puts w k := by
  refine ⟨hk.services.trans ?_, hk.map.trans h.map, hk.economy.trans h.economy, hk.path.trans h.path⟩
  rw [Node.putSvc_au, h.services, Node.putSvc_au, Node.putSvc_au]
  dsimp only
  rw [filter_insertBy_of_not _ (by simp [hid]), List.filter_filter, hid]
  simp only [Bool.and_self]
theorem of_au (h : n.Puts v m) (hk : k.au = m.au) (hp : k.path = m.path) : n.Puts v k :=
  ⟨hk ▸ h.services, hk ▸ h.map, hk ▸ h.economy, hp.trans h.path⟩
theorem offers (h : n.Puts v m) (o : m.Offers k) : n.Puts v k := h.of_au o.au o.path

end Node.Puts

theorem Node.freeHalves_puts (n : Node) (v : Service) : n.Puts { v with cells := [] } (n.freeHalves v) := ⟨rfl, rfl, rfl, rfl⟩
theorem Node.takeCells_puts (n : Node) (v : Service) (cells : List Nat) : n.Puts { v with cells := cells } (n.takeCells v cells) :=
  ⟨rfl, rfl, rfl, rfl⟩

/-! ## A service shed (R88) -/

/-- The record of a service that has been shed. -/
def Service.shedAs (v : Service) (why : ShedReason) (k : Nat) : Service :=
  { v with state := .shed, reason := some why, current := none, shedNo := some k, cells := [] }

section shed
variable (n : Node) (v : Service) (why : ShedReason)

/-- The shed order number that the next service shed takes. -/
def Node.nextShed (n : Node) : Nat := min 4294967295 (n.au.shedCounter + 1)
/-- The node that a shed leaves but for its report and the transfer suspended. -/
def Node.shedSilently (n : Node) (v : Service) (why : ShedReason) : Node :=
  ((n.freeHalves v).countShed.putSvc (v.shedAs why n.nextShed)).handHalves v.id v.cls {}
theorem Node.shed_offers : (n.shedSilently v why).Offers (n.shed v why) :=
  (Node.report_offers _ _).trans (Node.transferShed_offers _ _)
theorem Node.shed_puts : n.Puts (v.shedAs why n.nextShed) (n.shed v why) := by
  have hput : (n.freeHalves v).Puts (v.shedAs why n.nextShed) (n.shedSilently v why) := ⟨rfl, rfl, rfl, rfl⟩
  exact ((n.freeHalves_puts v).again hput rfl).offers (n.shed_offers v why)
theorem Node.shed_allot : (n.shed v why).au.allot = setOwner n.au.allot v.id {} := by rw [(n.shed_offers v why).au]; rfl
theorem Node.shed_shedCounter : (n.shed v why).au.shedCounter = n.nextShed := by rw [(n.shed_offers v why).au]; rfl
/-- A service shed hands over an empty half set. -/
theorem Node.shed_staged : ∃ r ∈ (n.shed v why).cs.staging, r.id = v.id ∧ r.set = { a := [], b := [] } := by
  rw [(n.shed_offers v why).cs]
  exact ⟨_, List.mem_append_right _ (List.mem_singleton.2 rfl), rfl, rfl⟩

end shed

theorem Node.shedId_of_svc {n : Node} {id : Nat} {v : Service} (h : n.svc id = some v) (why : ShedReason) :
    n.shedId id why = n.shed v why := by rw [Node.shedId, h]
theorem Node.shedId_of_none {n : Node} {id : Nat} (h : n.svc id = none) (why : ShedReason) : n.shedId id why = n := by
  rw [Node.shedId, h]

/-! ## Several services shed -/

/-- The services of these ids are shed, in this order. -/
def Node.shedAll (n : Node) (ids : List Nat) (why : ShedReason) : Node := ids.foldl (fun m id => m.shedId id why) n

theorem Node.shedId_svc_ne (n : Node) (why : ShedReason) {id j : Nat} (h : j ≠ id) : (n.shedId id why).svc j = n.svc j := by
  cases hv : n.svc id with
  | none => rw [Node.shedId_of_none hv]
  | some v => rw [Node.shedId_of_svc hv]; exact (n.shed_puts v why).svc_ne (by rw [← Node.svc_id hv] at h; exact h)
/-- Shedding removes no record. -/
theorem Node.shedId_isSome (n : Node) (id : Nat) (why : ShedReason) (j : Nat) :
    ((n.shedId id why).svc j).isSome = (n.svc j).isSome := by
  by_cases h : j = id
  · subst h
    cases hv : n.svc j with
    | none => rw [Node.shedId_of_none hv, hv]
    | some v =>
      have hput : (n.shed v why).svc v.id = _ := (n.shed_puts v why).svc
      rw [Node.shedId_of_svc hv, ← Node.svc_id hv, hput]; rfl
  · rw [n.shedId_svc_ne why h]
theorem Node.shedAll_traffic (n : Node) (ids : List Nat) (why : ShedReason) : n.Traffic (n.shedAll ids why) :=
  .foldl _ (fun m id => m.shedId_traffic id why) _ _
theorem Node.shedAll_svc_of_not_mem {ids : List Nat} {j : Nat} (h : j ∉ ids) (n : Node) (why : ShedReason) :
    (n.shedAll ids why).svc j = n.svc j := by
  induction ids generalizing n with
  | nil => rfl
  | cons id ids ih =>
    obtain ⟨hne, hrest⟩ := not_or.1 (mt List.mem_cons.2 h)
    exact (ih hrest _).trans (n.shedId_svc_ne why hne)
theorem Node.shedAll_svc_of_mem {ids : List Nat} (hids : ids.Nodup) {id : Nat} (h : id ∈ ids) {n : Node} {v : Service}
    (hv : n.svc id = some v) (why : ShedReason) : ∃ k, (n.shedAll ids why).svc id = some (v.shedAs why k) := by
  induction ids generalizing n with
  | nil => cases h
  | cons j ids ih =>
    obtain ⟨hj, hids⟩ := List.nodup_cons.1 hids
    by_cases hid : id = j
    · subst hid
      refine ⟨n.nextShed, (Node.shedAll_svc_of_not_mem hj _ why).trans ?_⟩
      have hput : (n.shed v why).svc v.id = _ := (n.shed_puts v why).svc
      rw [← Node.shedId_of_svc hv, Node.svc_id hv] at hput
      exact hput
    · refine ih hids ((List.mem_cons.1 h).resolve_left hid) (n := n.shedId j why) ?_
      rw [n.shedId_svc_ne why hid]; exact hv
theorem Node.shedId_settings (n : Node) (id : Nat) (why : ShedReason) :
    (n.shedId id why).au.map = n.au.map ∧ (n.shedId id why).au.economy = n.au.economy := by
  cases hv : n.svc id with
  | none => rw [Node.shedId_of_none hv]; exact ⟨rfl, rfl⟩
  | some v => rw [Node.shedId_of_svc hv]; exact ⟨(n.shed_puts v why).map, (n.shed_puts v why).economy⟩
theorem Node.shedAll_settings (n : Node) (ids : List Nat) (why : ShedReason) :
    (n.shedAll ids why).au.map = n.au.map ∧ (n.shedAll ids why).au.economy = n.au.economy := by
  induction ids generalizing n with
  | nil => exact ⟨rfl, rfl⟩
  | cons id ids ih =>
    obtain ⟨hmap, heco⟩ := n.shedId_settings id why
    exact ⟨(ih _).1.trans hmap, (ih _).2.trans heco⟩

/-! ## The halves that shed services leave -/

/-- A half of an entry whose owner is among these ids becomes unowned. -/
def HalfEntry.without (e : HalfEntry) (ids : List Nat) : HalfEntry :=
  { e with a := e.a.filter fun id => decide (id ∉ ids), b := e.b.filter fun id => decide (id ∉ ids) }

theorem ownHalf_empty (id : Nat) (o : Option Nat) : ownHalf id false o = o.filter fun j => decide (j ∉ [id]) := by
  rw [ownHalf_eq, if_neg Bool.false_ne_true]
  cases o with
  | none => rfl
  | some j => by_cases h : j = id <;> simp [h, Option.filter_some]
theorem setOwner_empty (m : List HalfEntry) (id : Nat) : setOwner m id {} = m.map (·.without [id]) :=
  List.map_congr_left fun e _ => by simp only [HalfEntry.without, ← ownHalf_empty]; rfl
theorem HalfEntry.without_without (e : HalfEntry) (ids : List Nat) (id : Nat) :
    (e.without [id]).without ids = e.without (id :: ids) := by
  simp only [HalfEntry.without, Option.filter_filter, List.mem_cons, List.not_mem_nil, or_false, not_or, Bool.decide_and]
theorem HalfEntry.without_nil (e : HalfEntry) : e.without [] = e := by
  obtain ⟨cell, a, b⟩ := e
  cases a <;> cases b <;> rfl
theorem Node.shedAll_allot {ids : List Nat} {n : Node} (h : ∀ id ∈ ids, (n.svc id).isSome = true) (why : ShedReason) :
    (n.shedAll ids why).au.allot = n.au.allot.map (·.without ids) := by
  induction ids generalizing n with
  | nil => simp only [HalfEntry.without_nil, List.map_id']; rfl
  | cons id ids ih =>
    obtain ⟨v, hv⟩ := Option.isSome_iff_exists.1 (h id List.mem_cons_self)
    have hone : (n.shedId id why).au.allot = n.au.allot.map (·.without [id]) := by
      rw [Node.shedId_of_svc hv, n.shed_allot, setOwner_empty, Node.svc_id hv]
    have hrest : ∀ j ∈ ids, ((n.shedId id why).svc j).isSome = true := fun j hj => by
      rw [n.shedId_isSome]; exact h j (List.mem_cons_of_mem _ hj)
    refine (ih hrest).trans ?_
    simp only [hone, List.map_map, Function.comp_def, HalfEntry.without_without]

end Sys2Proof.Machine
end

section
/-! SUPPORT. The victims of a pre-emption (R91 to R94): the eligible services in victim order, as few of them added as make enough
cells available, the last added dropped first where the others leave enough. -/

namespace Sys2Proof.Machine

/-! ## The eligible services (R91, R92) -/

/-- A placed service may be shed by one of a level. -/
def Service.Eligible (w : Service) (map : ClassMap) (lv : Nat) : Prop :=
  w.state ≠ .shed ∧ lv < w.level ∧ map.preemptible w.level = true
/-- Victim order: the highest level number first, then the most recently admitted, then the highest id (R92). -/
def EarlierVictim (w u : Service) : Prop :=
  u.level < w.level ∨
    (u.level = w.level ∧ (u.adm.getD 0 < w.adm.getD 0 ∨ (u.adm.getD 0 = w.adm.getD 0 ∧ u.id < w.id)))
/-- The ids of the eligible services, in victim order. -/
def Node.eligible (n : Node) (lv : Nat) : List Nat := (n.victims lv).map (·.id)

theorem earlierVictim_of_numberedLe {w u : Service} (h : numberedLe u.admKey w.admKey = true) (hne : w.id ≠ u.id) :
    EarlierVictim w u := by
  rw [numberedLe_iff] at h
  unfold EarlierVictim
  simp only [Service.admKey] at h
  omega
theorem Node.ByIds.listed_eligible {n : Node} (h : n.ByIds) (lv : Nat) :
    Listed n (fun w => w.Eligible n.au.map lv) EarlierVictim (n.eligible lv) := by
  unfold Node.eligible Node.victims Node.placed
  rw [List.filter_filter]
  refine (h.listed_sortBy _ _ ((sortBy_descending Service.admKey _).imp fun {w u} hle hne =>
    earlierVictim_of_numberedLe hle hne)).congr fun w => ?_
  simp only [Bool.and_eq_true, decide_eq_true_eq, bne_iff_ne, Service.Eligible]
  tauto

/-! ## The cells available -/

section available
variable (n : Node) (need : Need) (g : Nat)

theorem opens_mono {p q : Nat → Bool} (h : ∀ id, p id = true → q id = true) {o : Option Nat} (ho : opens p o = true) :
    opens q o = true := by
  cases o with
  | none => rfl
  | some id => exact h id ho
theorem HalfEntry.fits_mono {p q : Nat → Bool} (h : ∀ id, p id = true → q id = true) {need : Need} {e : HalfEntry}
    (he : e.fits need p = true) : e.fits need q = true := by
  simp only [HalfEntry.fits, Bool.and_eq_true, Bool.or_eq_true] at *
  exact ⟨he.1.imp_right (opens_mono h), he.2.imp_right (opens_mono h)⟩
/-- With more services shed no fewer cells are available. -/
theorem Node.available_mono {ids more : List Nat} (h : ids ⊆ more) : n.available need ids ≤ n.available need more := by
  unfold Node.available Node.cellsFor
  rw [List.length_map, List.length_map]
  refine (List.monotone_filter_right _ fun e he => HalfEntry.fits_mono (fun id hid => ?_) he).length_le
  exact List.contains_iff_mem.2 (h (List.contains_iff_mem.1 hid))

/-! ## Victims added (R92) -/

/-- Victims are added in order; each was added while too few cells were available, and the last makes them enough. -/
theorem Node.addVictims_spec (order chosen : List Nat) : ∃ added, added <+: order ∧
    n.addVictims need g order chosen = chosen ++ added ∧
    (g ≤ n.available need (chosen ++ order) → g ≤ n.available need (chosen ++ added)) ∧
    ∀ fewer, fewer <+: added → fewer ≠ added → n.available need (chosen ++ fewer) < g := by
  induction order generalizing chosen with
  | nil =>
    exact ⟨[], List.prefix_rfl, (List.append_nil _).symm, id, fun fewer hf hne => absurd (List.prefix_nil.1 hf) hne⟩
  | cons v order ih =>
    unfold Node.addVictims
    split
    · rename_i henough
      exact ⟨[], List.nil_prefix, (List.append_nil _).symm, fun _ => by rw [List.append_nil]; exact henough,
        fun fewer hf hne => absurd (List.prefix_nil.1 hf) hne⟩
    · rename_i hfew
      obtain ⟨added, hpre, heq, henough, hless⟩ := ih (chosen ++ [v])
      simp only [List.append_assoc, List.singleton_append] at heq henough hless
      refine ⟨v :: added, List.cons_prefix_cons.2 ⟨rfl, hpre⟩, heq, henough, fun fewer hf hne => ?_⟩
      cases fewer with
      | nil => rw [List.append_nil]; exact Nat.not_le.1 hfew
      | cons u fewer =>
        obtain ⟨rfl, hpre⟩ := List.cons_prefix_cons.1 hf
        exact hless fewer hpre fun he => hne (by rw [he])

/-! ## Victims dropped (R93) -/

/-- Of the victims `added`, examined from the last, those that `kept` lists stay: each just because, without it, those before it and
those kept after it leave too few cells. -/
structure Node.Pruned (added after kept : List Nat) : Prop where
  sub : kept.Sublist added
  enough : g ≤ n.available need (added ++ after) → g ≤ n.available need (kept ++ after)
  needed : ∀ before id rest, added = before ++ id :: rest →
    (id ∈ kept ↔ n.available need (before ++ rest.filter (decide <| · ∈ kept) ++ after) < g)

variable {n need g}

theorem Node.pruneVictims_concat (added : List Nat) (id : Nat) (after : List Nat) (hid : id ∉ added ++ after) :
    n.pruneVictims need g (added ++ [id]).reverse (added ++ [id] ++ after) =
      n.pruneVictims need g added.reverse
        (if g ≤ n.available need (added ++ after) then added ++ after else added ++ [id] ++ after) := by
  obtain ⟨hbefore, hbehind⟩ := not_or.1 (mt List.mem_append.2 hid)
  have hkeep {l : List Nat} (hl : id ∉ l) : l.filter (· != id) = l :=
    List.filter_eq_self.2 fun j hj => bne_iff_ne.2 (ne_of_mem_of_not_mem hj hl)
  have hwithout : (added ++ [id] ++ after).filter (· != id) = added ++ after := by
    rw [List.filter_append, List.filter_append, hkeep hbefore, hkeep hbehind, List.filter_singleton]
    simp
  rw [List.reverse_append, List.reverse_singleton, List.singleton_append, Node.pruneVictims, hwithout]
/-- One more victim is examined first; `last` is that victim if it stays. -/
theorem Node.Pruned.concat {added after kept last : List Nat} {id : Nat} (hid : id ∉ added) (hlast : last.Sublist [id])
    (h : n.Pruned need g added (last ++ after) kept) (hstays : id ∈ last ↔ n.available need (added ++ after) < g) :
    n.Pruned need g (added ++ [id]) after (kept ++ last) := by
  have hcases : last = [] ∨ last = [id] := List.sublist_singleton.1 hlast
  have hother {j : Nat} (hj : j ≠ id) : j ∈ kept ++ last ↔ j ∈ kept := by
    rcases hcases with rfl | rfl <;> simp [hj]
  have hmem : id ∈ kept ++ last ↔ id ∈ last :=
    List.mem_append.trans (or_iff_right fun hk => hid (h.sub.subset hk))
  refine ⟨h.sub.append hlast, fun henough => ?_, fun before j rest heq => ?_⟩
  · rw [List.append_assoc]
    refine h.enough ?_
    rcases hcases with rfl | rfl
    · exact Nat.not_lt.1 fun hlt => List.not_mem_nil (hstays.2 hlt)
    · rw [← List.append_assoc]; exact henough
  · rcases List.eq_nil_or_concat rest with rfl | ⟨rest, k, rfl⟩
    · obtain ⟨rfl, hj⟩ := List.append_inj' heq rfl
      obtain rfl : id = j := by simpa using hj
      rw [hmem, List.filter_nil, List.append_nil, hstays]
    · rw [List.concat_eq_append, ← List.cons_append, ← List.append_assoc] at heq
      obtain ⟨hadded, hk⟩ := List.append_inj' heq rfl
      obtain rfl : id = k := by simpa using hk
      have hne {i : Nat} (hi : i ∈ j :: rest) : i ≠ id := fun he => hid (by rw [hadded, ← he]; exact List.mem_append_right _ hi)
      have hrest : rest.filter (decide <| · ∈ kept ++ last) = rest.filter (decide <| · ∈ kept) :=
        List.filter_congr fun i hi => decide_eq_decide.2 (hother (hne (List.mem_cons_of_mem _ hi)))
      have hone : [id].filter (decide <| · ∈ kept ++ last) = last := by
        rw [List.filter_singleton]
        simp only [hmem]
        rcases hcases with rfl | rfl <;> simp
      rw [List.concat_eq_append, List.filter_append, hrest, hone, hother (hne List.mem_cons_self), h.needed before j rest hadded]
      simp only [List.append_assoc]
theorem Node.pruneVictims_spec (added after : List Nat) (h : (added ++ after).Nodup) : ∃ kept,
    n.pruneVictims need g added.reverse (added ++ after) = kept ++ after ∧ n.Pruned need g added after kept := by
  induction added using List.reverseRecOn generalizing after with
  | nil => exact ⟨[], rfl, List.Sublist.refl _, id, fun before id rest he => by simp at he⟩
  | append_singleton added id ih =>
    have hsplit : (added ++ ([id] ++ after)).Nodup := by rw [← List.append_assoc]; exact h
    obtain ⟨hnotin, hnodup⟩ := List.nodup_cons.1 (List.nodup_middle.1 hsplit)
    have hid : id ∉ added := fun hm => hnotin (List.mem_append_left _ hm)
    rw [n.pruneVictims_concat added id after hnotin]
    by_cases henough : g ≤ n.available need (added ++ after)
    · obtain ⟨kept, heq, hp⟩ := ih after hnodup
      refine ⟨kept ++ [], by rw [if_pos henough, heq, List.append_nil], ?_⟩
      exact .concat hid (List.nil_sublist _) hp (iff_of_false List.not_mem_nil (Nat.not_lt.2 henough))
    · obtain ⟨kept, heq, hp⟩ := ih ([id] ++ after) hsplit
      refine ⟨kept ++ [id], by rw [if_neg henough, List.append_assoc, heq, List.append_assoc], ?_⟩
      exact .concat hid (List.Sublist.refl _) hp (iff_of_true (List.mem_singleton.2 rfl) (Nat.not_le.1 henough))

end available

end Sys2Proof.Machine
end

section
/-! SUPPORT. An attempt with pre-emption that succeeds (R88, R91 to R94): the services it sheds, the others left as they were, and
the cells that their halves leave. -/

namespace Sys2Proof.Machine

/-! ## What a successful attempt did -/

/-- The victims `added` were the first of the eligible services, those that `kept` lists were shed, and the cells were taken of
those then usable. -/
structure Node.Preempted (n : Node) (v : Service) (x : Side) (g : Nat) (added kept : List Nat) (m : Node) (cells : List Nat) :
    Prop where
  first : added <+: n.eligible v.level
  enough : g ≤ n.available (v.prot.need x) added
  fewest : ∀ fewer, fewer <+: added → fewer ≠ added → n.available (v.prot.need x) fewer < g
  pruned : n.Pruned (v.prot.need x) g added [] kept
  node : m = n.shedAll kept .preEmpted
  cells : cells = v.order.take g (m.cellsFor (v.prot.need x) (· == v.id))

theorem Node.preempted {n m : Node} {v : Service} {x : Side} {g : Nat} {cells : List Nat} (w : n.ByIds)
    (h : n.preemptCells v x g = some (m, cells)) : ∃ added kept, n.Preempted v x g added kept m cells := by
  unfold Node.preemptCells at h
  dsimp only at h
  split at h
  · rename_i hfeasible
    obtain ⟨added, hfirst, hadded, henough, hfewest⟩ :=
      n.addVictims_spec (v.prot.need x) g ((n.victims v.level).map (·.id)) []
    have hnodup : (added ++ []).Nodup := by
      rw [List.append_nil]; exact (w.listed_eligible v.level).1.sublist hfirst.sublist
    obtain ⟨kept, hkept, hpruned⟩ := n.pruneVictims_spec (need := v.prot.need x) (g := g) added [] hnodup
    rw [List.nil_append] at hadded
    rw [List.append_nil, List.append_nil] at hkept
    rw [hadded, hkept] at h
    obtain ⟨rfl, hcells⟩ := Prod.mk.inj (Option.some.inj h)
    exact ⟨added, kept, hfirst, henough hfeasible.1, hfewest, hpruned, rfl, hcells.symm⟩
  · cases h

namespace Node.Preempted

variable {n m : Node} {v : Service} {x : Side} {g : Nat} {added kept cells : List Nat}
variable (h : n.Preempted v x g added kept m cells)
include h

theorem kept_nodup (w : n.ByIds) : kept.Nodup :=
  (w.listed_eligible v.level).1.sublist (h.pruned.sub.trans h.first.sublist)
/-- Each service shed was eligible. -/
theorem eligible_of_kept (w : n.ByIds) {id : Nat} (hid : id ∈ kept) :
    ∃ u, n.svc id = some u ∧ u.Eligible n.au.map v.level :=
  ((w.listed_eligible v.level).2.1 id).1 (h.first.subset (h.pruned.sub.subset hid))
theorem svc_of_not_kept {id : Nat} (hid : id ∉ kept) : m.svc id = n.svc id := by
  rw [h.node, n.shedAll_svc_of_not_mem hid]
theorem svc_of_kept (w : n.ByIds) {id : Nat} (hid : id ∈ kept) {u : Service} (hu : n.svc id = some u) :
    ∃ k, m.svc id = some (u.shedAs .preEmpted k) := h.node ▸ Node.shedAll_svc_of_mem (h.kept_nodup w) hid hu _
/-- The victims are the services whose record has changed. -/
theorem changed_iff (w : n.ByIds) (id : Nat) : m.svc id ≠ n.svc id ↔ id ∈ kept := by
  refine ⟨fun hne => by_contra fun hid => hne (h.svc_of_not_kept hid), fun hid he => ?_⟩
  obtain ⟨u, hu, hstate, -⟩ := h.eligible_of_kept w hid
  obtain ⟨k, hk⟩ := h.svc_of_kept w hid hu
  rw [hu, hk] at he
  exact hstate (congrArg Service.state (Option.some.inj he)).symm
/-- The services that stay leave enough cells. -/
theorem kept_enough : g ≤ n.available (v.prot.need x) kept := by
  have := h.pruned.enough (by rw [List.append_nil]; exact h.enough)
  rwa [List.append_nil] at this
/-- What was available with the victims shed is usable once they are. -/
theorem usable_enough (w : n.ByIds) : g ≤ (m.cellsFor (v.prot.need x) (· == v.id)).length := by
  refine h.kept_enough.trans ?_
  have hsome : ∀ id ∈ kept, (n.svc id).isSome = true := fun id hid =>
    Option.isSome_iff_exists.2 ((h.eligible_of_kept w hid).imp fun _ hu => hu.1)
  have hopen (o : Option Nat) (ho : opens (kept.contains ·) o = true) :
      opens (· == v.id) (o.filter fun id => decide (id ∉ kept)) = true := by
    cases o with
    | none => rfl
    | some id =>
      have hid : id ∈ kept := List.contains_iff_mem.1 ho
      simp [Option.filter_some, hid, opens]
  unfold Node.available Node.cellsFor
  rw [h.node, Node.shedAll_allot hsome, List.length_map, List.length_map, List.filter_map, List.length_map]
  refine (List.monotone_filter_right _ fun e he => ?_).length_le
  simp only [HalfEntry.fits, HalfEntry.without, Function.comp_apply, Bool.and_eq_true, Bool.or_eq_true] at he ⊢
  exact ⟨he.1.imp_right (hopen e.a), he.2.imp_right (hopen e.b)⟩
/-- With any one victim kept as well, fewer cells than the grant are available (R93). -/
theorem each_needed (w : n.ByIds) {id : Nat} (hid : id ∈ kept) :
    n.available (v.prot.need x) (added.filter fun j => decide (j ∈ kept) && decide (j ≠ id)) < g := by
  obtain ⟨before, rest, hadded⟩ := List.append_of_mem (h.pruned.sub.subset hid)
  have hnodup : added.Nodup := (w.listed_eligible v.level).1.sublist h.first.sublist
  refine Nat.lt_of_le_of_lt (n.available_mono _ fun j hj => ?_) ((h.pruned.needed before id rest hadded).1 hid)
  obtain ⟨hj, hkeep⟩ := List.mem_filter.1 hj
  obtain ⟨hkept, hne⟩ := Bool.and_eq_true_iff.1 hkeep
  rw [List.append_nil, List.mem_append, List.mem_filter]
  rw [hadded, List.mem_append, List.mem_cons] at hj
  exact hj.imp_right fun hj => ⟨hj.resolve_left (of_decide_eq_true hne), hkept⟩

end Node.Preempted

/-- Some placed services of levels above `lv` in number have been shed for another; every other record stays (R88, R91). -/
structure Node.Sheds (n : Node) (lv : Nat) (m : Node) : Prop where
  records : ∀ id, m.svc id = n.svc id ∨
    ∃ u k, n.svc id = some u ∧ u.Eligible n.au.map lv ∧ m.svc id = some (u.shedAs .preEmpted k)
  map : m.au.map = n.au.map
  economy : m.au.economy = n.au.economy
  path : m.path = n.path
  byIds : m.ByIds

theorem Node.Sheds.refl {n : Node} (w : n.ByIds) (lv : Nat) : n.Sheds lv n := ⟨fun _ => .inl rfl, rfl, rfl, rfl, w⟩
theorem Node.Preempted.sheds {n m : Node} {v : Service} {x : Side} {g : Nat} {added kept cells : List Nat}
    (h : n.Preempted v x g added kept m cells) (w : n.ByIds) : n.Sheds v.level m := by
  refine ⟨fun id => ?_, ?_, ?_, ?_, ?_⟩
  · by_cases hid : id ∈ kept
    · obtain ⟨u, hu, helig⟩ := h.eligible_of_kept w hid
      exact .inr ⟨u, (h.svc_of_kept w hid hu).imp fun k hk => ⟨hu, helig, hk⟩⟩
    · exact .inl (h.svc_of_not_kept hid)
  · rw [h.node, (n.shedAll_settings _ _).1]
  · rw [h.node, (n.shedAll_settings _ _).2]
  · rw [h.node, (n.shedAll_traffic _ _).path]
  · rw [h.node]; exact (n.shedAll_traffic _ _).services w
/-- Whatever attempt succeeds, it leaves its cells and its state, after shedding what it had to. -/
theorem Node.attempts_sheds {n : Node} {v : Service} {x : Side} {l : List Attempt} {r : Room} (w : n.ByIds)
    (h : n.attempts v x l = some r) : n.Sheds v.level r.node ∧ ∃ t ∈ l, r.state = t.state := by
  obtain ⟨t, ht, hr⟩ := List.exists_of_findSome?_eq_some h
  rcases Node.attempt_cases hr with ⟨cells, -, rfl⟩ | ⟨-, m, cells, hm, rfl⟩
  · exact ⟨.refl w _, t, ht, rfl⟩
  · obtain ⟨added, kept, hp⟩ := Node.preempted w hm
    exact ⟨hp.sheds w, t, ht, rfl⟩

/-! ## The obligation -/

theorem ClassMap.not_preemptible_zero (map : ClassMap) : map.preemptible 0 = false := rfl

/-- The usable cells of a service, as the obligations write them. -/
theorem Node.cellsFor_self (n : Node) (v : Service) (x : Side) : n.cellsFor (v.prot.need x) (· == v.id) =
    (n.au.allot.filter fun e =>
      (decide (v.prot = .reroute ∧ x = .b) || decide (e.a = none ∨ e.a = some v.id)) &&
        (decide (v.prot = .reroute ∧ x = .a) || decide (e.b = none ∨ e.b = some v.id))).map (·.cell) := by
  simp only [Node.cellsFor, HalfEntry.fits_eq, opens_self]
theorem Node.available_eq (n : Node) (p : Protection) (x : Side) (ids : List Nat) : n.available (p.need x) ids =
    (n.au.allot.filter fun e => (decide (p = .reroute ∧ x = .b) || e.a.all fun id => decide (id ∈ ids)) &&
      (decide (p = .reroute ∧ x = .a) || e.b.all fun id => decide (id ∈ ids))).length := by
  simp only [Node.available, Node.cellsFor, List.length_map, HalfEntry.fits_eq, opens, List.contains_eq_mem]

/-- Settles O40: the victims are those that the model adds in victim order and then drops from the last. -/
theorem preEmptionShedsOnlyEligibleServices : Obligations.PreEmptionShedsOnlyEligibleServices := by
  refine ⟨?_, ?_, ClassMap.not_preemptible_zero, ?_⟩
  · intro n m v x g cells w _ h vacant usable
    obtain ⟨added, kept, hp⟩ := Node.preempted w.byIds h
    have husable : usable = m.cellsFor (v.prot.need x) (· == v.id) := (m.cellsFor_self v x).symm
    have hasc : usable.Pairwise (· < ·) :=
      husable ▸ Node.cellsFor_ascending (allot_ascending_of_cells (Node.preemptCells_traffic h).allotCells w.allotment) _ _
    have hcells : cells = v.order.take g usable := husable ▸ hp.cells
    have henough : g ≤ usable.length := husable ▸ hp.usable_enough w.byIds
    refine ⟨?_, hcells ▸ v.order.take_sublist g usable, fun ho => ?_, fun id u hu => ?_⟩
    · rw [hcells, v.order.length_take g hasc, Nat.min_eq_left henough]
    · rw [hcells, ho, Order.take_linear g hasc]
    · refine ((hp.sheds w.byIds).records id).imp (fun hsame => hsame.trans hu) ?_
      rintro ⟨u', k, hu', ⟨hstate, hlevel, hpre⟩, hk⟩
      obtain rfl : u' = u := Option.some.inj (hu'.symm.trans hu)
      exact ⟨hstate, hlevel, hpre, k, hk⟩
  · intro n m v x g cells w _ h opened available victim
    obtain ⟨added, kept, hp⟩ := Node.preempted w.byIds h
    obtain ⟨-, hmem, hpair⟩ := w.byIds.listed_eligible v.level
    have havailable (ids : List Nat) : available ids = n.available (v.prot.need x) ids := (n.available_eq v.prot x ids).symm
    have hvictim : victim = fun id => decide (id ∈ kept) :=
      funext fun id => decide_eq_decide.2 (hp.changed_iff w.byIds id)
    simp only [havailable, hvictim, decide_eq_true_eq]
    refine ⟨n.eligible v.level, added, hmem, hpair.imp fun hij u y hu hy => ?_, hp.first, hp.enough, hp.fewest, fun id hid => ?_,
      fun before id after he => ?_, fun id hid => hp.each_needed w.byIds hid⟩
    · rw [← Node.svc_id hu, ← Node.svc_id hy]
      exact hij u y hu hy
    · exact decide_eq_false fun hk => hid (hp.pruned.sub.subset hk)
    · rw [hp.pruned.needed before id after he, List.append_nil]
  · intro n v why w hv m k
    have hput := n.shed_puts v why
    refine ⟨hput.svc, n.shed_shedCounter v why, fun id hid => hput.svc_ne hid, fun c => ?_, n.shed_staged v why⟩
    rw [n.shed_allot, entryOf_setOwner]
    simp only [ownHalf_eq, List.contains_nil, Bool.false_eq_true, if_false]

end Sys2Proof.Machine
end

section
/-! SUPPORT. Path signals taken by the admission unit (R38) and the services that a restored side brings home (R103). -/

namespace Sys2Proof.Machine

/-! ## A signal taken (R38) -/

/-- The node in which the admission unit has taken a signal. -/
def Node.auTook (n : Node) (g : PathSignal) : Node := { n with sig := { n.sig with au := n.sig.au.erase g } }

section auTakes
variable {n : Node} {g : PathSignal} {f : Node → Node}

theorem Node.auTakes_first (h : n.sig.au.find? (fun k => decide (k.side = g.side)) = some g) :
    n.auTakes g f = f (n.auTook g) := if_pos ((PathSignal.stands_iff g _).2 h)
theorem Node.auTakes_not_first (h : n.sig.au.find? (fun k => decide (k.side = g.side)) ≠ some g) : n.auTakes g f = n :=
  if_neg (mt (PathSignal.stands_iff g _).1 h)

end auTakes

section events
variable {s : State} {x : Side}

theorem exec_pathLostReroute (h : s.awake) : exec (.pathLostReroute x) s =
    .next (s.became (s.node.auTakes (.lost x) fun n => n.reroute x)) := onNode_awake s _ h
theorem exec_pathRestoredRevert (h : s.awake) : exec (.pathRestoredRevert x) s =
    .next (s.became (s.node.auTakes (.restored x) fun n => n.revert x)) := onNode_awake s _ h

end events

/-! ## A service brought home (R99, R103) -/

/-- The report of a service that has just taken its cells shows the record that the table holds. -/
theorem Node.takeCells_event (n : Node) (v : Service) (cells : List Nat) (old : Option SvcState) (c : SvcCause) :
    (n.takeCells v cells).svcEventOf v.id old c = (n.takeCells v cells).svcEvent { v with cells := cells } old c := by
  rw [Node.svcEventOf, n.takeCells_svc v cells]
/-- The node in which a service has moved to these cells of its primary side. -/
def Node.broughtHome (n : Node) (v : Service) (cells : List Nat) : Node :=
  (n.takeCells { v with current := some v.primary } cells).svcEvent
    { v with current := some v.primary, cells := cells } (some v.state) .reverted
theorem Node.moveHome_eq (n : Node) (v : Service) :
    n.moveHome v = (n.plainCells v v.primary v.cells.length).map (n.broughtHome v) :=
  congrArg (fun f => Option.map f _) (funext fun cells => n.takeCells_event { v with current := some v.primary } cells _ _)

section revertOne
variable {n : Node} {id : Nat} {v : Service}

theorem Node.revertOne_none (h : n.svc id = none) : n.revertOne id = n := by rw [Node.revertOne, h]
theorem Node.revertOne_home (h : n.svc id = some v) {cells : List Nat}
    (hc : n.plainCells v v.primary v.cells.length = some cells) : n.revertOne id = n.broughtHome v cells := by
  rw [Node.revertOne, h]; dsimp only; rw [Node.moveHome_eq, hc]; rfl
theorem Node.revertOne_blocked (h : n.svc id = some v) (hc : n.plainCells v v.primary v.cells.length = none) :
    n.revertOne id = n.svcEvent v (some v.state) .revertBlocked := by
  rw [Node.revertOne, h]; dsimp only; rw [Node.moveHome_eq, hc]; rfl

end revertOne

/-- The services away from their primary side that pass a further test, in order (R99, R103). -/
theorem Node.ByIds.listed_away {n : Node} (h : n.ByIds) (q : Service → Bool) : Listed n
    (fun v => (v.prot = .reroute ∧ v.state ≠ .shed ∧ v.current = some v.primary.other) ∧ q v = true) EarlierAdmitted
    ((n.away.filter q).map (·.id)) := by
  unfold Node.away Node.placed
  rw [List.filter_filter]
  refine (h.listed_filter_byAdmission _ q).congr fun v => and_congr_left fun _ => ?_
  simp only [Bool.and_eq_true, beq_iff_eq, bne_iff_ne]
  tauto

/-- Settles O46: each service away is brought home or reported blocked, and then the pass runs. -/
theorem restoredPathBringsServicesHome : Obligations.RestoredPathBringsServicesHome := by
  intro s x hawake w first n back
  have hback (m : Node) (id : Nat) : m.revertOne id = back m id := by
    simp only [back]
    cases hv : m.svc id with
    | none => exact Node.revertOne_none hv
    | some v =>
      cases hc : m.plainCells v v.primary v.cells.length with
      | none => simp only [hc]; exact Node.revertOne_blocked hv hc
      | some cells => simp only [hc]; exact Node.revertOne_home hv hc
  refine ⟨fun hnot => ?_, fun hfirst => ?_⟩
  · rw [exec_pathRestoredRevert hawake, Node.auTakes_not_first (g := .restored x) hnot]
  · have hrevert : Node.revertOne = back := funext₂ hback
    obtain ⟨hnodup, hmem, hpair⟩ := Node.ByIds.listed_away (n := n) w.byIds (·.primary == x)
    refine ⟨(n.away.filter fun v : Service => v.primary == x).map Service.id, ?_, hnodup, fun id => ?_, hpair⟩
    · rw [exec_pathRestoredRevert hawake, Node.auTakes_first (g := .restored x) hfirst, ← hrevert]
      rfl
    · refine (hmem id).trans (exists_congr fun v => and_congr_right fun _ => ?_)
      simp only [beq_iff_eq]
      constructor
      · rintro ⟨⟨hprot, hst, hcur⟩, rfl⟩
        exact ⟨hprot, hst, rfl, hcur⟩
      · rintro ⟨hprot, hst, rfl, hcur⟩
        exact ⟨⟨hprot, hst, hcur⟩, rfl⟩

end Sys2Proof.Machine
end

section
/-! SUPPORT. The moves of a restoration pass (R96 to R99): the queued calls, the entries of the shed list, the growing and the
returning services that the model serves are those that the statements name, and each move enters one record. -/

namespace Sys2Proof.Machine

/-! ## Placements from nothing (R66, R81, R97) -/

/-- The record of a service placed from nothing on a side. -/
def Service.placedAs (v : Service) (x : Side) (st : SvcState) (k : Nat) (cells : List Nat) : Service :=
  { v with
    state := st, reason := none, shedNo := none, current := if v.prot = .dual then none else some x, adm := some k
    cells := cells }

theorem Node.placeNew_event (r : Room) (v : Service) (x : Side) (old : Option SvcState) (c : SvcCause) :
    (Node.placeNew r v x).svcEventOf v.id old c = admitted r.node { v with
      state := r.state, reason := none, shedNo := none, current := if v.prot = .dual then none else some x } r.cells old c := by
  rw [← v.prot.current_eq x]
  exact r.node.countAdmission.takeCells_event { v with
    state := r.state, reason := none, shedNo := none, adm := some r.node.countAdmission.au.admCounter
    current := v.prot.current x } r.cells old c
theorem admitted_puts (n : Node) (v : Service) (cells : List Nat) (old : Option SvcState) (c : SvcCause) :
    n.Puts { v with adm := some (min 4294967295 (n.au.admCounter + 1)), cells := cells } (admitted n v cells old c) :=
  ⟨rfl, rfl, rfl, rfl⟩

/-! ## Calls (R82, R96) -/

theorem Node.callPlacement_openCall (n : Node) (p : Fin 8) :
    (n.callPlacement p).map (·.openCall p) = callServed n p := by
  have hplaced (r : Room) (v : Service) (hr : n.attempts v v.primary v.fullAttempts = some r) (hv : v = callService p v.primary) :
      (n.attempts v v.primary v.fullAttempts).map (fun r =>
        ((Node.placeNew r v v.primary).svcEventOf v.id none .defined).openCall p) =
      some ((admitted r.node { v with state := r.state } r.cells none .defined).openCall p) := by
    rw [hr, Option.map_some, Node.placeNew_event, hv]
    rfl
  unfold Node.callPlacement callServed
  dsimp only
  rw [Option.map_map]
  generalize hx : (n.phone p).set.preferred = x
  cases hplain : n.plainCells (callService p x) (callService p x).primary 1 with
  | some cells =>
    exact hplaced ⟨n, cells, .active⟩ _ (Node.attempts_of_plain (st := .active) (rest := []) hplain) rfl
  | none =>
    cases hpre : n.preemptCells (callService p x) (callService p x).primary 1 with
    | some r =>
      exact hplaced ⟨r.1, r.2, .active⟩ _ (Node.attempts_of_preempt (st := .active) (rest := []) hplain rfl hpre) rfl
    | none =>
      have hfails : n.attempts (callService p x) (callService p x).primary (callService p x).fullAttempts = none :=
        Node.attempts_of_fails (st := .active) (rest := []) hplain fun _ => hpre
      rw [hfails]
      rfl

/-! ## The shed list (R97) -/

/-- A service of the shed list placed on a side, where it finds room without pre-emption. -/
def Node.restoredOn (n : Node) (v : Service) (x : Side) : Option Node :=
  (n.attempts v x ((v.fullAttempts ++ v.floorAttempts).filter fun t => !t.preempt)).map fun r =>
    (((Node.placeNew r v x).svcEventOf v.id (some .shed) .restored).transferPlaced v.id).weatherPlaced v.id
/-- The node in which it has taken these cells, in this state. -/
def Node.restoredWith (n : Node) (v : Service) (x : Side) (st : SvcState) (cells : List Nat) : Node :=
  ((admitted n { v with
    state := st, reason := none, shedNo := none, current := if v.prot = .dual then none else some x }
    cells (some .shed) .restored).transferPlaced v.id).weatherPlaced v.id

section restored
variable {n : Node} {v : Service} {x : Side}

/-- The attempts of a placement that sheds nobody (R97). -/
def Service.quietAttempts (v : Service) : List Attempt := (v.fullAttempts ++ v.floorAttempts).filter fun t => !t.preempt

theorem Node.restoredOn_of_attempts {st : SvcState} {cells : List Nat}
    (h : n.attempts v x v.quietAttempts = some ⟨n, cells, st⟩) : n.restoredOn v x = some (n.restoredWith v x st cells) := by
  unfold Service.quietAttempts at h
  rw [Node.restoredOn, h, Option.map_some, Node.placeNew_event]
  rfl
theorem Node.restoredOn_full {cells : List Nat} (h : n.plainCells v x v.full = some cells) :
    n.restoredOn v x = some (n.restoredWith v x .active cells) :=
  Node.restoredOn_of_attempts (by simp [Service.quietAttempts, Node.attempts, Service.fullAttempts, Node.attempt, h])
theorem Node.restoredOn_floor (h : n.plainCells v x v.full = none) :
    n.restoredOn v x = v.floor.bind fun f => (n.plainCells v x f).map (n.restoredWith v x .reduced) := by
  cases hf : v.floor with
  | none => simp [Node.restoredOn, Node.attempts, Service.fullAttempts, Service.floorAttempts, Node.attempt, h, hf]
  | some f =>
    cases hc : n.plainCells v x f with
    | none => simp [Node.restoredOn, Node.attempts, Service.fullAttempts, Service.floorAttempts, Node.attempt, h, hf, hc]
    | some cells =>
      rw [Option.bind_some, hc, Option.map_some]
      refine Node.restoredOn_of_attempts ?_
      simp [Service.quietAttempts, Node.attempts, Service.fullAttempts, Service.floorAttempts, Node.attempt, h, hf, hc]

end restored

theorem Node.usable_iff (n : Node) (x : Side) :
    n.usable x = ((n.pathOf x).state == .reachable || (n.pathOf x).state == .holdOff) := by
  unfold Node.usable
  cases (n.pathOf x).state <;> rfl
theorem Node.targetSide_eq (n : Node) (v : Service) : n.targetSide v =
    if v.prot = .dual ∨ n.usable v.primary = true then some v.primary
    else if n.usable v.primary.other then some v.primary.other else none := by
  unfold Node.targetSide Node.pickSide
  cases v.prot <;> simp
/-- An entry of the shed list is placed on its target side, unless economy mode passes it over (R97, R105). -/
theorem restoredService_eq {n : Node} {id : Nat} {v : Service} (h : n.svc id = some v) : restoredService n id =
    if n.au.economy = true ∧ 2 ≤ v.level then none else (n.targetSide v).bind (n.restoredOn v) := by
  obtain rfl := Node.svc_id h
  unfold restoredService
  rw [h, Node.targetSide_eq]
  simp only [← Node.usable_iff, apply_ite (Option.bind · (n.restoredOn v)), Option.bind_some, Option.bind_none]
  refine if_congr Iff.rfl rfl (if_congr Iff.rfl ?_ (if_congr Iff.rfl ?_ rfl))
  all_goals
    split
    · rename_i hc; exact (Node.restoredOn_full hc).symm
    · rename_i hc; exact (Node.restoredOn_floor hc).symm
theorem restoredService_none {n : Node} {id : Nat} (h : n.svc id = none) : restoredService n id = none := by
  unfold restoredService
  rw [h]
theorem Pass.restore_eq (q : Pass) (id : Nat) : q.restore id =
    ((restoredService q.node id).map fun m => { q with node := m, placed := q.placed + 1 }).getD q := by
  unfold Pass.restore
  split
  · rename_i hv; rw [restoredService_none hv]; rfl
  · rename_i v hv
    rw [restoredService_eq hv]
    split
    · rename_i heco
      rw [if_pos (by simpa using heco)]; rfl
    · rename_i heco
      rw [if_neg (by simpa using heco)]
      obtain rfl := Node.svc_id hv
      split
      · rename_i hside; rw [hside]; rfl
      · rename_i x hside
        rw [hside, Option.bind_some, Node.restoredOn]
        split
        · rename_i hr; rw [hr]; rfl
        · rename_i r hr; rw [hr]; rfl

/-! ## Growth and return (R98, R99) -/

/-- The node in which a REDUCED service has grown to these cells. -/
def Node.grownTo (n : Node) (v : Service) (cells : List Nat) : Node :=
  (n.takeCells { v with state := .active, cells := cells } cells).svcEvent { v with state := .active, cells := cells }
    (some v.state) .grown

theorem grownService_eq {n : Node} {id : Nat} {v : Service} (h : n.svc id = some v) : grownService n id =
    (n.plainCells v (v.current.getD v.primary) v.full).map (n.grownTo v) := by
  unfold grownService
  rw [h]
  rfl
theorem grownService_none {n : Node} {id : Nat} (h : n.svc id = none) : grownService n id = none := by
  unfold grownService
  rw [h]
theorem Pass.grow_eq (q : Pass) (id : Nat) : q.grow id =
    ((grownService q.node id).map fun m => { q with node := m }).getD q := by
  unfold Pass.grow
  split
  · rename_i hv; rw [grownService_none hv]; rfl
  · rename_i v hv
    rw [grownService_eq hv]
    obtain rfl := Node.svc_id hv
    split
    · rename_i hc; rw [hc]; rfl
    · rename_i cells hc
      rw [hc]
      exact congrArg (fun m => { q with node := m }) (q.node.takeCells_event { v with state := .active } cells _ _)

theorem homeService_eq {n : Node} {id : Nat} {v : Service} (h : n.svc id = some v) : homeService n id = n.moveHome v := by
  unfold homeService
  rw [h, Node.moveHome_eq]
  rfl
theorem homeService_none {n : Node} {id : Nat} (h : n.svc id = none) : homeService n id = none := by
  unfold homeService
  rw [h]
theorem Pass.home_eq (q : Pass) (id : Nat) : q.home id =
    ((homeService q.node id).map fun m => { q with node := m, moved := true }).getD q := by
  have hbind : (q.node.svc id).bind q.node.moveHome = homeService q.node id := by
    cases hv : q.node.svc id with
    | none => exact (homeService_none hv).symm
    | some v => exact (homeService_eq hv).symm
  unfold Pass.home
  rw [hbind]
  cases homeService q.node id <;> rfl

/-! ## The record that each move enters -/

/-- The record of a call's service (R82). -/
def callRecord (p : Fin 8) (x : Side) (k : Nat) (cells : List Nat) : Service :=
  { callService p x with adm := some k, cells := cells }

theorem callServed_puts {n m : Node} {p : Fin 8} (w : n.ByIds) (h : callServed n p = some m) :
    ∃ left x k cells, n.Sheds 0 left ∧ left.Puts (callRecord p x k cells) m := by
  have hputs (left : Node) (x : Side) (cells : List Nat) :
      left.Puts (callRecord p x (min 4294967295 (left.au.admCounter + 1)) cells)
        ((admitted left (callService p x) cells none .defined).openCall p) :=
    (admitted_puts left (callService p x) cells none .defined).of_au rfl rfl
  unfold callServed at h
  dsimp only at h
  split at h
  · rename_i cells _
    cases h
    exact ⟨n, _, _, cells, .refl w 0, hputs n _ cells⟩
  · obtain ⟨r, hr, rfl⟩ := Option.map_eq_some_iff.1 h
    obtain ⟨added, kept, hp⟩ := Node.preempted (m := r.1) (cells := r.2) w hr
    exact ⟨r.1, _, _, r.2, hp.sheds w, hputs r.1 _ r.2⟩
theorem Node.callPlacement_puts {n m : Node} {p : Fin 8} (w : n.ByIds) (h : n.callPlacement p = some m) :
    ∃ left x k cells, n.Sheds 0 left ∧ left.Puts (callRecord p x k cells) m := by
  have hserved : callServed n p = some (m.openCall p) := by rw [← n.callPlacement_openCall, h]; rfl
  obtain ⟨left, x, k, cells, hleft, hput⟩ := callServed_puts w hserved
  exact ⟨left, x, k, cells, hleft, hput.of_au rfl rfl⟩
theorem restoredService_puts {n m : Node} {v : Service} (hv : n.svc v.id = some v) (h : restoredService n v.id = some m) :
    ∃ x st k g cells, ¬ (n.au.economy = true ∧ 2 ≤ v.level) ∧ n.targetSide v = some x ∧ st ≠ .shed ∧
      n.plainCells v x g = some cells ∧ n.Puts (v.placedAs x st k cells) m := by
  have hputs (x : Side) (st : SvcState) (cells : List Nat) :
      n.Puts (v.placedAs x st (min 4294967295 (n.au.admCounter + 1)) cells) (n.restoredWith v x st cells) :=
    ((admitted_puts n { v with
      state := st, reason := none, shedNo := none, current := if v.prot = .dual then none else some x }
      cells (some .shed) .restored).offers (Node.transferPlaced_offers _ _)).offers (Node.weatherPlaced_offers _ _)
  rw [restoredService_eq hv] at h
  split at h
  · cases h
  · rename_i heco
    obtain ⟨x, hside, hon⟩ := Option.bind_eq_some_iff.1 h
    cases hfull : n.plainCells v x v.full with
    | some cells =>
      rw [Node.restoredOn_full hfull] at hon
      cases hon
      exact ⟨x, .active, _, _, cells, heco, hside, nofun, hfull, hputs x .active cells⟩
    | none =>
      rw [Node.restoredOn_floor hfull] at hon
      obtain ⟨f, -, hmap⟩ := Option.bind_eq_some_iff.1 hon
      obtain ⟨cells, hcells, rfl⟩ := Option.map_eq_some_iff.1 hmap
      exact ⟨x, .reduced, _, f, cells, heco, hside, nofun, hcells, hputs x .reduced cells⟩
theorem grownService_puts {n m : Node} {v : Service} (hv : n.svc v.id = some v) (h : grownService n v.id = some m) :
    ∃ cells, n.Puts { v with state := .active, cells := cells } m := by
  rw [grownService_eq hv] at h
  obtain ⟨cells, -, rfl⟩ := Option.map_eq_some_iff.1 h
  exact ⟨cells, rfl, rfl, rfl, rfl⟩
theorem homeService_puts {n m : Node} {v : Service} (hv : n.svc v.id = some v) (h : homeService n v.id = some m) :
    ∃ cells, n.Puts { v with current := some v.primary, cells := cells } m := by
  rw [homeService_eq hv, Node.moveHome_eq] at h
  obtain ⟨cells, -, rfl⟩ := Option.map_eq_some_iff.1 h
  exact ⟨cells, rfl, rfl, rfl, rfl⟩

end Sys2Proof.Machine
end

section
/-! SUPPORT. The restoration pass, round after round (R95 to R99): the model's passes are those of the statements, they end, and what
runs through their moves runs through the pass. -/

namespace Sys2Proof.Machine

/-! ## The model's steps as moves served in turn -/

theorem passCalls_eq (ports : List (Fin 8)) (q : Pass) : passCalls ports q =
    { q with node := (serveCalls ports q.node).1, placed := q.placed + (serveCalls ports q.node).2 } := by
  induction ports generalizing q with
  | nil => rfl
  | cons p ports ih =>
    unfold passCalls serveCalls
    rw [← Node.callPlacement_openCall]
    cases q.node.callPlacement p with
    | none => rfl
    | some m =>
      rw [Option.map_some]
      dsimp only
      rw [ih, Nat.add_assoc, Nat.add_comm 1]
/-- A step that serves ids in turn, and notes in the pass the node it leaves and the number of its successes. -/
theorem foldl_serveEach {act : Node → Nat → Option Node} {f : Pass → Nat → Pass} {note : Pass → Node → Nat → Pass}
    (hf : ∀ q id, f q id = ((act q.node id).map (note q · 1)).getD q) (hnone : ∀ q, note q q.node 0 = q)
    (hnode : ∀ q m k, (note q m k).node = m) (hmore : ∀ q m l k, note (note q m 1) l k = note q l (k + 1)) (ids : List Nat)
    (q : Pass) : ids.foldl f q = note q (serveEach act ids q.node).1 (serveEach act ids q.node).2 := by
  induction ids generalizing q with
  | nil => exact (hnone q).symm
  | cons id ids ih =>
    unfold serveEach
    rw [List.foldl_cons, ih, hf]
    cases act q.node id with
    | none => rfl
    | some m => rw [Option.map_some, Option.getD_some, hnode, hmore]
theorem foldl_restore (ids : List Nat) (q : Pass) : ids.foldl Pass.restore q =
    { q with node := (serveEach restoredService ids q.node).1, placed := q.placed + (serveEach restoredService ids q.node).2 } :=
  foldl_serveEach (note := fun q m k => { q with node := m, placed := q.placed + k }) Pass.restore_eq (fun _ => rfl)
    (fun _ _ _ => rfl) (fun q m l k => by simp only [Nat.add_assoc, Nat.add_comm 1]) ids q
theorem foldl_grow (ids : List Nat) (q : Pass) :
    ids.foldl Pass.grow q = { q with node := (serveEach grownService ids q.node).1 } :=
  foldl_serveEach (note := fun q m _ => { q with node := m }) Pass.grow_eq (fun _ => rfl) (fun _ _ _ => rfl)
    (fun _ _ _ _ => rfl) ids q
theorem foldl_home (ids : List Nat) (q : Pass) : ids.foldl Pass.home q =
    { q with node := (serveEach homeService ids q.node).1
             moved := q.moved || decide (0 < (serveEach homeService ids q.node).2) } :=
  foldl_serveEach (note := fun q m k => { q with node := m, moved := q.moved || decide (0 < k) })
    (fun q id => by rw [Pass.home_eq]; simp) (fun q => by simp) (fun _ _ _ => rfl) (fun q m l k => by simp) ids q

/-! ## Moves served in turn -/

/-- A move enters one record, that of the id it serves. -/
def OneRecord (act : Node → Nat → Option Node) : Prop :=
  ∀ {a b : Node} {v : Service}, a.svc v.id = some v → act a v.id = some b → ∃ w : Service, w.id = v.id ∧ a.Puts w b

theorem restoredService_oneRecord : OneRecord restoredService := fun hv h => by
  obtain ⟨x, st, k, g, cells, -, -, -, -, hput⟩ := restoredService_puts hv h
  refine ⟨_, ?_, hput⟩
  rfl
theorem grownService_oneRecord : OneRecord grownService := fun hv h => by
  obtain ⟨cells, hput⟩ := grownService_puts hv h
  refine ⟨_, ?_, hput⟩
  rfl
theorem homeService_oneRecord : OneRecord homeService := fun hv h => by
  obtain ⟨cells, hput⟩ := homeService_puts hv h
  refine ⟨_, ?_, hput⟩
  rfl

/-- Each service finds its record, when it is served, as it stood when the step began. What runs through the moves, counting the
successes, runs through the step. -/
theorem serveEach_run {act : Node → Nat → Option Node} (hact : OneRecord act) {which : Service → Prop}
    {C : Node → Nat → Node → Prop} {n : Node} (hnone : ∀ a, C a 0 a)
    (hmove : ∀ {a b c : Node} {k : Nat} {v : Service}, a.ByIds → a.path = n.path → a.svc v.id = some v → which v →
      act a v.id = some b → C b k c → C a (k + 1) c)
    {ids : List Nat} (hids : ids.Nodup) {a : Node} (w : a.ByIds) (hpath : a.path = n.path)
    (hwhich : ∀ id ∈ ids, ∃ v, a.svc id = some v ∧ which v) :
    C a (serveEach act ids a).2 (serveEach act ids a).1 := by
  induction ids generalizing a with
  | nil => exact hnone a
  | cons id ids ih =>
    obtain ⟨hid, hrest⟩ := List.nodup_cons.1 hids
    obtain ⟨v, hv, hv'⟩ := hwhich id List.mem_cons_self
    obtain rfl := Node.svc_id hv
    unfold serveEach
    cases hb : act a v.id with
    | none => exact ih hrest w hpath fun j hj => hwhich j (List.mem_cons_of_mem _ hj)
    | some b =>
      obtain ⟨u, hu, hput⟩ := hact hv hb
      refine hmove w hpath hv hv' hb (ih hrest (hput.byIds w) (hput.path.trans hpath) fun j hj => ?_)
      rw [hput.svc_ne (hu ▸ ne_of_mem_of_not_mem hj hid)]
      exact hwhich j (List.mem_cons_of_mem _ hj)

/-! ## What runs through the moves of a pass -/

/-- A relation between nodes that runs through the moves of a pass, each as the step that makes it finds its record (R96 to R99). -/
structure Node.PassMoves (R : Node → Node → Prop) : Prop where
  refl : ∀ n : Node, R n n
  trans : ∀ {a b c : Node}, R a b → R b c → R a c
  call : ∀ {n left m : Node} {p : Fin 8} {x : Side} {k : Nat} {cells : List Nat}, n.ByIds → n.Sheds 0 left →
    left.Puts (callRecord p x k cells) m → R n m
  restored : ∀ {n m : Node} {v : Service} {x : Side} {st : SvcState} {k : Nat} {cells : List Nat}, n.ByIds →
    n.svc v.id = some v → v.state = .shed → ¬ (n.au.economy = true ∧ 2 ≤ v.level) → n.targetSide v = some x → st ≠ .shed →
    n.Puts (v.placedAs x st k cells) m → R n m
  grown : ∀ {n m : Node} {v : Service} {cells : List Nat}, n.ByIds → n.svc v.id = some v → v.state = .reduced →
    n.Puts { v with state := .active, cells := cells } m → R n m
  home : ∀ {n m : Node} {v : Service} {cells : List Nat}, n.ByIds → n.svc v.id = some v → v.prot = .reroute →
    v.state ≠ .shed → v.current = some v.primary.other → (n.pathOf v.primary).state = .reachable →
    n.Puts { v with current := some v.primary, cells := cells } m → R n m

theorem serveEach_frame {act : Node → Nat → Option Node} (hact : OneRecord act) {n : Node} {ids : List Nat} (w : n.ByIds)
    {which : Service → Prop} {before : Service → Service → Prop} (h : Listed n which before ids) :
    (serveEach act ids n).1.ByIds ∧ (serveEach act ids n).1.path = n.path :=
  serveEach_run (n := n) hact (which := which) (C := fun a _ c => a.ByIds → c.ByIds ∧ c.path = a.path) (fun _ w => ⟨w, rfl⟩)
    (fun _ _ hv _ hb hc w => by
      obtain ⟨u, -, hput⟩ := hact hv hb
      obtain ⟨hc, hpath⟩ := hc (hput.byIds w)
      exact ⟨hc, hpath.trans hput.path⟩) h.1 w rfl (fun id hid => (h.2.1 id).1 hid) w
theorem serveCalls_frame (ports : List (Fin 8)) {n : Node} (w : n.ByIds) : (serveCalls ports n).1.ByIds := by
  induction ports generalizing n with
  | nil => exact w
  | cons p ports ih =>
    unfold serveCalls
    cases hm : callServed n p with
    | none => exact w
    | some m =>
      obtain ⟨left, x, k, cells, hshed, hput⟩ := callServed_puts w hm
      exact ih (hput.byIds hshed.byIds)

namespace Node.PassMoves

variable {R : Node → Node → Prop} (hR : Node.PassMoves R) {n : Node}
include hR

theorem calls (ports : List (Fin 8)) (w : n.ByIds) : R n (serveCalls ports n).1 := by
  induction ports generalizing n with
  | nil => exact hR.refl n
  | cons p ports ih =>
    unfold serveCalls
    cases hm : callServed n p with
    | none => exact hR.refl n
    | some m =>
      obtain ⟨left, x, k, cells, hshed, hput⟩ := callServed_puts w hm
      exact hR.trans (hR.call w hshed hput) (ih (hput.byIds hshed.byIds))
theorem shedList {ids : List Nat} (w : n.ByIds) (h : Listed n (fun v => v.state = .shed) EarlierShed ids) :
    R n (serveEach restoredService ids n).1 :=
  serveEach_run (n := n) restoredService_oneRecord (C := fun a _ c => R a c) hR.refl (fun w _ hv hst hb hc => by
    obtain ⟨x, st, k, g, cells, heco, hside, hplaced, -, hput⟩ := restoredService_puts hv hb
    exact hR.trans (hR.restored w hv hst heco hside hplaced hput) hc) h.1 w rfl fun id hid => (h.2.1 id).1 hid
theorem growing {ids : List Nat} (w : n.ByIds) (h : Listed n (fun v => v.state = .reduced) EarlierAdmitted ids) :
    R n (serveEach grownService ids n).1 :=
  serveEach_run (n := n) grownService_oneRecord (C := fun a _ c => R a c) hR.refl (fun w _ hv hst hb hc => by
    obtain ⟨cells, hput⟩ := grownService_puts hv hb
    exact hR.trans (hR.grown w hv hst hput) hc) h.1 w rfl fun id hid => (h.2.1 id).1 hid
theorem returning {ids : List Nat} (w : n.ByIds) (h : Listed n (fun v => v.prot = .reroute ∧ v.state ≠ .shed ∧
      v.current = some v.primary.other ∧ (n.pathOf v.primary).state = .reachable) EarlierAdmitted ids) :
    R n (serveEach homeService ids n).1 :=
  serveEach_run (n := n) homeService_oneRecord (C := fun a _ c => R a c) hR.refl (fun {a b c k v} w hpath hv hst hb hc => by
    obtain ⟨cells, hput⟩ := homeService_puts hv hb
    obtain ⟨hprot, hstate, hcur, hreach⟩ := hst
    have hreach' : (a.pathOf v.primary).state = .reachable := by rw [Node.pathOf, hpath]; exact hreach
    exact hR.trans (hR.home w hv hprot hstate hcur hreach' hput) hc) h.1 w rfl fun id hid => (h.2.1 id).1 hid
theorem round {m : Node} {placed moved : Nat} (w : n.ByIds) (h : PassRound n m placed moved) : R n m ∧ m.ByIds := by
  obtain ⟨shed, reduced, away, hshed, hreduced, haway, rfl, -, -⟩ := h
  have w1 := serveCalls_frame n.cc.waiting w
  have w2 := (serveEach_frame restoredService_oneRecord w1 hshed).1
  have w3 := (serveEach_frame grownService_oneRecord w2 hreduced).1
  refine ⟨?_, (serveEach_frame homeService_oneRecord w3 haway).1⟩
  exact hR.trans (hR.trans (hR.trans (hR.calls n.cc.waiting w) (hR.shedList w1 hshed)) (hR.growing w2 hreduced))
    (hR.returning w3 haway)
theorem runs {m : Node} {placed : Nat} (h : PassRuns n m placed) (w : n.ByIds) : R n m := by
  induction h with
  | last hround => exact (hR.round w hround).1
  | again hround _ ih =>
    obtain ⟨hfirst, w⟩ := hR.round w hround
    exact hR.trans hfirst (ih w)

end Node.PassMoves

/-! ## The model's passes -/

theorem Pass.steps_round (q : Pass) (w : q.node.ByIds) : ∃ placed moved, PassRound q.node q.steps.node placed moved ∧
    q.steps.placed = q.placed + placed ∧ q.steps.moved = decide (0 < moved) := by
  obtain ⟨n1, hn1⟩ : ∃ n1, n1 = serveCalls q.node.cc.waiting q.node := ⟨_, rfl⟩
  obtain ⟨n2, hn2⟩ : ∃ n2, n2 = serveEach restoredService n1.1.shedIds n1.1 := ⟨_, rfl⟩
  obtain ⟨reduced, hreduced⟩ : ∃ l, l = (byAdmission (n2.1.au.services.filter (·.state == .reduced))).map (·.id) := ⟨_, rfl⟩
  obtain ⟨n3, hn3⟩ : ∃ n3, n3 = serveEach grownService reduced n2.1 := ⟨_, rfl⟩
  obtain ⟨away, haway⟩ : ∃ l, l = (n3.1.away.filter fun v => (n3.1.pathOf v.primary).state == .reachable).map (·.id) := ⟨_, rfl⟩
  obtain ⟨n4, hn4⟩ : ∃ n4, n4 = serveEach homeService away n3.1 := ⟨_, rfl⟩
  have hsteps : q.steps = { node := n4.1, placed := q.placed + n1.2 + n2.2, moved := decide (0 < n4.2) } := by
    unfold Pass.steps
    simp only [passCalls_eq, foldl_restore, foldl_grow, foldl_home, ← hn1, ← hn2, ← hreduced, ← hn3, ← haway, ← hn4,
      Bool.false_or]
  have w1 : n1.1.ByIds := hn1 ▸ serveCalls_frame _ w
  have hlshed : Listed n1.1 (fun v => v.state = .shed) EarlierShed n1.1.shedIds := w1.listed_shed
  have w2 : n2.1.ByIds := hn2 ▸ (serveEach_frame restoredService_oneRecord w1 hlshed).1
  have hlreduced : Listed n2.1 (fun v => v.state = .reduced) EarlierAdmitted reduced :=
    hreduced ▸ (w2.listed_byAdmission _).congr fun _ => beq_iff_eq
  have w3 : n3.1.ByIds := hn3 ▸ (serveEach_frame grownService_oneRecord w2 hlreduced).1
  have hlaway : Listed n3.1 (fun v => v.prot = .reroute ∧ v.state ≠ .shed ∧ v.current = some v.primary.other ∧
      (n3.1.pathOf v.primary).state = .reachable) EarlierAdmitted away :=
    haway ▸ (w3.listed_away _).congr fun _ => by simp only [beq_iff_eq, and_assoc]
  rw [hsteps]
  refine ⟨n1.2 + n2.2, n4.2, ⟨n1.1.shedIds, reduced, away, ?_⟩, Nat.add_assoc _ _ _, rfl⟩
  dsimp only
  rw [← hn1, ← hn2, ← hn3, ← hn4]
  exact ⟨hlshed, hlreduced, hlaway, rfl, rfl, rfl⟩

/-! ## The passes end (R99) -/

/-- The ids of the REROUTE services away from a REACHABLE primary side. -/
def Node.strays (n : Node) : Finset Nat :=
  (n.au.services.map (·.id)).toFinset.filter fun id => (n.svc id).any fun v =>
    v.prot == .reroute && v.state != .shed && v.current == some v.primary.other && (n.pathOf v.primary).state == .reachable

theorem Node.mem_strays {n : Node} {id : Nat} : id ∈ n.strays ↔ ∃ v, n.svc id = some v ∧ v.prot = .reroute ∧
    v.state ≠ .shed ∧ v.current = some v.primary.other ∧ (n.pathOf v.primary).state = .reachable := by
  have hmem : id ∈ n.strays ↔ id ∈ (n.au.services.map (·.id)).toFinset ∧ ((n.svc id).any fun v =>
      v.prot == .reroute && v.state != .shed && v.current == some v.primary.other &&
        (n.pathOf v.primary).state == .reachable) = true := Finset.mem_filter
  rw [hmem, List.mem_toFinset, List.mem_map, Option.any_eq_true]
  simp only [Bool.and_eq_true, beq_iff_eq, bne_iff_ne, and_assoc]
  exact ⟨fun h => h.2, fun ⟨v, hv, h⟩ => ⟨⟨v, Node.mem_of_svc hv, Node.svc_id hv⟩, v, hv, h⟩⟩
theorem Node.card_strays_le (n : Node) : n.strays.card ≤ n.au.services.length :=
  (Finset.card_filter_le _ _).trans ((List.toFinset_card_le _).trans (List.length_map _).le)

/-- A record entered makes no stray when it is none itself, or replaces one. -/
theorem Node.Puts.strays {n m : Node} {v : Service} (h : n.Puts v m) (hv : v.prot = .reroute → v.state ≠ .shed →
    v.current = some v.primary.other → (n.pathOf v.primary).state = .reachable → v.id ∈ n.strays) : m.strays ⊆ n.strays := by
  intro id hid
  obtain ⟨u, hu, hprot, hstate, hcur, hreach⟩ := Node.mem_strays.1 hid
  rw [Node.pathOf, h.path] at hreach
  by_cases he : id = v.id
  · subst he
    rw [h.svc] at hu
    cases hu
    exact hv hprot hstate hcur hreach
  · rw [h.svc_ne he] at hu
    exact Node.mem_strays.2 ⟨u, hu, hprot, hstate, hcur, hreach⟩
theorem Node.Sheds.strays {n m : Node} {lv : Nat} (h : n.Sheds lv m) : m.strays ⊆ n.strays := by
  intro id hid
  obtain ⟨u, hu, hprot, hstate, hcur, hreach⟩ := Node.mem_strays.1 hid
  rw [Node.pathOf, h.path] at hreach
  rcases h.records id with hsame | ⟨u', k, -, -, hshed⟩
  · exact Node.mem_strays.2 ⟨u, hsame ▸ hu, hprot, hstate, hcur, hreach⟩
  · rw [hshed] at hu
    cases hu
    exact absurd rfl hstate
theorem Side.ne_other (x : Side) : x ≠ x.other := by cases x <;> nofun
theorem Node.usable_of_reachable {n : Node} {x : Side} (h : (n.pathOf x).state = .reachable) : n.usable x = true := by
  simp [Node.usable, h]
/-- A service is placed on its primary side when that is REACHABLE (R76). -/
theorem Node.targetSide_of_reachable {n : Node} {v : Service} {x : Side} (h : n.targetSide v = some x)
    (hreach : (n.pathOf v.primary).state = .reachable) : x = v.primary := by
  rw [Node.targetSide_eq, if_pos (.inr (Node.usable_of_reachable hreach))] at h
  exact (Option.some.inj h).symm
/-- The service that has come home is no stray any more. -/
theorem Node.Puts.strays_home {n m : Node} {v : Service} {cells : List Nat}
    (h : n.Puts { v with current := some v.primary, cells := cells } m) : m.strays ⊆ n.strays ∧ v.id ∉ m.strays := by
  refine ⟨h.strays fun _ _ hcur _ => absurd (Option.some.inj hcur) (Side.ne_other v.primary), fun hid => ?_⟩
  obtain ⟨u, hu, -, -, hcur, -⟩ := Node.mem_strays.1 hid
  have hsvc : m.svc v.id = some { v with current := some v.primary, cells := cells } := h.svc
  rw [hsvc] at hu
  cases hu
  exact (Side.ne_other v.primary) (Option.some.inj hcur)

theorem strays_passMoves : Node.PassMoves fun n m => m.strays ⊆ n.strays where
  refl _ := Finset.Subset.refl _
  trans h k := k.trans h
  call _ hshed hput := (hput.strays nofun).trans hshed.strays
  restored {n m v x st k cells} _ _ _ _ hside _ hput := hput.strays fun hprot _ hcur hreach => by
    have hx : (v.placedAs x st k cells).current = some x := by
      rw [Service.placedAs, if_neg (by rw [show v.prot = .reroute from hprot]; nofun)]
    rw [hx, Node.targetSide_of_reachable hside hreach] at hcur
    exact absurd (Option.some.inj hcur) (Side.ne_other v.primary)
  grown {n m v cells} _ hv hst hput := hput.strays fun hprot _ hcur hreach =>
    Node.mem_strays.2 ⟨v, hv, hprot, by rw [hst]; nofun, hcur, hreach⟩
  home _ _ _ _ _ _ hput := hput.strays_home.1

/-- Each round leaves fewer services to return, by as many as it has brought home. -/
theorem PassRound.strays {n m : Node} {placed moved : Nat} (w : n.ByIds) (h : PassRound n m placed moved) :
    m.strays.card + moved ≤ n.strays.card := by
  obtain ⟨shed, reduced, away, hshed, hreduced, haway, rfl, -, rfl⟩ := h
  have w1 := serveCalls_frame n.cc.waiting w
  have w2 := (serveEach_frame restoredService_oneRecord w1 hshed).1
  have w3 := (serveEach_frame grownService_oneRecord w2 hreduced).1
  have hbefore := ((strays_passMoves.growing w2 hreduced).trans (strays_passMoves.shedList w1 hshed)).trans
    (strays_passMoves.calls n.cc.waiting w)
  refine le_trans ?_ (Finset.card_le_card hbefore)
  refine serveEach_run homeService_oneRecord (C := fun a k c => c.strays.card + k ≤ a.strays.card) (fun _ => Nat.le_refl _)
    (fun {a b c k v} _ hpath hv hst hb hc => ?_) haway.1 w3 rfl fun id hid => (haway.2.1 id).1 hid
  obtain ⟨cells, hput⟩ := homeService_puts hv hb
  obtain ⟨hprot, hstate, hcur, hreach⟩ := hst
  have hstray : v.id ∈ a.strays := by
    refine Node.mem_strays.2 ⟨v, hv, hprot, hstate, hcur, ?_⟩
    rw [Node.pathOf, hpath]; exact hreach
  have hless : b.strays.card < a.strays.card :=
    Finset.card_lt_card ⟨hput.strays_home.1, fun hsub => hput.strays_home.2 (hsub hstray)⟩
  omega

/-- With fuel above the number of services to return, the passes come to their end. -/
theorem passLoop_runs (fuel : Nat) (q : Pass) (w : q.node.ByIds) (h : q.node.strays.card < fuel) :
    ∃ placed, PassRuns q.node (passLoop fuel q).node placed ∧ (passLoop fuel q).placed = q.placed + placed := by
  induction fuel generalizing q with
  | zero => omega
  | succ fuel ih =>
    obtain ⟨placed, moved, hround, hplaced, hmoved⟩ := q.steps_round w
    unfold passLoop
    dsimp only
    cases moved with
    | zero =>
      rw [hmoved]
      exact ⟨placed, .last hround, hplaced⟩
    | succ moved =>
      have hless := hround.strays w
      obtain ⟨more, hruns, hmore⟩ := ih q.steps (strays_passMoves.round w hround).2 (by omega)
      rw [if_pos (by rw [hmoved]; exact decide_eq_true (Nat.succ_pos _))]
      exact ⟨placed + more, .again hround hruns, by rw [hmore, hplaced, Nat.add_assoc]⟩
/-- The model's pass is the passes that follow one another while services return (R95 to R99). -/
theorem Node.pass_runs {n : Node} (w : n.ByIds) : PassRuns n n.pass n.passCounted.placed := by
  obtain ⟨placed, hruns, hplaced⟩ := passLoop_runs (n.au.services.length + 1) { node := n } w
    (Nat.lt_succ_of_le n.card_strays_le)
  have hcount : n.passCounted.placed = placed := hplaced.trans (Nat.zero_add _)
  rw [hcount]
  exact hruns
/-- What runs through the moves runs through the pass. -/
theorem Node.PassMoves.pass {R : Node → Node → Prop} (hR : Node.PassMoves R) {n : Node} (w : n.ByIds) : R n n.pass :=
  hR.runs (Node.pass_runs w) w

end Sys2Proof.Machine
end

section
/-! SUPPORT. What every step does to the admission unit's tables, as a run of its operations (`Node.AuRun`). A restoration pass, a
reroute and a return stand in it whole: what such an operation does to a record turns on the list that it took at its start, so that
what is kept by it need not be kept by each of its moves made on any record (which `Node.Governed` asks). -/

namespace Sys2Proof.Machine

/-- A run of the operations of the admission unit, as far as its tables go. -/
inductive Node.AuRun : Node → Node → Prop
  | quiet {n m : Node} : m.au = n.au → Node.AuRun n m
  | trans {a b c : Node} : Node.AuRun a b → Node.AuRun b c → Node.AuRun a c
  | powerOn (n : Node) : Node.AuRun n n.powerOn
  | call {n m : Node} {p : Fin 8} : n.callPlacement p = some m → Node.AuRun n m
  | pass (n : Node) : Node.AuRun n n.pass
  | reroute (n : Node) (x : Side) : Node.AuRun n (n.reroute x)
  | revert (n : Node) (x : Side) : Node.AuRun n (n.revert x)
  | vacated (n : Node) (v : Service) : Node.AuRun n (n.vacated v)
  | define {n m : Node} {d : Definition} : n.define (n.recordOf d) = some m → Node.AuRun n m
  | levels {n : Node} {b : List Byte} : firstRefusal (levelChecks n b) = none → Node.AuRun n (n.withMap (classMapOf b))
  | economyEnter (n : Node) : Node.AuRun n n.economyShed
  | economyLeave (n : Node) : Node.AuRun n (n.setEconomy false)
  | start (n : Node) : Node.AuRun n n.startValues
  | add (n : Node) (cells : List Nat) : Node.AuRun n (n.addCells cells)
  | remove (n : Node) (cells : List Nat) : Node.AuRun n (n.removeCells cells)

namespace Node.AuRun

theorem refl (n : Node) : n.AuRun n := quiet rfl
theorem branch {n a b : Node} {c : Prop} [Decidable c] (ha : n.AuRun a) (hb : n.AuRun b) : n.AuRun (if c then a else b) :=
  Node.Governed.branch ha hb
theorem foldl {α : Type} (f : Node → α → Node) (hf : ∀ (n : Node) (a : α), n.AuRun (f n a)) (l : List α) (n : Node) :
    n.AuRun (l.foldl f n) := by
  induction l generalizing n with
  | nil => exact refl n
  | cons a l ih => exact trans (hf n a) (ih _)
theorem report (n : Node) (b : ReportBody) : n.AuRun (n.report b) := quiet rfl
theorem calls (n : Node) (cc : Calls) : n.AuRun { n with cc := cc } := quiet rfl
theorem openCall (n : Node) (p : Fin 8) : n.AuRun (n.openCall p) := trans (calls n _) (report _ _)
theorem lines {n m : Node} (h : n.Lines m) : n.AuRun m := quiet h.au
theorem engines {n m : Node} (h : n.Engines m) : n.AuRun m := quiet h.au

/-! ## Release (R83) -/

theorem release (n : Node) (v : Service) : n.AuRun (n.release v) :=
  trans (trans (vacated n v) (pass _)) (engines (Node.resumeIf_engines _ _))

/-! ## Calls -/

/-- A call's record changed and reported. -/
theorem phoneEvent (n : Node) (p : Fin 8) (f : Phone → Phone) (old : CallState) (o : CallOutcome) :
    n.AuRun ((n.modPhone p f).callEvent p old o) := quiet rfl
theorem callerCall (n : Node) (p : Fin 8) : n.AuRun (n.callerCall p) := by
  unfold Node.callerCall
  split
  · rename_i m hm; exact trans (call hm) (openCall m p)
  · exact quiet rfl
theorem testCaller (n : Node) (p : Fin 8) : n.AuRun (n.testCaller p) := branch (callerCall n p) (refl n)
theorem enterIdle (n : Node) (p : Fin 8) (o : CallOutcome) : n.AuRun (n.enterIdle p o) :=
  trans (trans (calls n _) (report _ _)) (testCaller _ p)
theorem guardEnd (n : Node) (p : Fin 8) : n.AuRun (n.guardEnd p) := by
  unfold Node.guardEnd
  refine trans ?_ (enterIdle _ _ _)
  split
  · exact release n _
  · exact refl n
theorem enterClearing (n : Node) (p : Fin 8) (o : CallOutcome) : n.AuRun (n.enterClearing p o) :=
  branch (trans (phoneEvent n _ _ _ _) (guardEnd _ p)) (phoneEvent n _ _ _ _)
theorem testFlash (n : Node) (p : Fin 8) : n.AuRun (n.testFlash p) := by
  refine branch ?_ (refl n)
  split <;> exact quiet rfl
theorem offHook (n : Node) (p : Fin 8) : n.AuRun (n.offHook p) := by
  have hset : n.AuRun (n.modPhone p fun ph => { ph with hook := .offHook, hookDue := false }) := quiet rfl
  refine trans hset ?_
  unfold Node.offHook
  dsimp only
  split
  · exact testCaller _ p
  · exact phoneEvent _ _ _ _ _
  · exact phoneEvent _ _ _ _ _
  · exact refl _
theorem onHook (n : Node) (p : Fin 8) : n.AuRun (n.onHook p) := by
  have hset : n.AuRun (n.modPhone p fun ph => { ph with hook := .onHook, hookDue := false, clearLock := false }) := quiet rfl
  have hend (m : Node) (held : Bool) : m.AuRun (if held then m.enterHeld p else m.enterClearing p .callerCleared) :=
    branch (phoneEvent m _ _ _ _) (enterClearing m p _)
  refine trans hset ?_
  unfold Node.onHook
  dsimp only
  split
  · exact enterIdle _ p _
  · exact hend _ _
  · exact hend _ _
  · exact refl _
theorem hookEvent (n : Node) (p : Fin 8) : n.AuRun (n.hookEvent p) := by
  unfold Node.hookEvent
  refine branch ?_ (refl n)
  split
  · exact offHook n p
  · exact onHook n p
theorem acceptEvent (n : Node) (p : Fin 8) : n.AuRun (n.acceptEvent p) :=
  branch (trans (trans (hookEvent n p) (calls _ _)) (branch (testFlash _ p) (refl _))) (refl n)
theorem timerEvent (n : Node) (p : Fin 8) : n.AuRun (n.timerEvent p) := by
  unfold Node.timerEvent
  split
  · exact enterClearing n p _
  · exact enterClearing n p _
  · exact guardEnd n p
  · exact refl n
theorem settlePhone (n : Node) (p : Fin 8) : n.AuRun (n.settlePhone p) :=
  trans (trans (trans (hookEvent n p) (acceptEvent _ p)) (calls _ _)) (timerEvent _ p)
theorem reselectCall (n : Node) (p : Fin 8) : n.AuRun (n.reselectCall p) := by
  unfold Node.reselectCall
  exact branch (branch (quiet rfl) (quiet rfl)) (refl n)
theorem clearCall (n : Node) (p : Fin 8) : n.AuRun (n.clearCall p) :=
  trans (calls n _) (branch (enterIdle _ p _) (enterClearing _ p _))

/-! ## Signals taken and due events -/

theorem auTakes (n : Node) (g : PathSignal) (f : Node → Node) (hf : ∀ m : Node, m.AuRun (f m)) : n.AuRun (n.auTakes g f) := by
  have hsig : n.AuRun { n with sig := { n.sig with au := n.sig.au.erase g } } := quiet rfl
  exact branch (trans hsig (hf _)) (refl n)
theorem ccTakes (n : Node) (g : PathSignal) : n.AuRun (n.ccTakes g) := by
  have hsig : n.AuRun { n with sig := { n.sig with cc := n.sig.cc.erase g } } := quiet rfl
  exact branch (trans hsig (foldl _ reselectCall _ _)) (refl n)
theorem peTakes (n : Node) (g : PathSignal) : n.AuRun (n.peTakes g) := branch (quiet rfl) (refl n)
theorem takeAuSignal (n : Node) (g : PathSignal) : n.AuRun (n.takeAuSignal g) := by
  refine auTakes n g _ fun m => ?_
  cases g with
  | lost x => exact reroute m x
  | restored x => exact revert m x
theorem takeSignals (n : Node) : n.AuRun n.takeSignals :=
  trans (trans (foldl _ takeAuSignal _ _) (foldl _ ccTakes _ _)) (foldl _ peTakes _ _)
theorem settleNode (n : Node) : n.AuRun n.settle := by
  have hlines : n.Lines (((((((n.settleLine .u).settleLine .d).periodicDue .u).periodicDue .d).holdOffEnd .a).holdOffEnd
      .b).wtrEnd .a |>.wtrEnd .b).timingRevert :=
    ((((((((n.settleLine_lines _).trans (Node.settleLine_lines _ _)).trans (Node.periodicDue_lines _ _)).trans
      (Node.periodicDue_lines _ _)).trans (Node.holdOffEnd_lines _ _)).trans (Node.holdOffEnd_lines _ _)).trans
      (Node.wtrEnd_lines _ _)).trans (Node.wtrEnd_lines _ _)).trans (Node.timingRevert_lines _)
  have hengines (m : Node) : m.Engines (allStations.foldl Node.stationDue (allFour.foldl Node.stateTimerEnd m).intervalEnd.cycleStart) :=
    (((Node.Engines.foldl _ Node.stateTimerEnd_engines _ _).trans (Node.intervalEnd_engines _)).trans
      (Node.cycleStart_engines _)).trans (Node.Engines.foldl _ Node.stationDue_engines _ _)
  exact trans (trans (lines hlines) (takeSignals _)) (engines (hengines _))
theorem settleTick (s : State) : s.node.AuRun s.settleTick.node := by
  have hphones : s.node.AuRun (allPhones.foldl Node.settlePhone s.node).replyTimeout :=
    trans (foldl _ settlePhone _ _) (engines (Node.replyTimeout_engines _))
  unfold State.settleTick
  generalize (allPhones.foldl Node.settlePhone s.node).replyTimeout = m at hphones ⊢
  exact trans hphones (quiet (State.gapEnd_au { s with node := m }))
theorem msTick (s : State) : s.node.AuRun s.msTick.node := by
  have htick (n : Node) : n.AuRun n.tick := quiet rfl
  unfold State.msTick
  split
  · exact trans (settleTick s) (htick _)
  · exact refl _
theorem settle (s : State) : s.node.AuRun s.settle.node := by
  rw [State.settle_node]
  exact trans (trans (trans (settleTick s) (msTick _)) (settleTick _)) (settleNode _)
theorem frameStart (n : Node) (voice : Vector CellVal 8) : n.AuRun (n.frameStart voice) := by
  unfold Node.frameStart
  refine trans ?_ (foldl _ (fun n p => calls n _) _ _)
  refine trans ?_ (engines (Node.readTrains_engines _))
  refine trans ?_ (lines (Node.beginFrame_lines _ _ _))
  refine trans ?_ (lines (Node.beginFrame_lines _ _ _))
  refine trans ?_ (engines (Node.buildTrains_engines _))
  have happlied : n.AuRun n.applyDue := foldl _ (fun m _ => quiet m.stagingApply_au) _ _
  exact trans happlied (quiet rfl)

/-! ## Requests -/

theorem of_checked {n : Node} {checks : List (Bool × Reply)} {a : Answer} (h : firstRefusal checks = none → n.AuRun a.node) :
    n.AuRun (checked n checks a).node := by
  rcases checked_cases n checks a with ⟨r, -, he⟩ | ⟨hnone, he⟩
  · rw [he]; exact refl n
  · rw [he]; exact h hnone
theorem setLevels (k : Link) (b : List Byte) (n : Node) : n.AuRun (ownSetLevels k b n).node := by
  refine of_checked fun hnone => trans (levels hnone) ?_
  exact branch (pass _) (refl _)
theorem defineService (k : Link) (b : List Byte) (n : Node) : n.AuRun (ownDefineService k b n).node := by
  refine of_checked fun _ => ?_
  dsimp only
  split
  · exact refl n
  · rename_i m hm; exact define hm
theorem releaseService (k : Link) (b : List Byte) (n : Node) : n.AuRun (ownReleaseService k b n).node := by
  refine of_checked fun _ => ?_
  dsimp only
  split
  · exact release n _
  · exact refl n
theorem enterEconomy (k : Link) (b : List Byte) (n : Node) : n.AuRun (ownEconomyEnter k b n).node := by
  refine of_checked fun _ => ?_
  split
  · exact refl n
  · exact branch (economyEnter n) (trans (economyEnter n) (pass _))
theorem leaveEconomy (k : Link) (b : List Byte) (n : Node) : n.AuRun (ownEconomyLeave k b n).node := by
  refine of_checked fun _ => ?_
  split
  · dsimp only
    exact trans (economyLeave n) (pass _)
  · exact refl n
theorem setAllotmentAdd (k : Link) (b : List Byte) (n : Node) : n.AuRun (ownSetAllotmentAdd k b n).node := by
  refine of_checked fun _ => ?_
  dsimp only
  split
  · exact add n _
  · exact trans (add n _) (pass _)
theorem setAllotmentRemove (k : Link) (b : List Byte) (n : Node) : n.AuRun (ownSetAllotmentRemove k b n).node := by
  refine of_checked fun _ => ?_
  split
  · exact refl n
  · exact remove n _
theorem startRequest (k : Link) (b : List Byte) (n : Node) : n.AuRun (ownStart k b n).node := by
  have hlines : n.startValues.AuRun ((n.startValues.startLine .u).startLine .d) :=
    lines ((n.startValues.startLine_lines .u).trans (Node.startLine_lines _ .d))
  have hstart : n.AuRun n.start := by
    unfold Node.start
    refine trans ?_ (pass _)
    refine trans (trans (start n) hlines) ?_
    exact quiet rfl
  unfold ownStart
  refine of_checked fun _ => ?_
  dsimp only
  exact hstart
theorem callRing (k : Link) (b : List Byte) (n : Node) : n.AuRun (ownCallRing k b n).node := by
  refine of_checked fun _ => ?_
  split
  · rename_i m hm; exact trans (call hm) (phoneEvent m _ _ _ _)
  · exact refl n
theorem callClear (k : Link) (b : List Byte) (n : Node) : n.AuRun (ownCallClear k b n).node :=
  of_checked fun _ => clearCall n _

end Node.AuRun

end Sys2Proof.Machine
end

section
/-! SUPPORT. Every command, row by row: what each of them does to the admission unit's tables is a run of its operations. -/

namespace Sys2Proof.Machine

namespace Node.AuRun

variable {s t : State}

/-! ## The kinds of commands -/

/-- An event of the management link, of the blocks, and a request. -/
theorem link {f : State → State} (hf : s.node.AuRun (f s).node) (h : unlessHeld s f = .next t) : s.node.AuRun t.node :=
  unlessHeld_keeps h (refl _) hf
theorem event {f : Node → Node} (hf : ∀ n : Node, n.AuRun (f n)) (h : onNode s f = .next t) : s.node.AuRun t.node :=
  link (f := fun s => { s with node := f s.node }) (hf _) h
theorem owner {mine : Request → Bool} {own : Link → List Byte → Node → Answer} (ho : ∀ k b (n : Node), n.AuRun (own k b n).node)
    (h : handle s mine own = .next t) : s.node.AuRun t.node := by
  refine link ?_ h
  dsimp only
  split
  · split
    · exact ho _ _ _
    · exact refl _
  · exact refl _
/-- A request whose owner leaves the admission unit alone. -/
theorem quietOwner {mine : Request → Bool} {own : Link → List Byte → Node → Answer}
    (ho : ∀ k b n, (own k b n).node.au = n.au) (h : handle s mine own = .next t) : s.node.AuRun t.node :=
  owner (fun k b n => quiet (ho k b n)) h
theorem setPins (q : Pins) : s.node.AuRun (s.setPins q).node := quiet rfl
theorem powerValues (low : Bool) : s.node.AuRun (s.powerValues.setReset low).node :=
  trans (powerOn s.node) (quiet rfl)
theorem replySent : s.node.AuRun s.replySent.node := by
  unfold State.replySent
  split
  · unfold State.afterReply
    dsimp only
    split
    · exact refl _
    · exact quiet (State.changeRate_au _ _)
    · exact powerOn _
  · exact refl _
  · exact refl _

/-! ## The commands -/

theorem exec (c : Instr) (h : Machine.exec c s = .next t) : s.node.AuRun t.node := by
  cases c with
  | powerOn => cases h; exact powerOn s.node
  | resetInputLow => cases h; exact powerValues true
  | resetInputRise => cases h; exact powerValues false
  | frameStart voice =>
    have hframe : s.node.AuRun (s.settle.node.frameStart voice) := trans (settle s) (frameStart _ voice)
    unfold Machine.exec execFrameStart at h
    refine link ?_ h
    dsimp only
    exact hframe
  | msTick loops => exact trans (setPins _) (link (msTick _) h)
  | stagingApply => exact event (fun n => quiet n.stagingApply_au) h
  | lineHoldEnd l => exact event (fun n => quiet (n.lineHoldEnd_au l)) h
  | lineFrameReceived l p f d => exact event (fun n => lines (n.lineFrame_lines l p f d)) h
  | signalLost l pin => exact trans (setPins _) (event (fun n => lines (n.signalGone_lines l)) h)
  | signalReturned l pin => exact trans (setPins _) (event refl h)
  | errorWindowEnd l => exact event (fun n => lines (n.windowEnd_lines l)) h
  | presetConfirmTimeout l => exact event (fun n => lines (n.confirmTimeout_lines l)) h
  | settleFramesEnd l => exact event (fun n => lines (n.settleEnd_lines l)) h
  | marginPositionDone l => exact event (fun n => lines (n.positionDone_lines l)) h
  | trainingRetry l => exact event (fun n => lines (n.retryEnd_lines l)) h
  | periodicScanDue l => exact event (fun n => lines (n.periodicDue_lines l)) h
  | holdOffExpired x => exact event (fun n => lines (n.holdOffEnd_lines x)) h
  | wtrExpired x => exact event (fun n => lines (n.wtrEnd_lines x)) h
  | timingRevert => exact event (fun n => lines n.timingRevert_lines) h
  | pathLostReroute x => exact event (fun n => auTakes n (.lost x) _ fun m => reroute m x) h
  | pathRestoredRevert x => exact event (fun n => auTakes n (.restored x) _ fun m => revert m x) h
  | callReselect g => exact event (fun n => ccTakes n g) h
  | dualReceiveReselect g => exact event (fun n => peTakes n g) h
  | loopAcceptedRise p => exact event (fun n => branch (refl n) (acceptEvent n p)) h
  | loopAcceptedFall p => exact event (fun n => branch (acceptEvent n p) (refl n)) h
  | offHookConfirmed p => exact event (fun n => branch (offHook n p) (refl n)) h
  | onHookConfirmed p => exact event (fun n => branch (onHook n p) (refl n)) h
  | cadencePeriodStart p =>
    unfold Machine.exec execCadencePeriodStart at h
    refine event (fun n => ?_) h
    split
    · exact branch (refl n) (quiet rfl)
    · exact refl n
  | cadenceOffPhase p =>
    unfold Machine.exec execCadenceOffPhase at h
    refine event (fun n => ?_) h
    split
    · exact branch (quiet rfl) (refl n)
    · exact refl n
  | heldLimitExpired p => exact event (fun n => branch (timerEvent n p) (refl n)) h
  | ringTimeoutExpired p => exact event (fun n => branch (timerEvent n p) (refl n)) h
  | clearGuardExpired p => exact event (fun n => branch (timerEvent n p) (refl n)) h
  | tributaryFrameReceived k f => exact event (fun n => engines (n.tributaryIn_engines k f)) h
  | tributaryFrameSent k => exact event (fun n => engines (n.outputEnd_engines k)) h
  | outputFrameBegin k => exact event (fun n => engines (n.outputBegin_engines k)) h
  | readyInputChange k level => exact trans (setPins _) (event (fun n => engines (n.readyOn_engines k)) h)
  | stateFrameTimer x => exact event (fun n => engines (n.stateTimerEnd_engines x)) h
  | countingIntervalEnd => exact event (fun n => engines n.intervalEnd_engines) h
  | pollCycleStart => exact event (fun n => engines n.cycleStart_engines) h
  | stationDue k => exact event (fun n => engines (n.stationDue_engines k)) h
  | pollTelegramSent => exact event (fun n => engines n.windowOpens_engines) h
  | pollReplyStart => exact event (fun n => engines n.replyStart_engines) h
  | pollReplyTimeout => exact event (fun n => engines n.replyTimeout_engines) h
  | pollReplyEnd bs => exact event (fun n => engines (n.replyEnd_engines _)) h
  | pollReplyGap bs => exact event (fun n => engines (n.replyEnd_engines _)) h
  | lateReplyRunEnd =>
    unfold Machine.exec execLateReplyRunEnd at h
    refine event (fun n => ?_) h
    exact branch (quiet rfl) (refl n)
  | requestFrameReceived b => exact link (quiet (s.rxByteIf_au _ b)) h
  | frameTooLong b => exact link (quiet (s.rxByteIf_au _ b)) h
  | frameGap => exact link (quiet s.gapEnd_au) h
  | frameByteError => exact link (quiet s.rxError_au) h
  | replySent => exact link replySent h
  | reportSent => exact link (quiet s.reportSent_au) h
  | linkByteReceived b low =>
    unfold Machine.exec execLinkByteReceived at h
    refine link ?_ h
    split
    · exact quiet s.rxError_au
    · exact quiet (s.rxByte_au b)
  | unknownKindRequest => exact quietOwner (Node.Governed.answer_au ownUnknown fun _ _ _ => rfl) h
  | identify => exact quietOwner (Node.Governed.answer_au ownIdentify fun _ _ _ => Node.Kept.checked_node) h
  | setLink => exact quietOwner ownSetLink_au h
  | start => exact owner startRequest h
  | reset => exact quietOwner (Node.Governed.answer_au ownReset fun _ _ _ => Node.Kept.checked_node) h
  | nodeStatus => exact quietOwner (Node.Governed.answer_au ownNodeStatus fun _ _ _ => Node.Kept.checked_node) h
  | setNode => exact quietOwner ownSetNode_au h
  | lineSet => exact quietOwner ownLineSet_au h
  | marginScan => exact quietOwner ownMarginScan_au h
  | lineStatus => exact quietOwner (Node.Governed.answer_au ownLineStatus fun _ _ _ => Node.Kept.checked_node) h
  | pathForceSet => exact quietOwner ownPathForceSet_au h
  | pathForceClear => exact quietOwner ownPathForceClear_au h
  | pathStatus => exact quietOwner (Node.Governed.answer_au ownPathStatus fun _ _ _ => Node.Kept.checked_node) h
  | setAllotmentAdd => exact owner setAllotmentAdd h
  | setAllotmentRemove => exact owner setAllotmentRemove h
  | mapStatus => exact quietOwner (Node.Governed.answer_au ownMapStatus fun _ _ _ => Node.Kept.checked_node) h
  | setLevels => exact owner setLevels h
  | defineService => exact owner defineService h
  | releaseService => exact owner releaseService h
  | serviceStatusOne => exact quietOwner (Node.Governed.answer_au ownServiceStatusOne fun _ _ _ => Node.Kept.checked_node) h
  | serviceStatusSummary => exact quietOwner (Node.Governed.answer_au ownServiceStatusSummary fun _ _ _ => Node.Kept.checked_node) h
  | shedList => exact quietOwner (Node.Governed.answer_au ownShedList fun _ _ _ => Node.Kept.checked_node) h
  | economyEnter => exact owner enterEconomy h
  | economyLeave => exact owner leaveEconomy h
  | phoneSetPort => exact quietOwner ownPhoneSetPort_au h
  | phoneSetCommon => exact quietOwner ownPhoneSetCommon_au h
  | callControlAnswer => exact quietOwner ownCallAnswer_au h
  | callControlHold => exact quietOwner (ownCallHold_au true) h
  | callControlUnhold => exact quietOwner (ownCallHold_au false) h
  | callControlClear => exact owner callClear h
  | callControlRing => exact owner callRing h
  | callStatus => exact quietOwner (Node.Governed.answer_au ownCallStatus fun _ _ _ => Node.Kept.checked_node) h
  | ringTestOn => exact quietOwner (ownRingTest_au true) h
  | ringTestOff => exact quietOwner (ownRingTest_au false) h
  | packetPortSet => exact quietOwner ownPacketPortSet_au h
  | portStatusPort => exact quietOwner (Node.Governed.answer_au ownPortStatusPort fun _ _ _ => Node.Kept.checked_node) h
  | portStatusService => exact quietOwner (Node.Governed.answer_au ownPortStatusService fun _ _ _ => Node.Kept.checked_node) h
  | transferOpen => exact quietOwner ownTransferOpen_au h
  | transferAbort => exact quietOwner ownTransferAbort_au h
  | transferStatusOne => exact quietOwner (Node.Governed.answer_au ownTransferStatusOne fun _ _ _ => Node.Kept.checked_node) h
  | transferStatusAll => exact quietOwner (Node.Governed.answer_au ownTransferStatusAll fun _ _ _ => Node.Kept.checked_node) h
  | pollSet => exact quietOwner ownPollSet_au h
  | stationSet => exact quietOwner ownStationSet_au h
  | stationRead => exact quietOwner (Node.Governed.answer_au ownStationRead fun _ _ _ => Node.Kept.checked_node) h

/-- What runs through the operations of the admission unit runs through every step. -/
theorem step (h : Machine.step s = .next t) : s.node.AuRun t.node := by
  unfold Machine.step at h
  split at h
  · cases h; exact refl _
  · rename_i c rest _
    exact exec (s := s.withPending rest) c h

end Node.AuRun

end Sys2Proof.Machine
end

section
/-! SUPPORT. Services moved from a lost side (R100, R101) and shed by ECONOMY (R104), record by record. -/

namespace Sys2Proof.Machine

/-! ## Levels and protections stay -/

/-- The level and the protection of the record of an id, neither of which a placement, a move or a shed changes. -/
def Node.castOf (n : Node) (id : Nat) : Option (Nat × Protection) := (n.svc id).map fun v => (v.level, v.prot)

theorem Node.castOf_of_svc {n : Node} {id : Nat} {v : Service} (h : n.svc id = some v) : n.castOf id = some (v.level, v.prot) := by
  rw [Node.castOf, h, Option.map_some]
theorem Node.svc_of_castOf {n : Node} {id : Nat} {lv : Nat} {p : Protection} (h : n.castOf id = some (lv, p)) :
    ∃ v, n.svc id = some v ∧ v.level = lv ∧ v.prot = p := by
  obtain ⟨v, hv, he⟩ := Option.map_eq_some_iff.1 h
  exact ⟨v, hv, (Prod.mk.inj he).1, (Prod.mk.inj he).2⟩
theorem Node.Puts.castOf {n m : Node} {v : Service} (h : n.Puts v m) (hv : n.castOf v.id = some (v.level, v.prot)) (id : Nat) :
    m.castOf id = n.castOf id := by
  by_cases he : id = v.id
  · rw [he, hv, Node.castOf_of_svc h.svc]
  · rw [Node.castOf, h.svc_ne he, Node.castOf]
theorem Node.Sheds.castOf {n m : Node} {lv : Nat} (h : n.Sheds lv m) (id : Nat) : m.castOf id = n.castOf id := by
  rcases h.records id with hsame | ⟨u, k, hu, -, hshed⟩
  · rw [Node.castOf, hsame, Node.castOf]
  · rw [Node.castOf_of_svc hu, Node.castOf_of_svc hshed]; rfl

/-! ## One mover (R101) -/

theorem Service.attempt_placed {v : Service} {t : Attempt} (h : t ∈ v.fullAttempts ++ v.floorAttempts) : t.state ≠ .shed := by
  unfold Service.fullAttempts Service.floorAttempts at h
  cases hf : v.floor with
  | none =>
    rw [hf] at h
    simp only [List.append_nil, List.mem_cons, List.not_mem_nil, or_false] at h
    rcases h with rfl | rfl <;> nofun
  | some f =>
    rw [hf] at h
    simp only [List.mem_append, List.mem_cons, List.not_mem_nil, or_false] at h
    rcases h with (rfl | rfl) | (rfl | rfl) <;> nofun

/-- The mover is shed, or it is on the other side, after those have been shed that had to be. -/
theorem Node.rerouteOne_cases {n : Node} (w : n.ByIds) {v : Service} (hv : n.svc v.id = some v) (x : Side) :
    (∃ k, n.Puts (v.shedAs .pathLost k) (n.rerouteOne x v.id)) ∨
    ∃ left st cells, (n.freeHalves v).Sheds v.level left ∧ st ≠ .shed ∧
      left.Puts { v with current := some x.other, state := st, cells := cells } (n.rerouteOne x v.id) := by
  have hfree := n.freeHalves_puts v
  have hshed : n.Puts (v.shedAs .pathLost (n.freeHalves v).nextShed) ((n.freeHalves v).shed { v with cells := [] } .pathLost) :=
    hfree.again ((n.freeHalves v).shed_puts { v with cells := [] } .pathLost) rfl
  unfold Node.rerouteOne
  rw [hv]
  dsimp only
  split
  · split
    · rename_i r hr
      obtain ⟨hleft, t, ht, hstate⟩ := Node.attempts_sheds (hfree.byIds w) hr
      refine .inr ⟨r.node, r.state, r.cells, hleft, ?_, ?_⟩
      · rw [hstate]
        split at ht
        · exact Service.attempt_placed (v := { v with cells := [] }) (List.mem_append_right _ ht)
        · exact Service.attempt_placed ht
      · exact (r.node.takeCells_puts { v with current := some x.other, state := r.state, cells := [] } r.cells).offers
          (Node.svcEventOf_offers _ _ _ _)
    · exact .inl ⟨_, hshed⟩
  · exact .inl ⟨_, hshed⟩
theorem Node.rerouteOne_none {n : Node} {id : Nat} (h : n.svc id = none) (x : Side) : n.rerouteOne x id = n := by
  rw [Node.rerouteOne, h]

/-- What the movers of these ids do to the table: each is SHED or on the other side, and of the others some are shed. -/
structure Node.MoversFrom (x : Side) (ids : List Nat) (n m : Node) : Prop where
  records : ∀ j, m.svc j = n.svc j ∨
    ∃ v, m.svc j = some v ∧ (v.state = .shed ∨ (j ∈ ids ∧ v.current = some x.other))
  movers : ∀ j ∈ ids, ∀ v, m.svc j = some v → v.state = .shed ∨ v.current = some x.other
  casts : ∀ j, m.castOf j = n.castOf j
  economy : m.au.economy = n.au.economy
  path : m.path = n.path
  byIds : m.ByIds

theorem Node.MoversFrom.refl {n : Node} (w : n.ByIds) (x : Side) : n.MoversFrom x [] n :=
  ⟨fun _ => .inl rfl, nofun, fun _ => rfl, rfl, rfl, w⟩
theorem Node.MoversFrom.trans {n m k : Node} {x : Side} {ids rest : List Nat} (h : n.MoversFrom x ids m)
    (h' : m.MoversFrom x rest k) : n.MoversFrom x (ids ++ rest) k := by
  refine ⟨fun j => ?_, fun j hj v hv => ?_, fun j => (h'.casts j).trans (h.casts j), h'.economy.trans h.economy,
    h'.path.trans h.path, h'.byIds⟩
  · rcases h'.records j with hsame | ⟨v, hv, hwhere⟩
    · rw [hsame]
      exact (h.records j).imp_right fun ⟨v, hv, hwhere⟩ =>
        ⟨v, hv, hwhere.imp_right fun ⟨hj, hx⟩ => ⟨List.mem_append_left _ hj, hx⟩⟩
    · exact .inr ⟨v, hv, hwhere.imp_right fun ⟨hj, hx⟩ => ⟨List.mem_append_right _ hj, hx⟩⟩
  · rcases h'.records j with hsame | ⟨u, hu, hwhere⟩
    · rcases List.mem_append.1 hj with hj | hj
      · exact h.movers j hj v (hsame ▸ hv)
      · exact h'.movers j hj v hv
    · rw [hu] at hv
      cases hv
      exact hwhere.imp_right And.right

theorem Node.rerouteOne_moversFrom {n : Node} (w : n.ByIds) (x : Side) (id : Nat) : n.MoversFrom x [id] (n.rerouteOne x id) := by
  cases hv : n.svc id with
  | none =>
    rw [Node.rerouteOne_none hv]
    refine ⟨fun _ => .inl rfl, fun j hj v h => ?_, fun _ => rfl, rfl, rfl, w⟩
    rw [List.mem_singleton.1 hj, hv] at h
    cases h
  | some v =>
    obtain rfl := Node.svc_id hv
    have hcast := Node.castOf_of_svc hv
    rcases Node.rerouteOne_cases w hv x with ⟨k, hput⟩ | ⟨left, st, cells, hleft, -, hput⟩
    · refine ⟨fun j => ?_, fun j hj u hu => ?_, hput.castOf hcast, hput.economy, hput.path, hput.byIds w⟩
      · by_cases hj : j = v.id
        · exact .inr ⟨v.shedAs .pathLost k, by rw [hj]; exact hput.svc, .inl rfl⟩
        · exact .inl (hput.svc_ne hj)
      · rw [List.mem_singleton.1 hj, show (n.rerouteOne x v.id).svc v.id = _ from hput.svc] at hu
        cases hu
        exact .inl rfl
    · have hfree := n.freeHalves_puts v
      have hself : (n.rerouteOne x v.id).svc v.id = some { v with current := some x.other, state := st, cells := cells } :=
        hput.svc
      have hcasts (j : Nat) : left.castOf j = n.castOf j := (hleft.castOf j).trans (hfree.castOf hcast j)
      refine ⟨fun j => ?_, fun j hj u hu => ?_, fun j => (hput.castOf ((hcasts v.id).trans hcast) j).trans (hcasts j),
        (hput.economy.trans hleft.economy).trans hfree.economy, (hput.path.trans hleft.path).trans hfree.path,
        hput.byIds hleft.byIds⟩
      · by_cases hj : j = v.id
        · exact .inr ⟨_, by rw [hj]; exact hself, .inr ⟨List.mem_singleton.2 hj, rfl⟩⟩
        · rcases hleft.records j with hsame | ⟨u, k, -, -, hshed⟩
          · exact .inl ((hput.svc_ne hj).trans (hsame.trans (hfree.svc_ne hj)))
          · exact .inr ⟨_, (hput.svc_ne hj).trans hshed, .inl rfl⟩
      · rw [List.mem_singleton.1 hj, hself] at hu
        cases hu
        exact .inr rfl
theorem Node.reroutes_moversFrom {n : Node} (w : n.ByIds) (x : Side) (ids : List Nat) :
    n.MoversFrom x ids (ids.foldl (fun n id => n.rerouteOne x id) n) := by
  induction ids generalizing n with
  | nil => exact .refl w x
  | cons id ids ih =>
    have hmoved := Node.rerouteOne_moversFrom w x id
    exact hmoved.trans (ih hmoved.byIds)

/-! ## The movers of a side (R100) -/

/-- The movers of a side: the ids of its placed REROUTE services, in the order in which they are taken. -/
def Node.moversFrom (n : Node) (x : Side) : List Nat :=
  (byAdmission (n.placed.filter fun v => v.prot == .reroute && v.current == some x)).map (·.id)

theorem Node.reroute_none {n : Node} {x : Side} (h : n.moversFrom x = []) : n.reroute x = n :=
  if_pos (List.isEmpty_iff.2 h)
theorem Node.reroute_pass {n : Node} {x : Side} (h : n.moversFrom x ≠ []) :
    n.reroute x = ((n.moversFrom x).foldl (fun n id => n.rerouteOne x id) n).pass :=
  if_neg (by rw [List.isEmpty_iff]; exact h)
theorem Node.ByIds.listed_movers {n : Node} (w : n.ByIds) (x : Side) :
    Listed n (fun v => v.prot = .reroute ∧ v.state ≠ .shed ∧ v.current = some x) EarlierAdmitted (n.moversFrom x) := by
  unfold Node.moversFrom Node.placed
  rw [List.filter_filter]
  refine (w.listed_byAdmission _).congr fun v => ?_
  simp only [Bool.and_eq_true, beq_iff_eq, bne_iff_ne]
  tauto

/-! ## Shed by ECONOMY (R104) -/

/-- Economy mode is on, and each service of level 2 or 3 is SHED (R105). -/
structure Node.Frugal (n : Node) : Prop where
  on : n.au.economy = true
  shed : ∀ id v, n.svc id = some v → 2 ≤ v.level → v.state = .shed

theorem Node.economyShed_byIds {n : Node} (w : n.ByIds) : n.economyShed.ByIds := (n.economyShed_traffic).services w
/-- The placed services of levels 2 and 3 are shed, and no other. -/
theorem Node.economyShed_records {n : Node} (w : n.ByIds) {id : Nat} {v : Service} (hv : n.svc id = some v) :
    (v.state ≠ .shed ∧ 2 ≤ v.level → ∃ k, n.economyShed.svc id = some (v.shedAs .economy k)) ∧
    (¬ (v.state ≠ .shed ∧ 2 ≤ v.level) → n.economyShed.svc id = some v) := by
  have hlist : Listed n (fun v => v.state ≠ .shed ∧ 2 ≤ v.level) EarlierVictim
      ((byVictim (n.placed.filter fun v => decide (2 ≤ v.level))).map (·.id)) := by
    unfold Node.placed
    rw [List.filter_filter]
    refine (w.listed_sortBy _ _ ((sortBy_descending Service.admKey _).imp fun {w u} hle hne =>
      earlierVictim_of_numberedLe hle hne)).congr fun w => ?_
    simp only [Bool.and_eq_true, decide_eq_true_eq, bne_iff_ne]
    tauto
  obtain ⟨hnodup, hmem, -⟩ := hlist
  refine ⟨fun h => ?_, fun h => ?_⟩
  · exact Node.shedAll_svc_of_mem (n := n.setEconomy true) hnodup ((hmem id).2 ⟨v, hv, h⟩) hv .economy
  · refine (Node.shedAll_svc_of_not_mem (fun hid => h ?_) (n.setEconomy true) .economy).trans hv
    obtain ⟨u, hu, hwhich⟩ := (hmem id).1 hid
    rw [hv] at hu
    cases hu
    exact hwhich
theorem Node.economyShed_isSome (n : Node) (id : Nat) : (n.economyShed.svc id).isSome = (n.svc id).isSome := by
  have hall (ids : List Nat) (m : Node) : ((m.shedAll ids .economy).svc id).isSome = (m.svc id).isSome := by
    induction ids generalizing m with
    | nil => rfl
    | cons j ids ih => exact (ih _).trans (m.shedId_isSome j .economy id)
  exact hall _ (n.setEconomy true)
theorem Node.economyShed_frugal {n : Node} (w : n.ByIds) : n.economyShed.Frugal := by
  refine ⟨((n.setEconomy true).shedAll_settings _ .economy).2, fun id u hu hlevel => ?_⟩
  have hsome : (n.svc id).isSome = true := by rw [← n.economyShed_isSome, hu]; rfl
  obtain ⟨v, hv⟩ := Option.isSome_iff_exists.1 hsome
  obtain ⟨hshed, hsame⟩ := Node.economyShed_records w hv
  by_cases h : v.state ≠ .shed ∧ 2 ≤ v.level
  · obtain ⟨k, hk⟩ := hshed h
    rw [hk] at hu
    cases hu
    rfl
  · rw [hsame h] at hu
    cases hu
    exact by_contra fun hne => h ⟨hne, hlevel⟩

end Sys2Proof.Machine
end

section
/-! SUPPORT. Economy mode kept by every step (R88, R105): what is placed is of level 0 or 1 or finds economy mode off, and what is
shed owns no cell. -/

namespace Sys2Proof.Machine

namespace EconomyHolds

variable {n m : Node} {v : Service}

theorem of_svc (w : n.ByIds) (hshed : ∀ id v, n.svc id = some v → v.state = .shed → v.cells = [])
    (heco : n.au.economy = true → ∀ id v, n.svc id = some v → 2 ≤ v.level → v.state = .shed) : EconomyHolds n :=
  ⟨fun v hv => hshed v.id v (w.svc_of_mem hv), fun hon v hv => heco hon v.id v (w.svc_of_mem hv)⟩
theorem congr (e : EconomyHolds n) (h : m.au = n.au) : EconomyHolds m := by
  obtain ⟨hshed, heco⟩ := e
  exact ⟨by rw [h]; exact hshed, by rw [h]; exact heco⟩
theorem puts (e : EconomyHolds n) (h : n.Puts v m) (hshed : v.state = .shed → v.cells = [])
    (heco : n.au.economy = true → 2 ≤ v.level → v.state = .shed) : EconomyHolds m := by
  have hmem {u : Service} (hu : u ∈ m.au.services) : u = v ∨ u ∈ n.au.services := by
    rw [h.services, Node.putSvc_au] at hu
    exact ((mem_insertBy _ _ _ _).1 hu).imp_right fun hf => (List.mem_filter.1 hf).1
  refine ⟨fun u hu hst => ?_, fun hon u hu hlevel => ?_⟩
  · rcases hmem hu with rfl | hu
    · exact hshed hst
    · exact e.shed u hu hst
  · rw [h.economy] at hon
    rcases hmem hu with rfl | hu
    · exact heco hon hlevel
    · exact e.economy hon u hu hlevel
theorem sheds {lv : Nat} (e : EconomyHolds n) (h : n.Sheds lv m) : EconomyHolds m := by
  refine .of_svc h.byIds (fun id u hu hst => ?_) fun hon id u hu hlevel => ?_
  · rcases h.records id with hsame | ⟨_, _, -, -, hk⟩
    · exact e.shed u (Node.mem_of_svc (hsame ▸ hu)) hst
    · rw [hk] at hu
      cases hu
      rfl
  · rw [h.economy] at hon
    rcases h.records id with hsame | ⟨_, _, -, -, hk⟩
    · exact e.economy hon u (Node.mem_of_svc (hsame ▸ hu)) hlevel
    · rw [hk] at hu
      cases hu
      rfl

end EconomyHolds

/-! ## The pass, the reroute and the return -/

theorem economyHolds_passMoves : Node.PassMoves fun n m => EconomyHolds n → EconomyHolds m where
  refl _ e := e
  trans h k e := k (h e)
  call _ hshed hput e := (e.sheds hshed).puts hput nofun nofun
  restored _ _ _ heco _ hplaced hput e :=
    e.puts hput (fun hst => absurd hst hplaced) fun hon hlevel => absurd ⟨hon, hlevel⟩ heco
  grown _ hv hst hput e := e.puts hput nofun fun hon hlevel => by
    rw [e.economy hon _ (Node.mem_of_svc hv) hlevel] at hst
    cases hst
  home {n m v cells} _ hv _ hst _ _ hput e :=
    e.puts hput (fun hs => absurd hs hst) fun hon hlevel => e.economy hon v (Node.mem_of_svc hv) hlevel

/-- A mover of level 0 or 1, or one moved with economy mode off, keeps economy mode. -/
theorem EconomyHolds.rerouteOne {n : Node} (e : EconomyHolds n) (w : n.ByIds) (x : Side) {id : Nat}
    (hlow : n.au.economy = true → ∀ v, n.svc id = some v → v.level < 2) : EconomyHolds (n.rerouteOne x id) := by
  cases hv : n.svc id with
  | none => rw [Node.rerouteOne_none hv]; exact e
  | some v =>
    obtain rfl := Node.svc_id hv
    rcases Node.rerouteOne_cases w hv x with ⟨k, hput⟩ | ⟨left, st, cells, hleft, hplaced, hput⟩
    · exact e.puts hput (fun _ => rfl) fun _ _ => rfl
    · have hfree : EconomyHolds (n.freeHalves v) :=
        e.puts (n.freeHalves_puts v) (fun _ => rfl) fun hon hlevel => e.economy hon v (Node.mem_of_svc hv) hlevel
      refine (hfree.sheds hleft).puts hput (fun hst => absurd hst hplaced) fun hon (hlevel : 2 ≤ v.level) => ?_
      rw [hleft.economy] at hon
      exact absurd (hlow hon v hv) (Nat.not_lt.2 hlevel)
theorem EconomyHolds.movers {n : Node} (e : EconomyHolds n) (w : n.ByIds) (x : Side) {ids : List Nat}
    (hlow : n.au.economy = true → ∀ id ∈ ids, ∀ v, n.svc id = some v → v.level < 2) :
    EconomyHolds (ids.foldl (fun n id => n.rerouteOne x id) n) ∧ (ids.foldl (fun n id => n.rerouteOne x id) n).ByIds := by
  induction ids generalizing n with
  | nil => exact ⟨e, w⟩
  | cons id ids ih =>
    have hmoved := Node.rerouteOne_moversFrom w x id
    refine ih (e.rerouteOne w x fun hon => hlow hon id List.mem_cons_self) hmoved.byIds fun hon j hj u hu => ?_
    rw [hmoved.economy] at hon
    obtain ⟨v, hv, hlevel, -⟩ := Node.svc_of_castOf ((hmoved.casts j).symm.trans (Node.castOf_of_svc hu))
    exact hlevel ▸ hlow hon j (List.mem_cons_of_mem _ hj) v hv
theorem EconomyHolds.reroute {n : Node} (e : EconomyHolds n) (w : n.ByIds) (x : Side) : EconomyHolds (n.reroute x) := by
  by_cases h : n.moversFrom x = []
  · rw [Node.reroute_none h]; exact e
  · rw [Node.reroute_pass h]
    obtain ⟨hmoved, wm⟩ := e.movers w x (ids := n.moversFrom x) fun hon id hid v hv => by
      obtain ⟨u, hu, -, hst, -⟩ := ((w.listed_movers x).2.1 id).1 hid
      rw [hv] at hu
      cases hu
      exact Nat.not_le.1 fun hlevel => hst (e.economy hon v (Node.mem_of_svc hv) hlevel)
    exact economyHolds_passMoves.pass wm hmoved

theorem Order.take_zero (o : Order) (usable : List Nat) : o.take 0 usable = [] := by
  simp [Order.take]
/-- A service brought home keeps its state; a SHED one would take no cell. -/
theorem EconomyHolds.revertOne {n : Node} (e : EconomyHolds n) (id : Nat) : EconomyHolds (n.revertOne id) := by
  cases hv : n.svc id with
  | none => rw [Node.revertOne_none hv]; exact e
  | some v =>
    have hmem := Node.mem_of_svc hv
    cases hc : n.plainCells v v.primary v.cells.length with
    | none => rw [Node.revertOne_blocked hv hc]; exact e.congr rfl
    | some cells =>
      rw [Node.revertOne_home hv hc]
      have hput : n.Puts { v with current := some v.primary, cells := cells } (n.broughtHome v cells) := ⟨rfl, rfl, rfl, rfl⟩
      refine e.puts hput (fun hst => ?_) fun hon hlevel => e.economy hon v hmem hlevel
      rw [e.shed v hmem hst] at hc
      exact (Node.plainCells_eq_some.1 hc).2.trans (v.order.take_zero _)
theorem EconomyHolds.revert {n : Node} (e : EconomyHolds n) (w : n.ByIds) (x : Side) : EconomyHolds (n.revert x) := by
  have hfold (l : List Nat) (n : Node) (e : EconomyHolds n) : EconomyHolds (l.foldl Node.revertOne n) := by
    induction l generalizing n with
    | nil => exact e
    | cons id l ih => exact ih _ (e.revertOne id)
  exact economyHolds_passMoves.pass ((Node.Traffic.foldl _ Node.revertOne_traffic _ _).services w) (hfold _ n e)

/-! ## Definitions and ECONOMY -/

theorem EconomyHolds.defineShed {n : Node} (e : EconomyHolds n) {v : Service} (hv : v.cells = []) (why : ShedReason) :
    EconomyHolds (n.defineShed v why) := by
  have hput : n.Puts { v with state := .shed, reason := some why, shedNo := some n.nextShed } (n.defineShed v why) :=
    ⟨rfl, rfl, rfl, rfl⟩
  exact e.puts hput (fun _ => hv) fun _ _ => rfl
theorem Node.definedAt_puts (r : Room) (v : Service) (x : Side) :
    r.node.Puts (v.placedAs x r.state (min 4294967295 (r.node.au.admCounter + 1)) r.cells) (Node.definedAt r v x) := by
  have hplace : r.node.Puts (v.placedAs x r.state (min 4294967295 (r.node.au.admCounter + 1)) r.cells)
      (Node.placeNew r v x) := by
    unfold Service.placedAs
    rw [← v.prot.current_eq x]
    exact ⟨rfl, rfl, rfl, rfl⟩
  exact (hplace.of_au (k := (Node.placeNew r v x).openPe v.id) rfl rfl).offers (Node.svcEventOf_offers _ _ _ _)
theorem EconomyHolds.define {n m : Node} (e : EconomyHolds n) (w : n.ByIds) {v : Service} (hv : v.cells = [])
    (h : n.define v = some m) : EconomyHolds m := by
  by_cases hadm : n.Admissible v
  · cases hside : n.targetSide v with
    | none =>
      rw [Node.define_no_side hadm hside] at h
      cases h
      exact e.defineShed hv _
    | some x =>
      cases hr : n.attempts v x (v.fullAttempts ++ v.floorAttempts) with
      | none =>
        rw [Node.define_no_room hadm hside hr] at h
        split at h
        · cases h; exact e.defineShed hv _
        · cases h
      | some r =>
        rw [Node.define_placed hadm hside hr] at h
        cases h
        obtain ⟨hleft, t, ht, hstate⟩ := Node.attempts_sheds w hr
        refine (e.sheds hleft).puts (Node.definedAt_puts r v x) (fun hst => ?_) fun hon hlevel => ?_
        · exact absurd (hstate.symm.trans hst) (Service.attempt_placed ht)
        · rw [hleft.economy] at hon
          rcases hadm with hoff | hlow
          · rw [hoff] at hon; cases hon
          · exact absurd hlow (Nat.not_lt.2 hlevel)
  · obtain ⟨hon, hlevel⟩ := not_or.1 hadm
    rw [Node.define_economy (by simpa using hon) (Nat.not_lt.1 hlevel)] at h
    cases h
    exact e.defineShed hv _
theorem EconomyHolds.economyShed {n : Node} (e : EconomyHolds n) (w : n.ByIds) : EconomyHolds n.economyShed := by
  refine .of_svc (Node.economyShed_byIds w) (fun id u hu hst => ?_) fun _ => (Node.economyShed_frugal w).shed
  have hsome : (n.svc id).isSome = true := by rw [← n.economyShed_isSome, hu]; rfl
  obtain ⟨v, hv⟩ := Option.isSome_iff_exists.1 hsome
  obtain ⟨hshed, hsame⟩ := Node.economyShed_records w hv
  by_cases h : v.state ≠ .shed ∧ 2 ≤ v.level
  · obtain ⟨k, hk⟩ := hshed h
    rw [hk] at hu
    cases hu
    rfl
  · rw [hsame h] at hu
    cases hu
    exact e.shed _ (Node.mem_of_svc hv) hst

/-! ## Every step -/

/-- Economy mode is kept by each operation of the admission unit, in a table that lists each id once. -/
theorem Node.AuRun.economy {n m : Node} (h : n.AuRun m) (w : n.ByIds) (e : EconomyHolds n) : m.ByIds ∧ EconomyHolds m := by
  induction h with
  | quiet h => exact ⟨by rw [Node.ByIds, h]; exact w, e.congr h⟩
  | trans _ _ ih ih' =>
    obtain ⟨w, e⟩ := ih w e
    exact ih' w e
  | powerOn n =>
    exact ⟨.nil, ⟨fun _ hv => absurd hv List.not_mem_nil, fun _ _ hv => absurd hv List.not_mem_nil⟩⟩
  | call h =>
    obtain ⟨left, x, k, cells, hleft, hput⟩ := Node.callPlacement_puts w h
    exact ⟨hput.byIds hleft.byIds, (e.sheds hleft).puts hput nofun nofun⟩
  | pass n => exact ⟨n.pass_traffic.services w, economyHolds_passMoves.pass w e⟩
  | reroute n x => exact ⟨(n.reroute_traffic x).services w, e.reroute w x⟩
  | revert n x => exact ⟨(n.revert_traffic x).services w, e.revert w x⟩
  | vacated n v =>
    refine ⟨(n.vacated_traffic v).services w, ?_⟩
    have hmem {u : Service} (hu : u ∈ (n.vacated v).au.services) : u ∈ n.au.services := by
      rw [n.vacated_services v] at hu
      exact (List.mem_filter.1 hu).1
    refine ⟨fun u hu => e.shed u (hmem hu), fun hon u hu => e.economy ?_ u (hmem hu)⟩
    rw [← (n.vacated_settings v).2.1]; exact hon
  | define h => exact ⟨(Node.define_traffic h).services w, e.define w rfl h⟩
  | levels => exact ⟨w, ⟨e.shed, e.economy⟩⟩
  | economyEnter n => exact ⟨Node.economyShed_byIds w, e.economyShed w⟩
  | economyLeave n => exact ⟨w, ⟨e.shed, nofun⟩⟩
  | start n =>
    have hmem {P : Service → Prop} (hP : ∀ v ∈ n.au.services, P v.renumber) : ∀ v ∈ n.startValues.au.services, P v := by
      intro v hv
      obtain ⟨u, hu, rfl⟩ := List.mem_map.1 hv
      exact hP u hu
    exact ⟨List.pairwise_map.2 w, ⟨hmem e.shed, fun hon => hmem (e.economy hon)⟩⟩
  | add n cells => exact ⟨w, ⟨e.shed, e.economy⟩⟩
  | remove n cells => exact ⟨w, ⟨e.shed, e.economy⟩⟩

/-- Settles O8: a step is a run of the admission unit's operations, each of which keeps economy mode. -/
theorem stepKeepsEconomyMode : Obligations.StepKeepsEconomyMode := by
  intro s t tables e h
  exact ((Node.AuRun.step h).economy tables.byIds e).2

end Sys2Proof.Machine
end

section
/-! SUPPORT. A side that is lost (R100 to R102): each mover as the obligation states it, and what no pass undoes while the side is
not usable. -/

namespace Sys2Proof.Machine

/-! ## One mover as the obligation states it (R101) -/

/-- What a grant takes without pre-emption or else, where the level may pre-empt, with it. -/
def Node.room (n : Node) (v : Service) (x : Side) (g : Nat) : Option (Node × List Nat) :=
  match n.plainCells v x g with
  | some cells => some (n, cells)
  | none => if n.au.map.mayPreempt v.level then n.preemptCells v x g else none

section room
variable {n : Node} {v : Service} {x : Side} {g : Nat} {st : SvcState} {rest : List Attempt}

theorem Node.attempts_of_room {r : Node × List Nat} (h : n.room v x g = some r) :
    n.attempts v x (attemptsAt g st ++ rest) = some ⟨r.1, r.2, st⟩ := by
  unfold Node.room at h
  cases hc : n.plainCells v x g with
  | some cells =>
    rw [hc] at h
    cases h
    exact Node.attempts_of_plain hc
  | none =>
    rw [hc] at h
    obtain ⟨hmay, hr⟩ := Option.ite_none_right_eq_some.1 h
    exact Node.attempts_of_preempt hc hmay hr
theorem Node.attempts_of_no_room (h : n.room v x g = none) :
    n.attempts v x (attemptsAt g st ++ rest) = n.attempts v x rest := by
  unfold Node.room at h
  cases hc : n.plainCells v x g with
  | some cells => rw [hc] at h; cases h
  | none =>
    rw [hc] at h
    refine Node.attempts_of_fails hc fun hmay => ?_
    rw [← h]
    exact (if_pos hmay).symm
theorem Node.attempts_floor (n : Node) (v : Service) (x : Side) :
    n.attempts v x v.floorAttempts = (v.floor.bind (n.room v x)).map fun r => ⟨r.1, r.2, .reduced⟩ := by
  cases hf : v.floor with
  | none => unfold Service.floorAttempts; rw [hf]; rfl
  | some f =>
    have htries : v.floorAttempts = attemptsAt f .reduced ++ [] := by unfold Service.floorAttempts; rw [hf]; rfl
    rw [htries, Option.bind_some]
    cases hr : n.room v x f with
    | none => exact Node.attempts_of_no_room hr
    | some r => exact Node.attempts_of_room hr

end room

theorem setOwner_freed (m : List HalfEntry) (id : Nat) : setOwner m id {} = m.map fun e =>
    { e with a := if e.a = some id then none else e.a, b := if e.b = some id then none else e.b } :=
  List.map_congr_left fun e _ => by simp [ownHalf_eq]

/-- The record of a mover whose halves are freed. -/
def Service.bare (v : Service) : Service := { v with cells := [] }
/-- The node in which a mover has taken its cells on the other side. -/
def Node.movedFrom (x : Side) (v : Service) (st : SvcState) (r : Node × List Nat) : Node :=
  (r.1.takeCells { v with current := some x.other, state := st, cells := r.2 } r.2).svcEvent
    { v with current := some x.other, state := st, cells := r.2 } (some v.state) .rerouted

/-- What a mover takes: room for its full grant, or else for its floor grant; or else it is shed. -/
def Node.moverTakes (x : Side) (v : Service) (full floor : Option (Node × List Nat)) (shed : Node) : Node :=
  match full with
  | some r => Node.movedFrom x v .active r
  | none =>
    match floor with
    | some r => Node.movedFrom x v .reduced r
    | none => shed

theorem Node.moverTakes_floor (x : Side) (v : Service) (floor : Option (Node × List Nat)) (shed : Node) :
    Node.moverTakes x v none floor shed = (floor.map fun r => (⟨r.1, r.2, .reduced⟩ : Room)).elim shed fun r =>
      Node.movedFrom x v r.state (r.node, r.cells) := by
  cases floor with
  | none => rfl
  | some r => rfl

section mover
variable {n : Node} {v : Service}

/-- The mover of the obligation, its halves freed, looks for room for its full grant or else for its floor grant. -/
theorem moverServed_of_svc (hv : n.svc v.id = some v) (x : Side) : moverServed x n v.id =
    if n.usable x.other = true then
      Node.moverTakes x v (if v.state = .reduced then none else (n.freeHalves v).room v.bare x.other v.full)
        (v.floor.bind ((n.freeHalves v).room v.bare x.other)) ((n.freeHalves v).shed v.bare .pathLost)
    else (n.freeHalves v).shed v.bare .pathLost := by
  unfold moverServed
  rw [hv]
  dsimp only
  rw [← setOwner_freed, ← ite_not]
  refine if_congr ?_ rfl rfl
  rw [n.usable_iff]
  simp only [Bool.or_eq_true, beq_iff_eq]
  tauto
/-- The mover of the model makes its attempts in turn. -/
theorem Node.rerouteOne_of_svc (hv : n.svc v.id = some v) (x : Side) : n.rerouteOne x v.id =
    if n.usable x.other = true then
      ((n.freeHalves v).attempts v.bare x.other
        (if v.state = .reduced then v.bare.floorAttempts else v.bare.fullAttempts ++ v.bare.floorAttempts)).elim
        ((n.freeHalves v).shed v.bare .pathLost) fun r => Node.movedFrom x v r.state (r.node, r.cells)
    else (n.freeHalves v).shed v.bare .pathLost := by
  unfold Node.rerouteOne
  rw [hv]
  dsimp only
  refine if_congr Iff.rfl ?_ rfl
  simp only [Service.bare]
  split
  · rename_i r hr
    rw [hr]
    exact r.node.takeCells_event _ r.cells _ _
  · rename_i hr
    rw [hr]
    rfl

end mover

/-- The mover of the obligation is the model's: an attempt succeeds where there is room. -/
theorem Node.rerouteOne_served (n : Node) (x : Side) (id : Nat) : n.rerouteOne x id = moverServed x n id := by
  cases hv : n.svc id with
  | none => rw [Node.rerouteOne_none hv, moverServed, hv]
  | some v =>
    obtain rfl := Node.svc_id hv
    have hfull : v.bare.fullAttempts = attemptsAt v.full .active := rfl
    rw [Node.rerouteOne_of_svc hv, moverServed_of_svc hv]
    refine if_congr Iff.rfl ?_ rfl
    by_cases hred : v.state = .reduced
    · rw [if_pos hred, if_pos hred, Node.attempts_floor, Node.moverTakes_floor]
      rfl
    · rw [if_neg hred, if_neg hred, hfull]
      cases hr : (n.freeHalves v).room v.bare x.other v.full with
      | some r => rw [Node.attempts_of_room hr]; rfl
      | none => rw [Node.attempts_of_no_room hr, Node.attempts_floor, Node.moverTakes_floor]; rfl

/-! ## What the pass does not undo (R102) -/

theorem Node.usable_congr {n m : Node} (h : m.path = n.path) (x : Side) : m.usable x = n.usable x := by
  rw [Node.usable, Node.pathOf, h, Node.usable, Node.pathOf]

/-- A side that is not usable has no REROUTE service placed on it. -/
structure Node.Left (x : Side) (n : Node) : Prop where
  lost : n.usable x = false
  gone : ∀ id v, n.svc id = some v → v.prot = .reroute → v.state ≠ .shed → v.current ≠ some x
/-- The REROUTE service of this id is SHED or on the other side. -/
def Node.Elsewhere (x : Side) (n : Node) (id : Nat) : Prop :=
  ∃ v, n.svc id = some v ∧ v.prot = .reroute ∧ (v.state = .shed ∨ v.current = some x.other)

section left
variable {x : Side} {n m : Node} {v : Service} {lv id : Nat}

theorem Side.eq_other {y : Side} (h : y ≠ x) : y = x.other := by
  cases x with
  | a => cases y with
    | a => exact absurd rfl h
    | b => rfl
  | b => cases y with
    | a => rfl
    | b => exact absurd rfl h

theorem Node.Left.ne (e : n.Left x) {y : Side} (h : n.usable y = true) : y ≠ x := by
  rintro rfl
  rw [e.lost] at h
  cases h
theorem Node.Left.puts (e : n.Left x) (h : n.Puts v m) (hv : v.prot = .reroute → v.state ≠ .shed → v.current ≠ some x) :
    m.Left x := by
  refine ⟨(Node.usable_congr h.path x).trans e.lost, fun id u hu => ?_⟩
  by_cases hid : id = v.id
  · rw [hid, h.svc] at hu
    cases hu
    exact hv
  · exact e.gone id u (h.svc_ne hid ▸ hu)
theorem Node.Left.sheds (e : n.Left x) (h : n.Sheds lv m) : m.Left x := by
  refine ⟨(Node.usable_congr h.path x).trans e.lost, fun id u hu => ?_⟩
  rcases h.records id with hsame | ⟨w, k, -, -, hk⟩
  · exact e.gone id u (hsame ▸ hu)
  · rw [hk] at hu
    cases hu
    exact fun _ hst => absurd rfl hst
theorem Node.Elsewhere.puts (e : n.Elsewhere x id) (h : n.Puts v m)
    (hv : id = v.id → v.prot = .reroute ∧ (v.state = .shed ∨ v.current = some x.other)) : m.Elsewhere x id := by
  by_cases hid : id = v.id
  · exact ⟨v, hid ▸ h.svc, hv hid⟩
  · exact e.imp fun u hu => ⟨(h.svc_ne hid).trans hu.1, hu.2⟩
theorem Node.Elsewhere.sheds (e : n.Elsewhere x id) (h : n.Sheds lv m) : m.Elsewhere x id := by
  obtain ⟨v, hv, hprot, hwhere⟩ := e
  rcases h.records id with hsame | ⟨w, k, hw, -, hk⟩
  · exact ⟨v, hsame.trans hv, hprot, hwhere⟩
  · rw [hv] at hw
    cases hw
    exact ⟨_, hk, hprot, .inl rfl⟩

/-- The record of this id, as the table shows it. -/
theorem Node.Elsewhere.of_svc (e : n.Elsewhere x id) (h : n.svc id = some v) :
    v.prot = .reroute ∧ (v.state = .shed ∨ v.current = some x.other) := by
  obtain ⟨u, hu, hwhere⟩ := e
  rw [h] at hu
  cases hu
  exact hwhere
/-- A REROUTE service is placed on a usable side (R76). -/
theorem Node.usable_of_targetSide {y : Side} (h : n.targetSide v = some y) (hprot : v.prot = .reroute) : n.usable y = true := by
  rw [Node.targetSide_eq] at h
  split at h
  · rename_i hwhere
    cases h
    exact hwhere.resolve_left (by rw [hprot]; nofun)
  · split at h
    · rename_i hother; cases h; exact hother
    · cases h

end left

/-- While a side is not usable, no move of a pass places a REROUTE service on it (R76, R98, R99). -/
theorem left_passMoves (x : Side) : Node.PassMoves fun n m =>
    n.Left x → m.Left x ∧ ∀ id < 56, n.Elsewhere x id → m.Elsewhere x id where
  refl _ e := ⟨e, fun _ _ => id⟩
  trans h k e := by
    obtain ⟨e', hids⟩ := h e
    obtain ⟨e'', hids'⟩ := k e'
    exact ⟨e'', fun id hid => hids' id hid ∘ hids id hid⟩
  call _ hshed hput e := by
    refine ⟨(e.sheds hshed).puts hput nofun, fun id hid he => (he.sheds hshed).puts hput ?_⟩
    rintro rfl
    exact absurd hid (Nat.not_lt.2 (Nat.le_add_right 56 _))
  restored {n m v y st k cells} _ hv hshed _ hside _ hput e := by
    have hcur (hprot : v.prot = .reroute) : (v.placedAs y st k cells).current = some y := if_neg (by rw [hprot]; nofun)
    have hne (hprot : v.prot = .reroute) : y ≠ x := e.ne (Node.usable_of_targetSide hside hprot)
    refine ⟨e.puts hput fun hprot _ => ?_, fun id _ he => he.puts hput ?_⟩
    · rw [hcur hprot]
      exact fun hx => hne hprot (Option.some.inj hx)
    · rintro rfl
      have hprot := (he.of_svc hv).1
      exact ⟨hprot, .inr ((hcur hprot).trans (congrArg some (Side.eq_other (hne hprot))))⟩
  grown {n m v cells} _ hv hst hput e := by
    have hplaced : v.state ≠ .shed := by rw [hst]; nofun
    refine ⟨e.puts hput fun hprot _ => e.gone v.id v hv hprot hplaced, fun id _ he => he.puts hput ?_⟩
    rintro rfl
    obtain ⟨hprot, hwhere⟩ := he.of_svc hv
    exact ⟨hprot, .inr (hwhere.resolve_left hplaced)⟩
  home {n m v cells} _ hv hprot _ _ hreach hput e := by
    have hne : v.primary ≠ x := e.ne (Node.usable_of_reachable hreach)
    refine ⟨e.puts hput fun _ _ hx => hne (Option.some.inj hx), fun id _ he => he.puts hput fun _ => ⟨hprot, .inr ?_⟩⟩
    exact congrArg some (Side.eq_other hne)

/-- The movers of a lost side leave it. -/
theorem Node.MoversFrom.left {n m : Node} {x : Side} (h : n.MoversFrom x (n.moversFrom x) m) (w : n.ByIds)
    (hlost : n.usable x = false) : m.Left x ∧ ∀ id ∈ n.moversFrom x, m.Elsewhere x id := by
  have hlist := (w.listed_movers x).2.1
  refine ⟨⟨(Node.usable_congr h.path x).trans hlost, fun id v hv hprot hst hcur => ?_⟩, fun id hid => ?_⟩
  · have hstays : v.current ≠ some x.other := fun hx => Side.ne_other x (Option.some.inj (hcur.symm.trans hx))
    rcases h.records id with hsame | ⟨u, hu, hwhere⟩
    · have hid : id ∈ n.moversFrom x := (hlist id).2 ⟨v, hsame ▸ hv, hprot, hst, hcur⟩
      exact (h.movers id hid v hv).elim hst hstays
    · rw [hv] at hu
      cases hu
      exact hwhere.elim hst fun hx => hstays hx.2
  · obtain ⟨v, hv, hprot, -⟩ := (hlist id).1 hid
    obtain ⟨u, hu, -, hprot'⟩ := Node.svc_of_castOf ((h.casts id).trans (Node.castOf_of_svc hv))
    exact ⟨u, hu, hprot'.trans hprot, h.movers id hid u hu⟩
theorem Node.reroute_left {n : Node} (w : n.ByIds) {x : Side} (hlost : n.usable x = false) :
    (n.reroute x).Left x ∧ ∀ id ∈ n.moversFrom x, id < 56 → (n.reroute x).Elsewhere x id := by
  have hmoved := Node.reroutes_moversFrom w x (n.moversFrom x)
  obtain ⟨hleft, hids⟩ := hmoved.left w hlost
  by_cases hmovers : n.moversFrom x = []
  · rw [Node.reroute_none hmovers]
    rw [hmovers] at hleft
    rw [hmovers]
    exact ⟨hleft, nofun⟩
  · rw [Node.reroute_pass hmovers]
    obtain ⟨hleft', hids'⟩ := (left_passMoves x).pass hmoved.byIds hleft
    exact ⟨hleft', fun id hid hlow => hids' id hlow (hids id hid)⟩

/-- Settles O45: each mover leaves the lost side, and no move of the pass places a REROUTE service there. -/
theorem noRerouteServiceStaysOnALostSide : Obligations.NoRerouteServiceStaysOnALostSide := by
  intro s x hawake tables n first
  have w : n.ByIds := tables.byIds
  have w' : (n.auTook (.lost x)).ByIds := w
  refine ⟨fun hnot => ?_, fun hfirst hlost => ?_, fun hfirst => ?_⟩
  · rw [exec_pathLostReroute hawake, Node.auTakes_not_first (g := .lost x) hnot]
  · obtain ⟨hleft, hids⟩ := Node.reroute_left w' (x := x) hlost
    have hframe := (n.auTook (.lost x)).reroute_traffic x
    refine ⟨(n.auTook (.lost x)).reroute x, ?_, hframe.sig, fun v hv => ?_, fun v hv hlow hprot hcur hst => ?_,
      hframe.line, hframe.path, hframe.cfg, hframe.clk, hframe.op, hframe.runTime⟩
    · rw [exec_pathLostReroute hawake, Node.auTakes_first (g := .lost x) hfirst]
    · exact hleft.gone v.id v (Node.ByIds.svc_of_mem (hframe.services w') hv)
    · have hmover : v.id ∈ (n.auTook (.lost x)).moversFrom x :=
        ((w'.listed_movers x).2.1 v.id).2 ⟨v, w.svc_of_mem hv, hprot, hst, hcur⟩
      exact (hids v.id hmover hlow).imp fun u hu => ⟨hu.1, hu.2.2⟩
  · have hserved : moverServed x = fun n id => n.rerouteOne x id := (funext₂ fun n id => n.rerouteOne_served x id).symm
    refine ⟨(n.auTook (.lost x)).moversFrom x, w'.listed_movers x, fun hnone => ?_, fun hsome => ?_⟩
    · rw [exec_pathLostReroute hawake, Node.auTakes_first (g := .lost x) hfirst, Node.reroute_none hnone]
      rfl
    · rw [exec_pathLostReroute hawake, Node.auTakes_first (g := .lost x) hfirst, Node.reroute_pass hsome, hserved]
      rfl

end Sys2Proof.Machine
end

section
/-! SUPPORT. ECONOMY requests (R104 to R106): what each owner answers, and what no pass undoes while economy mode is on. -/

namespace Sys2Proof.Machine

/-! ## What the pass does not undo (R105) -/

theorem economy_passMoves : Node.PassMoves fun n m => m.au.economy = n.au.economy where
  refl _ := rfl
  trans h k := k.trans h
  call _ hshed hput := hput.economy.trans hshed.economy
  restored _ _ _ _ _ _ hput := hput.economy
  grown _ _ _ hput := hput.economy
  home _ _ _ _ _ _ hput := hput.economy

/-- Economy mode stays on, and each record of level 2 or 3 with an id below 56 stays as it is. -/
structure Node.StaysFrugal (n m : Node) : Prop where
  frugal : m.Frugal
  same : ∀ id < 56, ∀ v, n.svc id = some v → 2 ≤ v.level → m.svc id = some v

section frugal
variable {n m : Node} {v : Service}

theorem Node.Frugal.refl (e : n.Frugal) : n.StaysFrugal n := ⟨e, fun _ _ _ h _ => h⟩
theorem Node.StaysFrugal.trans {k : Node} (h : n.StaysFrugal m) (h' : m.StaysFrugal k) : n.StaysFrugal k :=
  ⟨h'.frugal, fun id hid v hv hlevel => h'.same id hid v (h.same id hid v hv hlevel) hlevel⟩
/-- A placed service is of level 0 or 1. -/
theorem Node.Frugal.low (e : n.Frugal) (hv : n.svc v.id = some v) (hst : v.state ≠ .shed) : v.level < 2 :=
  Nat.not_le.1 fun hlevel => hst (e.shed v.id v hv hlevel)
/-- A record of level 0 or 1 replaces one, or is a call's. -/
theorem Node.Frugal.puts (e : n.Frugal) (h : n.Puts v m) (hlow : v.level < 2)
    (hid : v.id < 56 → ∀ u, n.svc v.id = some u → u.level < 2) : n.StaysFrugal m := by
  refine ⟨⟨h.economy.trans e.on, fun id u hu hlevel => ?_⟩, fun id hlt u hu hlevel => ?_⟩
  · by_cases he : id = v.id
    · rw [he, h.svc] at hu
      cases hu
      exact absurd hlow (Nat.not_lt.2 hlevel)
    · exact e.shed id u (h.svc_ne he ▸ hu) hlevel
  · by_cases he : id = v.id
    · subst he
      exact absurd (hid hlt u hu) (Nat.not_lt.2 hlevel)
    · exact (h.svc_ne he).trans hu
/-- The placed service of this id, of level 0 or 1, has its record replaced. -/
theorem Node.Frugal.moves {w : Service} (e : n.Frugal) (hv : n.svc v.id = some v) (hlow : v.level < 2) (h : n.Puts w m)
    (hid : w.id = v.id) (hlevel : w.level = v.level) : n.StaysFrugal m := by
  refine e.puts h (hlevel ▸ hlow) fun _ u hu => ?_
  rw [hid, hv] at hu
  cases hu
  exact hlow
/-- Pre-emption sheds placed services alone. -/
theorem Node.Frugal.sheds {lv : Nat} (e : n.Frugal) (h : n.Sheds lv m) : n.StaysFrugal m := by
  refine ⟨⟨h.economy.trans e.on, fun id u hu hlevel => ?_⟩, fun id _ u hu hlevel => ?_⟩
  · rcases h.records id with hsame | ⟨_, _, -, -, hk⟩
    · exact e.shed id u (hsame ▸ hu) hlevel
    · rw [hk] at hu
      cases hu
      rfl
  · rcases h.records id with hsame | ⟨w, _, hw, helig, -⟩
    · exact hsame.trans hu
    · rw [hw] at hu
      cases hu
      exact absurd (e.shed id u hw hlevel) helig.1

end frugal

theorem frugal_passMoves : Node.PassMoves fun n m => n.Frugal → n.StaysFrugal m where
  refl _ e := e.refl
  trans h k e := (h e).trans (k (h e).frugal)
  call {n left m p x k cells} _ hshed hput e := by
    have hstays := e.sheds hshed
    refine hstays.trans (hstays.frugal.puts hput (Nat.zero_lt_two) fun hid => ?_)
    exact absurd hid (Nat.not_lt.2 (Nat.le_add_right 56 _))
  restored _ hv _ heco _ _ hput e := e.moves hv (Nat.not_le.1 fun hlevel => heco ⟨e.on, hlevel⟩) hput rfl rfl
  grown _ hv hst hput e := e.moves hv (e.low hv (by rw [hst]; nofun)) hput rfl rfl
  home _ hv _ hst _ _ hput e := e.moves hv (e.low hv hst) hput rfl rfl

/-! ## ENTER (R104) -/

theorem Node.enterEconomy_traffic (n : Node) : n.Traffic n.enterEconomy :=
  .ite n.economyShed_traffic (n.economyShed_traffic.trans n.economyShed.pass_traffic)
/-- The services shed by ECONOMY stay so through the pass. -/
theorem Node.enterEconomy_frugal {n : Node} (w : n.ByIds) : n.economyShed.StaysFrugal n.enterEconomy := by
  have hfrugal := Node.economyShed_frugal w
  unfold Node.enterEconomy
  dsimp only
  split
  · exact hfrugal.refl
  · exact frugal_passMoves.pass (Node.economyShed_byIds w) hfrugal

/-- The reply counts the placed services of levels 2 and 3. -/
theorem Node.economyVictims_eq (n : Node) :
    n.economyVictims = (n.au.services.filter fun v => decide (v.state ≠ .shed ∧ 2 ≤ v.level)).length := by
  unfold Node.economyVictims Node.placed
  rw [List.filter_filter]
  refine congrArg List.length (List.filter_congr fun v _ => ?_)
  rw [Bool.decide_and, decide_not, Bool.and_comm]
  rfl

/-! ## What each owner answers -/

section owners
variable {n : Node} {b : List Byte} (k : Link)

theorem economyChecks_passed (hlen : b.length = 1) (hform : f1 b 0 ≤ 1) : ∀ c ∈ economyChecks n b, c.1 = false := by
  simp [economyChecks, commonChecks, hlen, outside_eq_false (Nat.zero_le _) hform]
theorem ownEconomyEnter_off (hlen : b.length = 1) (hform : f1 b 0 = 0) (hoff : n.au.economy = false) :
    ownEconomyEnter k b n = { node := n.enterEconomy, reply := okReply (be1 1 ++ be1 n.economyVictims) } := by
  refine (checked_passed (economyChecks_passed hlen (by omega))).trans ?_
  rw [hoff]; rfl
theorem ownEconomyEnter_on (hlen : b.length = 1) (hform : f1 b 0 = 0) (hon : n.au.economy = true) :
    ownEconomyEnter k b n = { node := n, reply := okReply [0x01#8, 0x00#8] } := by
  refine (checked_passed (economyChecks_passed hlen (by omega))).trans ?_
  rw [hon]; rfl
theorem ownEconomyLeave_on (hlen : b.length = 1) (hform : f1 b 0 = 1) (hon : n.au.economy = true) :
    ownEconomyLeave k b n = { node := (n.setEconomy false).pass
                              reply := okReply (be1 0 ++ be1 (n.setEconomy false).passCounted.placed) } := by
  refine (checked_passed (economyChecks_passed hlen (by omega))).trans ?_
  rw [hon]; rfl
theorem ownEconomyLeave_off (hlen : b.length = 1) (hform : f1 b 0 = 1) (hoff : n.au.economy = false) :
    ownEconomyLeave k b n = { node := n, reply := okReply [0x00#8, 0x00#8] } := by
  refine (checked_passed (economyChecks_passed hlen (by omega))).trans ?_
  rw [hoff]; rfl

end owners

/-- Settles O44: a pass is its four steps, repeated while services return; what ECONOMY sheds, no move of the pass places; LEAVE
runs the pass with the flag cleared. -/
theorem economyModeKeepsHighLevelsShed : Obligations.EconomyModeKeepsHighLevelsShed := by
  refine ⟨fun n tables => Node.pass_runs tables.byIds, fun s i r hasks hkind hlen tables => ?_⟩
  intro n hit off
  have w : n.ByIds := tables.byIds
  refine ⟨fun hform hoff => ?_, fun hform hon => ?_, fun hform hon => ⟨?_, ?_⟩, fun hform hoff => ?_⟩
  · have hmine := isKindBut_of_form_zero hkind hform
    have hframe := n.enterEconomy_traffic
    have hstays := Node.enterEconomy_frugal w
    refine ⟨n.enterEconomy, ?_, hstays.frugal.on, fun v hv => ?_, fun v hv hid => ?_, hframe.line, hframe.path, hframe.cfg,
      hframe.clk, hframe.op, hframe.runTime⟩
    · have hcount : hit.length = n.economyVictims := n.economyVictims_eq.symm
      rw [hcount]
      exact handle_ok hasks hmine (ownEconomyEnter_off _ hlen hform hoff)
    · exact hstays.frugal.shed v.id v (Node.ByIds.svc_of_mem (hframe.services w) hv)
    · obtain ⟨hmem, hwhich⟩ := List.mem_filter.1 hv
      have hvictim : v.state ≠ .shed ∧ 2 ≤ v.level := of_decide_eq_true hwhich
      obtain ⟨k, hk⟩ := (Node.economyShed_records w (w.svc_of_mem hmem)).1 hvictim
      exact ⟨v.shedAs .economy k, hstays.same v.id hid _ hk hvictim.2, rfl, rfl, rfl⟩
  · exact handle_ok hasks (isKindBut_of_form_zero hkind hform) (ownEconomyEnter_on _ hlen hform hon)
  · exact handle_ok hasks (isKindWith_of_eq hkind hform) (ownEconomyLeave_on _ hlen (f1_of_getElem? hform) hon)
  · exact economy_passMoves.pass (n := off) w
  · exact handle_ok hasks (isKindWith_of_eq hkind hform) (ownEconomyLeave_off _ hlen (f1_of_getElem? hform) hoff)

end Sys2Proof.Machine
end

section
/-! SUPPORT. What the admission unit does to the call controller: a shed, a move and a growth leave it alone and keep the ids of the
service table, and a placement makes the service of one call (R82). -/

namespace Sys2Proof.Machine

/-- The call controller is left alone, and the table holds a record of the same ids as before. -/
structure Node.Recast (n m : Node) : Prop where
  cc : m.cc = n.cc
  held : ∀ id, (m.svc id).isSome = (n.svc id).isSome

namespace Node.Recast

theorem refl (n : Node) : n.Recast n := ⟨rfl, fun _ => rfl⟩
theorem trans {a b c : Node} (h : a.Recast b) (k : b.Recast c) : a.Recast c :=
  ⟨k.cc.trans h.cc, fun id => (k.held id).trans (h.held id)⟩
theorem foldl {α : Type} (f : Node → α → Node) (hf : ∀ (n : Node) (a : α), n.Recast (f n a)) (l : List α) (n : Node) :
    n.Recast (l.foldl f n) := by
  induction l generalizing n with
  | nil => exact refl n
  | cons a l ih => exact (hf n a).trans (ih _)
theorem of_au {n m : Node} (hau : m.au = n.au) (hcc : m.cc = n.cc) : n.Recast m :=
  ⟨hcc, fun id => by rw [Node.svc_congr (congrArg Admission.services hau)]⟩
theorem offers {n m : Node} (o : n.Offers m) : n.Recast m := of_au o.au o.cc
theorem puts {n m : Node} {v : Service} (h : n.Puts v m) (hcc : m.cc = n.cc) (hv : (n.svc v.id).isSome = true) :
    n.Recast m := by
  refine ⟨hcc, fun id => ?_⟩
  by_cases he : id = v.id
  · rw [he, h.svc, hv]; rfl
  · rw [h.svc_ne he]
theorem phone {n m : Node} (h : n.Recast m) (p : Fin 8) : m.phone p = n.phone p := by simp only [Node.phone, h.cc]

end Node.Recast

open Node.Recast

/-! ## Sheds and attempts (R88, R91 to R94) -/

theorem Node.shedId_recast (n : Node) (id : Nat) (why : ShedReason) : n.Recast (n.shedId id why) := by
  refine ⟨?_, n.shedId_isSome id why⟩
  unfold Node.shedId
  split
  · exact (n.shed_offers _ why).cc
  · rfl
theorem Node.attempts_recast {n : Node} {v : Service} {x : Side} {l : List Attempt} {r : Room} (h : n.attempts v x l = some r) :
    n.Recast r.node := by
  obtain ⟨t, -, hr⟩ := List.exists_of_findSome?_eq_some h
  rcases Node.attempt_cases hr with ⟨cells, -, rfl⟩ | ⟨-, m, cells, hm, rfl⟩
  · exact refl n
  · unfold Node.preemptCells at hm
    dsimp only at hm
    split at hm
    · cases hm; exact foldl _ (fun m id => m.shedId_recast id _) _ _
    · cases hm

/-! ## Placements (R82, R97 to R99) -/

theorem admitted_recast {n m : Node} {v : Service} (h : n.Recast m) (hv : (n.svc v.id).isSome = true) (cells : List Nat)
    (old : Option SvcState) (c : SvcCause) : n.Recast (admitted m v cells old c) :=
  h.trans (puts (admitted_puts m v cells old c) rfl ((h.held v.id).trans hv))
theorem restoredService_recast {n m : Node} {id : Nat} (h : restoredService n id = some m) : n.Recast m := by
  cases hv : n.svc id with
  | none => rw [restoredService_none hv] at h; cases h
  | some v =>
    obtain rfl := Node.svc_id hv
    rw [restoredService_eq hv] at h
    split at h
    · cases h
    · obtain ⟨x, -, hon⟩ := Option.bind_eq_some_iff.1 h
      obtain ⟨r, hr, rfl⟩ := Option.map_eq_some_iff.1 hon
      rw [Node.placeNew_event]
      refine (admitted_recast (Node.attempts_recast hr) ?_ _ _ _).trans
        (offers ((Node.transferPlaced_offers _ _).trans (Node.weatherPlaced_offers _ _)))
      exact congrArg Option.isSome hv
theorem grownService_recast {n m : Node} {id : Nat} (h : grownService n id = some m) : n.Recast m := by
  cases hv : n.svc id with
  | none => rw [grownService_none hv] at h; cases h
  | some v =>
    obtain rfl := Node.svc_id hv
    obtain ⟨cells, hput⟩ := grownService_puts hv h
    rw [grownService_eq hv] at h
    obtain ⟨_, -, rfl⟩ := Option.map_eq_some_iff.1 h
    exact puts hput rfl (congrArg Option.isSome hv)
theorem homeService_recast {n m : Node} {id : Nat} (h : homeService n id = some m) : n.Recast m := by
  cases hv : n.svc id with
  | none => rw [homeService_none hv] at h; cases h
  | some v =>
    obtain rfl := Node.svc_id hv
    obtain ⟨cells, hput⟩ := homeService_puts hv h
    rw [homeService_eq hv, Node.moveHome_eq] at h
    obtain ⟨_, -, rfl⟩ := Option.map_eq_some_iff.1 h
    exact puts hput rfl (congrArg Option.isSome hv)
theorem serveEach_recast {act : Node → Nat → Option Node} (hact : ∀ {a b : Node} {id : Nat}, act a id = some b → a.Recast b)
    (ids : List Nat) (n : Node) : n.Recast (serveEach act ids n).1 := by
  induction ids generalizing n with
  | nil => exact refl n
  | cons id ids ih =>
    unfold serveEach
    split
    · rename_i m hm; exact (hact hm).trans (ih m)
    · exact ih n

/-- A placement makes the record of the port's call service, and leaves the call controller and the ids of the table (R82). -/
structure Node.CallPlaced (n : Node) (p : Fin 8) (m : Node) : Prop where
  cc : m.cc = n.cc
  record : ∃ k cells, m.svc (callId p) = some (callRecord p (n.phone p).set.preferred k cells) ∧
    (TablesInOrder n → cells.length = 1)
  others : ∀ id, id ≠ callId p → (m.svc id).isSome = (n.svc id).isSome

/-- An attempt takes as many cells as its grant. -/
theorem Node.attempt_length {n : Node} {v : Service} {x : Side} {t : Attempt} {r : Room} (w : TablesInOrder n)
    (h : n.attempt v x t = some r) : r.cells.length = t.grant := by
  rcases Node.attempt_cases h with ⟨cells, hplain, rfl⟩ | ⟨-, m, cells, hm, rfl⟩
  · obtain ⟨hfeasible, rfl⟩ := Node.plainCells_eq_some.1 hplain
    exact (v.order.length_take _ (Node.cellsFor_ascending w.allotment _ _)).trans (min_eq_left hfeasible.1)
  · obtain ⟨added, kept, hp⟩ := Node.preempted w.byIds hm
    have hascending : m.au.allot.Pairwise (·.cell < ·.cell) := by
      have hcells := List.pairwise_map.2 w.allotment
      rw [← (Node.preemptCells_traffic hm).allotCells] at hcells
      exact List.pairwise_map.1 hcells
    rw [hp.cells]
    exact (v.order.length_take _ (Node.cellsFor_ascending hascending _ _)).trans (min_eq_left (hp.usable_enough w.byIds))
theorem Node.callPlacement_placed {n m : Node} {p : Fin 8} (h : n.callPlacement p = some m) : n.CallPlaced p m := by
  unfold Node.callPlacement at h
  dsimp only at h
  obtain ⟨r, hr, rfl⟩ := Option.map_eq_some_iff.1 h
  have hrecast := Node.attempts_recast hr
  obtain ⟨t, ht, hattempt⟩ := List.exists_of_findSome?_eq_some hr
  have hfull : t.grant = 1 ∧ t.state = .active := by
    rcases List.mem_pair.1 ht with rfl | rfl <;> exact ⟨rfl, rfl⟩
  have hactive : r.state = .active := by
    rcases Node.attempt_cases hattempt with ⟨cells, -, rfl⟩ | ⟨-, m, cells, -, rfl⟩ <;> exact hfull.2
  rw [Node.placeNew_event, hactive]
  have hput := admitted_puts r.node (callService p (n.phone p).set.preferred) r.cells none .defined
  exact ⟨hrecast.cc, ⟨_, _, hput.svc, fun w => (Node.attempt_length w hattempt).trans hfull.1⟩,
    fun id hid => by rw [← hrecast.held id]; exact congrArg Option.isSome (hput.svc_ne hid)⟩
theorem Node.CallPlaced.phone {n m : Node} {p : Fin 8} (h : n.CallPlaced p m) (q : Fin 8) : m.phone q = n.phone q := by
  simp only [Node.phone, h.cc]
theorem callId_injective {p q : Fin 8} (h : callId p = callId q) : p = q := Fin.ext (Nat.add_left_cancel h)

end Sys2Proof.Machine
end

section
/-! SUPPORT. Calls opened by a restoration pass (R96): every port that does not wait keeps its record and its service, and every port
its loop-detect capture. -/

namespace Sys2Proof.Machine

/-- The level accepted on a loop-detect input, and the changes that its last sample made due (R112 to R114). -/
def Phone.loop (ph : Phone) : Bool × Bool × Bool := (ph.level, ph.acceptDue, ph.hookDue)

/-- Calls of some ports have been opened: the other ports keep record and service, and all keep what loop-detect capture holds. -/
structure Node.Opens (ports : List (Fin 8)) (n m : Node) : Prop where
  waiting : m.cc.waiting ⊆ n.cc.waiting
  common : m.cc.common = n.cc.common
  phone : ∀ q, q ∉ ports → m.phone q = n.phone q
  service : ∀ q, q ∉ ports → (m.svc (callId q)).isSome = (n.svc (callId q)).isSome
  loop : ∀ q, (m.phone q).loop = (n.phone q).loop

namespace Node.Opens

variable {ports : List (Fin 8)}

theorem of_recast {n m : Node} (h : n.Recast m) : n.Opens ports m where
  waiting := by rw [h.cc]; exact List.Subset.refl _
  common := by rw [h.cc]
  phone q _ := h.phone q
  service q _ := h.held _
  loop q := by rw [h.phone]
theorem refl (n : Node) : n.Opens ports n := of_recast (.refl n)
theorem trans {a b c : Node} (h : a.Opens ports b) (k : b.Opens ports c) : a.Opens ports c where
  waiting := List.Subset.trans k.waiting h.waiting
  common := k.common.trans h.common
  phone q hq := (k.phone q hq).trans (h.phone q hq)
  service q hq := (k.service q hq).trans (h.service q hq)
  loop q := (k.loop q).trans (h.loop q)
theorem mono {more : List (Fin 8)} {n m : Node} (h : n.Opens ports m) (hsub : ports ⊆ more) : n.Opens more m :=
  ⟨h.waiting, h.common, fun q hq => h.phone q fun hin => hq (hsub hin), fun q hq => h.service q fun hin => hq (hsub hin), h.loop⟩

end Node.Opens

open Node.Opens

/-! ## What a call that opens leaves -/

@[simp] theorem Node.phone_callEvent (n : Node) (p : Fin 8) (old : CallState) (o : CallOutcome) (q : Fin 8) :
    (n.callEvent p old o).phone q = n.phone q := rfl
theorem Node.openCall_phone_ne (n : Node) {p q : Fin 8} (h : p ≠ q) : (n.openCall p).phone q = n.phone q :=
  Node.phone_setPhone_ne _ h _
theorem Node.openCall_phone (n : Node) (p : Fin 8) : (n.openCall p).phone p = { (n.phone p).stopCadence with
    call := .opened, origin := (n.phone p).origin.or (some .caller), start := (n.phone p).start.or (some n.runTime)
    selected := n.callSelection p, testDrive := false } := Node.phone_setPhone _ _ _
theorem Node.openCall_svc (n : Node) (p : Fin 8) (id : Nat) : (n.openCall p).svc id = n.svc id := rfl
theorem Node.openCall_waiting (n : Node) (p : Fin 8) : (n.openCall p).cc.waiting = n.cc.waiting.filter (· != p) := rfl
theorem Node.openCall_common (n : Node) (p : Fin 8) : (n.openCall p).cc.common = n.cc.common := rfl
theorem Node.openCall_loop (n : Node) (p q : Fin 8) : ((n.openCall p).phone q).loop = (n.phone q).loop := by
  by_cases h : p = q
  · rw [← h, n.openCall_phone]; rfl
  · rw [n.openCall_phone_ne h]

/-- A call placed and opened concerns its own port. -/
theorem Node.CallPlaced.opens {n m : Node} {p : Fin 8} {ports : List (Fin 8)} (h : n.CallPlaced p m) (hp : p ∈ ports) :
    n.Opens ports (m.openCall p) where
  waiting := by rw [m.openCall_waiting, h.cc]; exact List.filter_subset_self _
  common := (m.openCall_common p).trans (congrArg Calls.common h.cc)
  phone q hq := (m.openCall_phone_ne (ne_of_mem_of_not_mem hp hq)).trans (h.phone q)
  service q hq := h.others _ fun he => hq (callId_injective he ▸ hp)
  loop q := by rw [m.openCall_loop, h.phone]

/-! ## The pass (R95 to R99) -/

theorem serveCalls_opens {l ports : List (Fin 8)} (hl : l ⊆ ports) (n : Node) : n.Opens ports (serveCalls l n).1 := by
  induction l generalizing n with
  | nil => exact refl n
  | cons p l ih =>
    unfold serveCalls
    rw [← n.callPlacement_openCall]
    cases hm : n.callPlacement p with
    | none => exact refl n
    | some m =>
      exact ((Node.callPlacement_placed hm).opens (hl List.mem_cons_self)).trans (ih (List.subset_of_cons_subset hl) _)
theorem Pass.steps_opens (q : Pass) : q.node.Opens q.node.cc.waiting q.steps.node := by
  unfold Pass.steps
  simp only [passCalls_eq, foldl_restore, foldl_grow, foldl_home]
  exact (serveCalls_opens (List.Subset.refl _) _).trans (of_recast
    (((serveEach_recast restoredService_recast _ _).trans (serveEach_recast grownService_recast _ _)).trans
      (serveEach_recast homeService_recast _ _)))
theorem passLoop_opens (fuel : Nat) (q : Pass) : q.node.Opens q.node.cc.waiting (passLoop fuel q).node := by
  induction fuel generalizing q with
  | zero => exact refl _
  | succ fuel ih =>
    have hsteps := q.steps_opens
    unfold passLoop
    dsimp only
    split
    · exact hsteps.trans ((ih q.steps).mono hsteps.waiting)
    · exact hsteps
theorem Node.pass_opens (n : Node) : n.Opens n.cc.waiting n.pass := passLoop_opens _ { node := n }
/-- The pass of a release opens calls of waiting ports. -/
theorem Node.release_opens (n : Node) (v : Service) : (n.vacated v).Opens n.cc.waiting (n.release v) := by
  have hpass := (n.vacated v).pass_opens
  rw [(n.vacated_rest v).1] at hpass
  rw [Node.release_eq]
  exact hpass.trans (of_recast (.offers (Node.resumeIf_offers _ _)))

end Sys2Proof.Machine
end

section
/-! SUPPORT. The calls in order, port by port (R82, R120): which of it an event leaves as it is, and how a port whose call changes is in
order again. -/

namespace Sys2Proof.Machine

/-! ## One port in order -/

/-- A call's state with the kind of its timer and of its cadence. -/
def Phone.business (ph : Phone) : CallState × Option CallTimer × Option CadenceKind :=
  (ph.call, ph.timer.map (·.1), ph.cadence.map (·.kind))

/-- The table is in id order, and a record above id 55 is that of a call: ACTIVE, of level 0, DUAL (R64, R82, R120). -/
structure Node.Served (n : Node) : Prop where
  byIds : n.ByIds
  active : ∀ {id v}, n.svc id = some v → 56 ≤ id → v.state = .active ∧ v.level = 0 ∧ v.prot = .dual

/-- The port waits exactly while its call is QUEUED, its service exists exactly while its call holds it, and its timer and its
cadence run in their call state (R120, R123, R125, R126, R130). -/
structure Node.PortInOrder (n : Node) (p : Fin 8) : Prop where
  waiting : p ∈ n.cc.waiting ↔ (n.phone p).business.1 = .queued
  service : (n.phone p).business.1.holds = (n.svc (callId p)).isSome
  timer : ∀ k ∈ (n.phone p).business.2.1, (n.phone p).business.1 = k.runsIn
  cadence : ∀ k ∈ (n.phone p).business.2.2, (n.phone p).business.1 = k.runsIn

/-- The calls are in order but for the ports `off`. -/
structure CallsBut (off : List (Fin 8)) (n : Node) : Prop where
  served : n.Served
  once : n.cc.waiting.Nodup
  port : ∀ p, p ∉ off → n.PortInOrder p

theorem callId_ge (p : Fin 8) : 56 ≤ callId p := Nat.le_add_right 56 p.val
theorem Node.Served.low {n : Node} (w : n.Served) {id : Nat} {v : Service} (hv : n.svc id = some v)
    (h : v.state ≠ .active ∨ v.level ≠ 0 ∨ v.prot ≠ .dual) : id < 56 := by
  by_contra hid
  obtain ⟨hstate, hlevel, hprot⟩ := w.active hv (Nat.not_lt.1 hid)
  simp [hstate, hlevel, hprot] at h
/-- The services that a pre-emption sheds are of level 1 to 3, and so no calls (R67, R91). -/
theorem Node.Served.sheds {n m : Node} {lv : Nat} (w : n.Served) (h : n.Sheds lv m) (id : Nat) (hid : 56 ≤ id) :
    m.svc id = n.svc id := by
  rcases h.records id with hsame | ⟨u, k, hu, ⟨-, hlevel, -⟩, -⟩
  · exact hsame
  · exact absurd (w.low hu (.inr (.inl (Nat.ne_of_gt (Nat.zero_lt_of_lt hlevel))))) (Nat.not_lt.2 hid)
theorem callsBut_nil_iff {n : Node} : CallsBut [] n ↔ n.ByIds ∧ CallsInOrder n := by
  constructor
  · intro c
    refine ⟨c.served.byIds, c.once, fun p => (c.port p List.not_mem_nil).waiting, fun p => (c.port p List.not_mem_nil).service,
      fun v hv hid => c.served.active (c.served.byIds.svc_of_mem hv) hid, fun p t ht => ?_, fun p d hd => ?_⟩
    · exact (c.port p List.not_mem_nil).timer t.1 (Option.mem_map_of_mem _ ht)
    · exact (c.port p List.not_mem_nil).cadence d.kind (Option.mem_map_of_mem _ hd)
  · rintro ⟨w, c⟩
    refine ⟨⟨w, fun hv hid => c.active _ (Node.mem_of_svc hv) (Node.svc_id hv ▸ hid)⟩, c.once, fun p _ => ⟨c.waiting p,
      c.service p, fun k hk => ?_, fun k hk => ?_⟩⟩
    · obtain ⟨t, ht, rfl⟩ := Option.mem_map.1 hk
      exact c.timer p t ht
    · obtain ⟨d, hd, rfl⟩ := Option.mem_map.1 hk
      exact c.cadence p d hd

/-! ## What is left as it is -/

/-- The port's call, its place in the waiting list and its service are as they were. -/
structure Node.SamePort (p : Fin 8) (n m : Node) : Prop where
  waiting : p ∈ m.cc.waiting ↔ p ∈ n.cc.waiting
  business : (m.phone p).business = (n.phone p).business
  service : (m.svc (callId p)).isSome = (n.svc (callId p)).isSome

/-- Every port but those of `off` is as it was, and the table is one of services and calls still. -/
structure Node.PortsKept (off : List (Fin 8)) (n m : Node) : Prop where
  served : m.Served
  once : n.cc.waiting.Nodup → m.cc.waiting.Nodup
  same : ∀ p, p ∉ off → n.SamePort p m

theorem Node.PortInOrder.congr {n m : Node} {p : Fin 8} (o : n.PortInOrder p) (h : n.SamePort p m) : m.PortInOrder p := by
  obtain ⟨hwaiting, hservice, htimer, hcadence⟩ := o
  rw [← h.business] at hwaiting hservice htimer hcadence
  exact ⟨h.waiting.trans hwaiting, hservice.trans h.service.symm, htimer, hcadence⟩

namespace Node.PortsKept

variable {off : List (Fin 8)} {n m : Node}

/-- Only records below id 56 have changed. -/
theorem of_low (w : n.Served) (hids : m.ByIds) (hcc : m.cc = n.cc) (hsvc : ∀ id, 56 ≤ id → m.svc id = n.svc id) :
    n.PortsKept off m := by
  refine ⟨⟨hids, fun hv hid => w.active (hsvc _ hid ▸ hv) hid⟩, fun h => hcc ▸ h, fun p _ => ⟨by rw [hcc], ?_, ?_⟩⟩
  · simp only [Node.phone, hcc]
  · rw [hsvc _ (callId_ge p)]
theorem of_same (w : n.Served) (hservices : m.au.services = n.au.services) (hcc : m.cc = n.cc) : n.PortsKept off m :=
  of_low w (by rw [Node.ByIds, hservices]; exact w.byIds) hcc fun id _ => Node.svc_congr hservices id
/-- Call records have changed. -/
theorem of_calls (w : n.Served) (cc : Calls) (honce : n.cc.waiting.Nodup → cc.waiting.Nodup)
    (hwaiting : ∀ p, p ∉ off → (p ∈ cc.waiting ↔ p ∈ n.cc.waiting))
    (hphone : ∀ p : Fin 8, p ∉ off → cc.phones[p].business = (n.phone p).business) : n.PortsKept off { n with cc := cc } :=
  ⟨⟨w.byIds, w.active⟩, honce, fun p hp => ⟨hwaiting p hp, hphone p hp, rfl⟩⟩
/-- The port's record is replaced by one of the same call state, or it is a port of `off`. -/
theorem setPhone (w : n.Served) {p : Fin 8} {ph : Phone} (h : p ∉ off → ph.business = (n.phone p).business) :
    n.PortsKept off (n.setPhone p ph) := by
  refine of_calls w _ id (fun _ _ => Iff.rfl) fun q hq => ?_
  change ((n.setPhone p ph).phone q).business = _
  by_cases he : p = q
  · subst he; rw [Node.phone_setPhone, h hq]
  · rw [Node.phone_setPhone_ne n he]
theorem puts (w : n.Served) {v : Service} (h : n.Puts v m) (hcc : m.cc = n.cc) (hid : v.id < 56) : n.PortsKept off m :=
  of_low w (h.byIds w.byIds) hcc fun _ hle => h.svc_ne (Nat.ne_of_gt (Nat.lt_of_lt_of_le hid hle))
/-- A call's service is placed: the port is one of `off` (R82). -/
theorem placed (w : n.Served) {p : Fin 8} (h : n.callPlacement p = some m) (hp : p ∈ off) : n.PortsKept off m := by
  obtain ⟨left, x, k, cells, hleft, hput⟩ := Node.callPlacement_puts w.byIds h
  have hplaced := Node.callPlacement_placed h
  refine ⟨⟨hput.byIds hleft.byIds, fun {id v} hv hid => ?_⟩, fun honce => hplaced.cc ▸ honce, fun q hq => ?_⟩
  · by_cases he : id = callId p
    · subst he
      rw [show m.svc (callId p) = some (callRecord p x k cells) from hput.svc] at hv
      cases hv
      exact ⟨rfl, rfl, rfl⟩
    · rw [hput.svc_ne he, w.sheds hleft id hid] at hv
      exact w.active hv hid
  · refine ⟨by rw [hplaced.cc], by rw [hplaced.phone], hplaced.others _ fun he => hq (callId_injective he ▸ hp)⟩

end Node.PortsKept

end Sys2Proof.Machine
end

section
/-! SUPPORT. The calls kept in order by the operations of the admission unit: those that touch no call, the calls opened by a
placement, and the pass (R96). -/

namespace Sys2Proof.Machine

namespace CallsBut

variable {off : List (Fin 8)} {n m : Node} {p : Fin 8}

theorem kept (c : CallsBut off n) (h : n.PortsKept off m) : CallsBut off m :=
  ⟨h.served, h.once c.once, fun p hp => (c.port p hp).congr (h.same p hp)⟩
theorem congr (c : CallsBut off n) (hau : m.au = n.au) (hcc : m.cc = n.cc) : CallsBut off m :=
  c.kept (.of_same c.served (congrArg Admission.services hau) hcc)
theorem leave (c : CallsBut off n) (p : Fin 8) : CallsBut (p :: off) n :=
  ⟨c.served, c.once, fun q hq => c.port q fun h => hq (List.mem_cons_of_mem p h)⟩
/-- A port that is in order again, or was left out before, need not be left out. -/
theorem settled (c : CallsBut (p :: off) n) (h : p ∉ off → n.PortInOrder p) : CallsBut off n := by
  refine ⟨c.served, c.once, fun q hq => ?_⟩
  by_cases he : q = p
  · subst he; exact h hq
  · exact c.port q fun hin => (List.mem_cons.1 hin).elim he hq
theorem report (c : CallsBut off n) (b : ReportBody) : CallsBut off (n.report b) := c.congr rfl rfl

/-! ## A call that opens (R121, R122) -/

/-- A call that holds no service has no timer. -/
theorem no_timer (o : n.PortInOrder p) (h : (n.phone p).call.holds = false) : (n.phone p).timer = none := by
  cases ht : (n.phone p).timer with
  | none => rfl
  | some t =>
    have hruns : (n.phone p).call = t.1.runsIn := o.timer t.1 (by simp [Phone.business, ht])
    rw [hruns] at h
    cases hk : t.1 <;> rw [hk] at h <;> cases h
theorem openCall (c : CallsBut off n) (h : n.callPlacement p = some m)
    (hcall : p ∉ off → (n.phone p).call.holds = false) : CallsBut off (m.openCall p) := by
  have hplaced := Node.callPlacement_placed h
  have hm : CallsBut (p :: off) m := (c.leave p).kept (.placed c.served h List.mem_cons_self)
  have hmem : p ∉ (m.openCall p).cc.waiting := by simp [m.openCall_waiting]
  have hopened : CallsBut (p :: off) (m.openCall p) := by
    refine hm.kept ⟨⟨hm.served.byIds, hm.served.active⟩, fun h => h.filter _, fun q hq => ?_⟩
    have hne : q ≠ p := fun he => hq (he ▸ List.mem_cons_self)
    exact ⟨by simp [m.openCall_waiting, hne], by rw [m.openCall_phone_ne hne.symm], rfl⟩
  refine hopened.settled fun hp => ?_
  have htimer : (m.phone p).timer = none := by
    rw [hplaced.phone]; exact no_timer (c.port p hp) (hcall hp)
  obtain ⟨k, cells, hrecord, -⟩ := hplaced.record
  refine ⟨⟨fun h => absurd h hmem, fun h => ?_⟩, ?_, ?_, ?_⟩
  · rw [m.openCall_phone] at h; cases h
  · rw [m.openCall_phone, m.openCall_svc, hrecord]; rfl
  · rw [m.openCall_phone]; simp [Phone.business, Phone.stopCadence, htimer]
  · rw [m.openCall_phone]; simp [Phone.business, Phone.stopCadence]

/-! ## The pass (R96 to R99) -/

theorem serveCalls (c : CallsBut off n) {l : List (Fin 8)} (hl : l.Nodup) (hwaits : ∀ q ∈ l, q ∈ n.cc.waiting) :
    CallsBut off (serveCalls l n).1 := by
  induction l generalizing n with
  | nil => exact c
  | cons p l ih =>
    obtain ⟨hp, hl⟩ := List.nodup_cons.1 hl
    unfold Machine.serveCalls
    rw [← n.callPlacement_openCall]
    cases hm : n.callPlacement p with
    | none => exact c
    | some m =>
      refine ih (c.openCall hm fun hoff => ?_) hl fun q hq => ?_
      · rw [show (n.phone p).call = .queued from (c.port p hoff).waiting.1 (hwaits p List.mem_cons_self)]; rfl
      · rw [m.openCall_waiting, (Node.callPlacement_placed hm).cc, List.mem_filter]
        exact ⟨hwaits q (List.mem_cons_of_mem p hq), by simpa using ne_of_mem_of_not_mem hq hp⟩
/-- A move that serves services below id 56 touches no call. -/
theorem serveEach {act : Node → Nat → Option Node} (hact : OneRecord act)
    (hrecast : ∀ {a b : Node} {id : Nat}, act a id = some b → a.Recast b)
    (hnone : ∀ {a : Node} {id : Nat}, a.svc id = none → act a id = none)
    (c : CallsBut off n) {ids : List Nat} (hids : ∀ id ∈ ids, id < 56) : CallsBut off (serveEach act ids n).1 := by
  induction ids generalizing n with
  | nil => exact c
  | cons id ids ih =>
    have hrest : ∀ j ∈ ids, j < 56 := fun j hj => hids j (List.mem_cons_of_mem id hj)
    unfold Machine.serveEach
    cases hb : act n id with
    | none => exact ih c hrest
    | some b =>
      cases hv : n.svc id with
      | none => rw [hnone hv] at hb; cases hb
      | some v =>
        obtain rfl := Node.svc_id hv
        obtain ⟨w, hw, hput⟩ := hact hv hb
        exact ih (c.kept (.puts c.served hput (hrecast hb).cc (hw ▸ hids _ List.mem_cons_self))) hrest
theorem low_of_listed (w : n.Served) {which : Service → Prop} {before : Service → Service → Prop} {ids : List Nat}
    (h : Listed n which before ids) (hwhich : ∀ v, which v → v.state ≠ .active ∨ v.level ≠ 0 ∨ v.prot ≠ .dual) :
    ∀ id ∈ ids, id < 56 := by
  intro id hid
  obtain ⟨v, hv, hv'⟩ := (h.2.1 id).1 hid
  exact w.low hv (hwhich v hv')
theorem round {placed moved : Nat} (c : CallsBut off n) (h : PassRound n m placed moved) : CallsBut off m := by
  obtain ⟨shed, reduced, away, hshed, hreduced, haway, rfl, -, -⟩ := h
  have c1 := c.serveCalls c.once fun _ h => h
  have c2 := serveEach restoredService_oneRecord restoredService_recast restoredService_none c1
    (low_of_listed c1.served hshed fun v hv => .inl (by rw [hv]; nofun))
  have c3 := serveEach grownService_oneRecord grownService_recast grownService_none c2
    (low_of_listed c2.served hreduced fun v hv => .inl (by rw [hv]; nofun))
  exact serveEach homeService_oneRecord homeService_recast homeService_none c3
    (low_of_listed c3.served haway fun v hv => .inr (.inr (by rw [hv.1]; nofun)))
theorem pass (c : CallsBut off n) : CallsBut off n.pass := by
  have hruns := Node.pass_runs c.served.byIds
  generalize n.pass = m, n.passCounted.placed = k at hruns
  induction hruns with
  | last hround => exact c.round hround
  | again hround _ ih => exact ih (c.round hround)

end CallsBut

theorem Node.shed_cc (n : Node) (v : Service) (why : ShedReason) : (n.shed v why).cc = n.cc := (n.shed_offers v why).cc
theorem Node.rerouteOne_cc (n : Node) (x : Side) (id : Nat) : (n.rerouteOne x id).cc = n.cc := by
  unfold Node.rerouteOne
  split
  · rfl
  · rename_i v _
    have hshed (w : Service) : ((n.freeHalves v).shed w .pathLost).cc = n.cc := Node.shed_cc _ w .pathLost
    dsimp only
    split
    · split
      · rename_i r hr
        exact (Node.svcEventOf_offers _ _ _ _).cc.trans (Node.attempts_recast hr).cc
      · exact hshed _
    · exact hshed _

namespace CallsBut

variable {off : List (Fin 8)} {n m : Node}

/-! ## Reroute, revert, ECONOMY, DEFINE_SERVICE and release (R83, R100 to R104) -/

theorem shedId (c : CallsBut off n) {id : Nat} (hid : id < 56) (why : ShedReason) : CallsBut off (n.shedId id why) := by
  unfold Node.shedId
  split
  · rename_i v hv
    obtain rfl := Node.svc_id hv
    exact c.kept (.puts c.served (n.shed_puts v why) (n.shed_offers v why).cc hid)
  · exact c
theorem foldl {f : Node → Nat → Node} (hf : ∀ {n : Node} {id : Nat}, CallsBut off n → id < 56 → CallsBut off (f n id))
    {ids : List Nat} (c : CallsBut off n) (hids : ∀ id ∈ ids, id < 56) : CallsBut off (ids.foldl f n) := by
  induction ids generalizing n with
  | nil => exact c
  | cons id ids ih =>
    exact ih (hf c (hids id List.mem_cons_self)) fun j hj => hids j (List.mem_cons_of_mem id hj)
theorem rerouteOne (c : CallsBut off n) (x : Side) {id : Nat} (hid : id < 56) : CallsBut off (n.rerouteOne x id) := by
  cases hv : n.svc id with
  | none => rw [Node.rerouteOne_none hv]; exact c
  | some v =>
    obtain rfl := Node.svc_id hv
    have hcc := n.rerouteOne_cc x v.id
    rcases Node.rerouteOne_cases c.served.byIds hv x with ⟨k, hput⟩ | ⟨left, st, cells, hleft, -, hput⟩
    · exact c.kept (.puts c.served hput hcc hid)
    · have hfree : CallsBut off (n.freeHalves v) := c.kept (.puts c.served (n.freeHalves_puts v) rfl hid)
      refine c.kept (.of_low c.served (hput.byIds hleft.byIds) hcc fun id hle => ?_)
      have hne : id ≠ v.id := Nat.ne_of_gt (Nat.lt_of_lt_of_le hid hle)
      exact (hput.svc_ne hne).trans ((hfree.served.sheds hleft id hle).trans ((n.freeHalves_puts v).svc_ne hne))
theorem reroute (c : CallsBut off n) (x : Side) : CallsBut off (n.reroute x) := by
  by_cases h : n.moversFrom x = []
  · rw [Node.reroute_none h]; exact c
  · rw [Node.reroute_pass h]
    exact (c.foldl (fun c hid => c.rerouteOne x hid) (low_of_listed c.served (c.served.byIds.listed_movers x)
      fun v hv => .inr (.inr (by rw [hv.1]; nofun)))).pass
theorem revertOne (c : CallsBut off n) {id : Nat} (hid : id < 56) : CallsBut off (n.revertOne id) := by
  cases hv : n.svc id with
  | none => rw [Node.revertOne_none hv]; exact c
  | some v =>
    obtain rfl := Node.svc_id hv
    cases hc : n.plainCells v v.primary v.cells.length with
    | none => rw [Node.revertOne_blocked hv hc]; exact c.report _
    | some cells =>
      rw [Node.revertOne_home hv hc]
      have hput : n.Puts { v with current := some v.primary, cells := cells } (n.broughtHome v cells) := ⟨rfl, rfl, rfl, rfl⟩
      exact c.kept (.puts c.served hput rfl hid)
theorem revert (c : CallsBut off n) (x : Side) : CallsBut off (n.revert x) := by
  have hlow := low_of_listed c.served (c.served.byIds.listed_away (·.primary == x)) fun v hv => .inr (.inr (by rw [hv.1.1]; nofun))
  exact (c.foldl (fun c hid => c.revertOne hid) hlow).pass
theorem economyShed (c : CallsBut off n) : CallsBut off n.economyShed := by
  have hset : CallsBut off (n.setEconomy true) := c.kept (.of_same c.served rfl rfl)
  refine hset.foldl (fun c hid => c.shedId hid .economy) fun id hid => ?_
  obtain ⟨v, hv, rfl⟩ := List.mem_map.1 hid
  obtain ⟨hplaced, hlevel⟩ := List.mem_filter.1 ((sortBy_perm _ _).mem_iff.1 hv)
  refine c.served.low (c.served.byIds.svc_of_mem (List.mem_filter.1 hplaced).1) (.inr (.inl ?_))
  have : 2 ≤ v.level := of_decide_eq_true hlevel
  omega
theorem define {d : Definition} (c : CallsBut off n) (hid : d.id < 56) (h : n.define (n.recordOf d) = some m) : CallsBut off m := by
  have hshed (why : ShedReason) : CallsBut off (n.defineShed (n.recordOf d) why) := by
    have hput : n.Puts { n.recordOf d with state := .shed, reason := some why, shedNo := some n.nextShed }
        (n.defineShed (n.recordOf d) why) := ⟨rfl, rfl, rfl, rfl⟩
    exact c.kept (.puts c.served hput rfl hid)
  by_cases hadm : n.Admissible (n.recordOf d)
  · cases hside : n.targetSide (n.recordOf d) with
    | none => rw [Node.define_no_side hadm hside] at h; cases h; exact hshed _
    | some x =>
      cases hr : n.attempts (n.recordOf d) x ((n.recordOf d).fullAttempts ++ (n.recordOf d).floorAttempts) with
      | none =>
        rw [Node.define_no_room hadm hside hr] at h
        split at h
        · cases h; exact hshed _
        · cases h
      | some r =>
        rw [Node.define_placed hadm hside hr] at h
        cases h
        have hsheds := (Node.attempts_sheds c.served.byIds hr).1
        have hput := Node.definedAt_puts r (n.recordOf d) x
        have hcc : (Node.definedAt r (n.recordOf d) x).cc = n.cc :=
          (Node.svcEventOf_offers _ _ _ _).cc.trans (Node.attempts_recast hr).cc
        refine c.kept (.of_low c.served (hput.byIds hsheds.byIds) hcc fun id hle => ?_)
        have hne : id ≠ d.id := Nat.ne_of_gt (Nat.lt_of_lt_of_le hid hle)
        exact (hput.svc_ne hne).trans (c.served.sheds hsheds id hle)
  · obtain ⟨hon, hlevel⟩ := not_or.1 hadm
    rw [Node.define_economy (by simpa using hon) (Nat.not_lt.1 hlevel)] at h
    cases h
    exact hshed _
/-- A service whose record is gone was no call's, or one of a port of `off`. -/
theorem vacated (c : CallsBut off n) {v : Service} (hid : v.id < 56 ∨ ∃ p ∈ off, v.id = callId p) : CallsBut off (n.vacated v) := by
  have hcc := (n.vacated_rest v).1
  refine c.kept ⟨⟨(n.vacated_traffic v).services c.served.byIds, fun {id u} hu hle => ?_⟩, fun h => hcc ▸ h, fun p hp => ?_⟩
  · by_cases he : id = v.id
    · rw [he, n.vacated_svc v] at hu; cases hu
    · exact c.served.active (n.vacated_svc_ne v he ▸ hu) hle
  · have hne : callId p ≠ v.id := by
      rintro he
      rcases hid with hlow | ⟨q, hq, hcall⟩
      · exact absurd (callId_ge p) (Nat.not_le.2 (he ▸ hlow))
      · exact hp (callId_injective (he.trans hcall) ▸ hq)
    exact ⟨by rw [hcc], by simp only [Node.phone, hcc], by rw [n.vacated_svc_ne v hne]⟩
theorem release (c : CallsBut off n) {v : Service} (hid : v.id < 56 ∨ ∃ p ∈ off, v.id = callId p) : CallsBut off (n.release v) := by
  have hresumed := Node.resumeIf_offers (n.vacated v).pass (n.releaseFrees v)
  rw [Node.release_eq]
  exact (c.vacated hid).pass.congr hresumed.au hresumed.cc

end CallsBut

end Sys2Proof.Machine
end

section
/-! SUPPORT. The calls kept in order by the call controller's events (R121 to R126, R130) and by its requests (R128). -/

namespace Sys2Proof.Machine

/-- The service of the port's call is gone once it has been released: the pass of the release opens calls of waiting ports alone. -/
theorem Node.release_call_none {n : Node} {p : Fin 8} {v : Service} (hv : v.id = callId p) (hp : p ∉ n.cc.waiting) :
    (n.release v).svc (callId p) = none := by
  have hkept := (n.release_opens v).service p hp
  rw [← hv, n.vacated_svc v, Option.isSome_none, Option.isSome_eq_false_iff, Option.isNone_iff_eq_none] at hkept
  exact hv ▸ hkept

theorem CallState.holds_of_talks {q : CallState} (h : q.talks = true) : q.holds = true := by
  cases q <;> simp_all [CallState.talks, CallState.holds]
theorem Common.cadence_kind (c : Common) (k : CadenceKind) : (c.cadence k).kind = k := by cases k <;> rfl
/-- A cadence edge leaves the kind of cadence. -/
theorem Phone.cadenceEdge_business (ph : Phone) (c : Common) : (ph.cadenceEdge c).business = ph.business := by
  unfold Phone.cadenceEdge
  split
  · rename_i d hd
    split
    · simp [Phone.business, hd]
    · split
      · simp [Phone.business, hd, c.cadence_kind]
      · rfl
  · rfl

namespace CallsBut

variable {off : List (Fin 8)} {n m : Node} {p : Fin 8}

/-! ## A port's record replaced -/

/-- The call is replaced by one that is in order. -/
theorem setPhone (c : CallsBut (p :: off) n) {ph : Phone} (hwaiting : p ∈ n.cc.waiting ↔ ph.call = .queued)
    (hservice : ph.call.holds = (n.svc (callId p)).isSome) (htimer : ∀ k ∈ ph.timer.map (·.1), ph.call = k.runsIn)
    (hcadence : ∀ k ∈ ph.cadence.map (·.kind), ph.call = k.runsIn) : CallsBut off (n.setPhone p ph) := by
  have hkept : CallsBut (p :: off) (n.setPhone p ph) := c.kept (.setPhone c.served fun h => absurd List.mem_cons_self h)
  refine hkept.settled fun _ => ⟨?_, ?_, ?_, ?_⟩ <;> rw [n.phone_setPhone p ph]
  · exact hwaiting
  · exact hservice
  · exact htimer
  · exact hcadence
/-- The call state and what runs in it stay as they are. -/
theorem sameCall (c : CallsBut off n) {ph : Phone} (h : ph.business = (n.phone p).business) : CallsBut off (n.setPhone p ph) :=
  c.kept (.setPhone c.served fun _ => h)
/-- A call that holds a service goes on in another state that holds it. -/
theorem goesOn (c : CallsBut [] n) {ph : Phone} (hold : (n.phone p).call.holds = true) (hnew : ph.call.holds = true)
    (htimer : ∀ k ∈ ph.timer.map (·.1), ph.call = k.runsIn) (hcadence : ∀ k ∈ ph.cadence.map (·.kind), ph.call = k.runsIn) :
    CallsBut [] (n.setPhone p ph) := by
  have o := c.port p List.not_mem_nil
  have hnot {q : Phone} (h : q.call.holds = true) : q.call ≠ .queued := fun he => by rw [he] at h; cases h
  refine (c.leave p).setPhone ?_ ?_ htimer hcadence
  · exact iff_of_false (fun h => hnot hold (o.waiting.1 h)) (hnot hnew)
  · exact (hnew.trans hold.symm).trans o.service
theorem no_cadence (o : n.PortInOrder p) (h : (n.phone p).call.talks = true) : (n.phone p).cadence = none := by
  cases hd : (n.phone p).cadence with
  | none => rfl
  | some d =>
    have hruns : (n.phone p).call = d.kind.runsIn := o.cadence d.kind (by simp [Phone.business, hd])
    rw [hruns] at h
    cases hk : d.kind <;> rw [hk] at h <;> cases h

/-! ## Calls that open, wait and end (R121, R122, R126) -/

theorem callEvent (c : CallsBut off n) (p : Fin 8) (old : CallState) (o : CallOutcome) : CallsBut off (n.callEvent p old o) :=
  c.report _
theorem callerCall (c : CallsBut [] n) (h : (n.phone p).call = .idle) : CallsBut [] (n.callerCall p) := by
  unfold Node.callerCall
  split
  · rename_i m hm
    exact c.openCall hm fun _ => by rw [h]; rfl
  · have o := c.port p List.not_mem_nil
    have hout : p ∉ n.cc.waiting := fun hin => nomatch h.symm.trans (o.waiting.1 hin)
    have hlast : CallsBut [p] { n with cc := { n.cc with waiting := n.cc.waiting ++ [p] } } := by
      refine (c.leave p).kept (.of_calls c.served _ (fun w => ?_) (fun q hq => ?_) fun _ _ => rfl)
      · exact List.nodup_append.2 ⟨w, List.nodup_singleton p, fun q hq r hr he => hout (List.mem_singleton.1 hr ▸ he ▸ hq)⟩
      · exact List.mem_append.trans (or_iff_left hq)
    refine CallsBut.callEvent (hlast.setPhone ?_ ?_ ?_ ?_) p _ _
    · simp
    · exact (congrArg CallState.holds h).symm.trans o.service
    · have hnone : (n.phone p).timer = none := no_timer o (by rw [h]; rfl)
      change ∀ k ∈ (n.phone p).timer.map (·.1), _
      simp [hnone]
    · rintro k ⟨⟩
      rfl
theorem testCaller (c : CallsBut [] n) (p : Fin 8) : CallsBut [] (n.testCaller p) := by
  unfold Node.testCaller
  dsimp only
  split
  · rename_i h
    simp only [Bool.and_eq_true, decide_eq_true_eq] at h
    exact c.callerCall h.1.1.1
  · exact c
theorem enterIdle (c : CallsBut [p] n) (h : n.svc (callId p) = none) (o : CallOutcome) : CallsBut [] (n.enterIdle p o) := by
  have hout : CallsBut [p] { n with cc := { n.cc with waiting := n.cc.waiting.filter (· != p) } } := by
    refine c.kept (.of_calls c.served _ (fun w => w.filter _) (fun q hq => ?_) fun _ _ => rfl)
    have hne : q ≠ p := fun he => hq (List.mem_singleton.2 he)
    simp [hne]
  refine testCaller (CallsBut.callEvent (hout.setPhone ?_ ?_ ?_ ?_) p _ o) p
  · simp
  · exact (congrArg Option.isSome h).symm
  · nofun
  · nofun
theorem guardEnd (c : CallsBut [] n) (h : (n.phone p).call = .clearing) : CallsBut [] (n.guardEnd p) := by
  have o := c.port p List.not_mem_nil
  have hout : p ∉ n.cc.waiting := fun hin => nomatch h.symm.trans (o.waiting.1 hin)
  unfold Node.guardEnd
  split
  · rename_i v hv
    have hid := Node.svc_id hv
    exact enterIdle ((c.leave p).release (.inr ⟨p, List.mem_singleton.2 rfl, hid⟩)) (Node.release_call_none hid hout) _
  · rename_i hnone
    exact enterIdle (c.leave p) hnone _
theorem enterClearing (c : CallsBut [] n) (h : (n.phone p).call.holds = true) (o : CallOutcome) :
    CallsBut [] (n.enterClearing p o) := by
  have hclearing := (c.goesOn (ph := { (n.phone p).stopCadence with
      call := .clearing, timer := some (.clearGuard, ticksOfSeconds n.cc.common.clearGuard) }) h rfl
    (by rintro k ⟨⟩; rfl) nofun).callEvent p (n.phone p).call o
  unfold Node.enterClearing
  dsimp only
  split
  · exact hclearing.guardEnd (by simp)
  · exact hclearing
theorem enterAnswered (c : CallsBut [] n) (h : (n.phone p).call.holds = true) (o : CallOutcome) :
    CallsBut [] (n.enterAnswered p o) :=
  (c.goesOn (ph := { (n.phone p).stopCadence with call := .answered, timer := none }) h rfl nofun nofun).callEvent p _ o
theorem enterHeld (c : CallsBut [] n) (h : (n.phone p).call.talks = true) : CallsBut [] (n.enterHeld p) := by
  have hcadence := no_cadence (c.port p List.not_mem_nil) h
  refine (c.goesOn (CallState.holds_of_talks h) rfl (by rintro k ⟨⟩; rfl) ?_).callEvent p _ _
  change ∀ k ∈ (n.phone p).cadence.map (·.kind), _
  simp [hcadence]

/-! ## What a tick made due (R112 to R115, R130) -/

theorem offHook (c : CallsBut [] n) (p : Fin 8) : CallsBut [] (n.offHook p) := by
  have c1 : CallsBut [] (n.modPhone p fun ph => { ph with hook := .offHook, hookDue := false }) := c.sameCall rfl
  unfold Node.offHook
  dsimp only
  split
  · exact c1.testCaller p
  · rename_i h
    exact c1.enterAnswered (by rw [h]; rfl) _
  · rename_i h
    exact c1.enterAnswered (by rw [h]; rfl) _
  · exact c1
/-- A call that waits holds no service. -/
theorem no_service (c : CallsBut [] n) (h : (n.phone p).call.holds = false) : n.svc (callId p) = none :=
  Option.isNone_iff_eq_none.1 (Option.isSome_eq_false_iff.1 ((c.port p List.not_mem_nil).service.symm.trans h))
/-- A handset replaced while the call talks holds the call or clears it (R123, R124). -/
theorem holdOrClear (c : CallsBut [] n) (h : (n.phone p).call.talks = true) {held : Prop} [Decidable held] :
    CallsBut [] (if held then n.enterHeld p else n.enterClearing p .callerCleared) := by
  split
  · exact c.enterHeld h
  · exact c.enterClearing (CallState.holds_of_talks h) _
theorem onHook (c : CallsBut [] n) (p : Fin 8) : CallsBut [] (n.onHook p) := by
  have c1 : CallsBut [] (n.modPhone p fun ph => { ph with hook := .onHook, hookDue := false, clearLock := false }) := c.sameCall rfl
  unfold Node.onHook
  dsimp only
  split
  · rename_i h
    exact enterIdle (c1.leave p) (c1.no_service (by rw [h]; rfl)) _
  · rename_i h
    exact c1.holdOrClear (by rw [h]; rfl)
  · rename_i h
    exact c1.holdOrClear (by rw [h]; rfl)
  · exact c1
theorem hookEvent (c : CallsBut [] n) (p : Fin 8) : CallsBut [] (n.hookEvent p) := by
  unfold Node.hookEvent
  split
  · split
    · exact c.offHook p
    · exact c.onHook p
  · exact c
theorem testFlash (c : CallsBut [] n) (p : Fin 8) : CallsBut [] (n.testFlash p) := by
  have c1 : CallsBut [] (n.modPhone p fun ph => { ph with flashes := sat8 ph.flashes }) := c.sameCall rfl
  unfold Node.testFlash
  dsimp only
  split
  · split
    · exact c1.callEvent p _ _
    · exact c1.callEvent p _ _
    · exact c1.callEvent p _ _
    · exact c1
  · exact c
theorem acceptEvent (c : CallsBut [] n) (p : Fin 8) : CallsBut [] (n.acceptEvent p) := by
  have c1 : CallsBut [] ((n.hookEvent p).modPhone p Phone.accept) := (c.hookEvent p).sameCall rfl
  unfold Node.acceptEvent
  dsimp only
  split
  · split
    · exact c1.testFlash p
    · exact c1
  · exact c
theorem cadenceEvent (c : CallsBut [] n) (p : Fin 8) : CallsBut [] (n.cadenceEvent p) :=
  c.sameCall ((n.phone p).cadenceEdge_business n.cc.common)
theorem timerEvent (c : CallsBut [] n) (p : Fin 8) : CallsBut [] (n.timerEvent p) := by
  have hruns {k : CallTimer} {t : Nat} (h : (n.phone p).timer = some (k, t)) : (n.phone p).call = k.runsIn :=
    (c.port p List.not_mem_nil).timer k (by simp [Phone.business, h])
  unfold Node.timerEvent
  split
  · rename_i h
    exact c.enterClearing (by rw [hruns h]; rfl) _
  · rename_i h
    exact c.enterClearing (by rw [hruns h]; rfl) _
  · rename_i h
    exact c.guardEnd (hruns h)
  · exact c
theorem settlePhone (c : CallsBut [] n) (p : Fin 8) : CallsBut [] (n.settlePhone p) :=
  (((c.hookEvent p).acceptEvent p).cadenceEvent p).timerEvent p

/-! ## Path signals (R117) -/

theorem reselectCall (c : CallsBut [] n) (p : Fin 8) : CallsBut [] (n.reselectCall p) := by
  have c1 (sel : Option Side) : CallsBut [] (n.setPhone p { n.phone p with selected := sel }) := c.sameCall rfl
  unfold Node.reselectCall
  dsimp only
  split
  · split
    · exact c1 _
    · exact (c1 _).callEvent p _ _
  · exact c
theorem overPhones {f : Node → Fin 8 → Node} (hf : ∀ {n : Node} (p : Fin 8), CallsBut [] n → CallsBut [] (f n p))
    (c : CallsBut [] n) (l : List (Fin 8)) : CallsBut [] (l.foldl f n) := by
  induction l generalizing n with
  | nil => exact c
  | cons p l ih => exact ih (hf p c)
theorem ccTakes (c : CallsBut [] n) (g : PathSignal) : CallsBut [] (n.ccTakes g) := by
  unfold Node.ccTakes
  split
  · have htaken : CallsBut [] { n with sig := { n.sig with cc := n.sig.cc.erase g } } := c.congr rfl rfl
    exact overPhones (f := Node.reselectCall) (fun p c => c.reselectCall p) htaken allPhones
  · exact c

/-! ## Requests (R123 to R128) -/

theorem clearCall (c : CallsBut [] n) (h : (n.phone p).call.clearable = true) : CallsBut [] (n.clearCall p) := by
  have c1 (lock : Bool) : CallsBut [] (n.setPhone p { n.phone p with clearLock := lock }) := c.sameCall rfl
  unfold Node.clearCall
  dsimp only
  split
  · rename_i hq
    exact enterIdle ((c1 _).leave p) ((c1 _).no_service (by simp [hq, CallState.holds])) _
  · rename_i hq
    refine (c1 _).enterClearing ?_ _
    rw [n.phone_setPhone]
    cases hcall : (n.phone p).call <;> simp_all [CallState.holds, CallState.clearable]
theorem ringPhone (c : CallsBut [] n) (hidle : (n.phone p).call = .idle) (h : n.callPlacement p = some m) :
    CallsBut [] (m.ringPhone p) := by
  have hplaced := Node.callPlacement_placed h
  have hm : CallsBut [p] m := (c.leave p).kept (.placed c.served h List.mem_cons_self)
  obtain ⟨k, cells, hrecord, -⟩ := hplaced.record
  refine CallsBut.callEvent (hm.setPhone ?_ ?_ ?_ ?_) p _ _
  · rw [hplaced.cc]
    exact iff_of_false (fun hin => nomatch hidle.symm.trans ((c.port p List.not_mem_nil).waiting.1 hin)) nofun
  · rw [hrecord]; rfl
  · rintro k ⟨⟩
    rfl
  · rintro k ⟨⟩
    rfl

end CallsBut

end Sys2Proof.Machine
end

section
/-! SUPPORT. What leaves the call controller and the service table alone: the events of the management link and of the lines, and the
requests of the other blocks. -/

namespace Sys2Proof.Machine

/-- The admission unit and the call controller are as they were. -/
structure Node.Still (n m : Node) : Prop where
  au : m.au = n.au
  cc : m.cc = n.cc

namespace Node.Still

theorem refl (n : Node) : n.Still n := ⟨rfl, rfl⟩
theorem trans {a b c : Node} (h : a.Still b) (k : b.Still c) : a.Still c := ⟨k.au.trans h.au, k.cc.trans h.cc⟩
theorem ite {n a b : Node} {c : Prop} [Decidable c] (ha : n.Still a) (hb : n.Still b) : n.Still (if c then a else b) := by
  split
  · exact ha
  · exact hb
theorem lines {n m : Node} (h : n.Lines m) : n.Still m := ⟨h.au, h.cc⟩
theorem engines {n m : Node} (h : n.Engines m) : n.Still m := ⟨h.au, h.cc⟩
theorem report (n : Node) (b : ReportBody) : n.Still (n.report b) := ⟨rfl, rfl⟩
theorem checked {n : Node} {checks : List (Bool × Reply)} {a : Answer} (h : n.Still a.node) :
    n.Still (checked n checks a).node := by
  rcases checked_cases n checks a with ⟨r, -, he⟩ | ⟨-, he⟩
  · rw [he]; exact refl n
  · rw [he]; exact h

/-! ## The management link (R187 to R193) -/

theorem gapEnd (s : State) : s.node.Still s.gapEnd.node := by
  unfold State.gapEnd
  split
  · split
    · exact report _ _
    · exact refl _
  · exact refl _
theorem offerRequest (s : State) (r : Request) (bs : List Byte) : s.node.Still (s.offerRequest r bs).node := by
  unfold State.offerRequest
  split
  · exact refl _
  · split
    · exact refl _
    · exact report _ _
theorem frameByte (s : State) (bs : List Byte) : s.node.Still (s.frameByte bs).node := by
  unfold State.frameByte
  split
  · exact report _ _
  · split
    · split
      · exact offerRequest s _ _
      · exact report _ _
    · exact refl _
theorem rxByte (s : State) (b : Byte) : s.node.Still (s.rxByte b).node := by
  refine (gapEnd s).trans ?_
  unfold State.rxByte
  dsimp only
  split
  · split <;> exact refl _
  · exact frameByte _ _
theorem rxByteIf (s : State) (take : Bool) (b : Byte) : s.node.Still (if take then s.rxByte b else s).node := by
  split
  · exact rxByte s b
  · exact refl _
theorem rxError (s : State) : s.node.Still s.rxError.node := by
  refine (gapEnd s).trans ?_
  unfold State.rxError
  dsimp only
  split
  · exact refl _
  · exact report _ _
theorem changeRate (s : State) (r : LinkRate) : s.node.Still (s.changeRate r).node := by
  unfold State.changeRate
  split
  · exact refl _
  · dsimp only
    split
    · exact refl _
    · exact report _ _
theorem reportSent (s : State) : s.node.Still s.reportSent.node := by
  unfold State.reportSent
  split
  · exact ⟨rfl, rfl⟩
  · exact refl _

/-! ## The other blocks -/

theorem peTakes (n : Node) (g : PathSignal) : n.Still (n.peTakes g) := ite ⟨rfl, rfl⟩ (refl n)
theorem modSwitch (n : Node) (l : Line) (f : SwitchLine → SwitchLine) : n.Still (n.modSwitch l f) := lines (n.modSwitch_lines l f)
theorem lineHoldEnd (n : Node) (l : Line) : n.Still (n.lineHoldEnd l) := by
  unfold Node.lineHoldEnd
  exact ite (modSwitch n l _) (refl n)

section owners
variable (k : Link) (b : List Byte) (n : Node)

theorem setLink : n.Still (ownSetLink k b n).node := by
  refine checked ?_
  split <;> exact refl n
theorem setNode : n.Still (ownSetNode k b n).node := by
  have hpaths := n.applySettings_paths (c := n.cfg.replaced b)
  exact checked ⟨hpaths.au, hpaths.cc⟩
theorem lineSet : n.Still (ownLineSet k b n).node :=
  checked (lines ((n.modLine_lines _ _).trans (Node.enableAsSet_lines (n.modLine _ _) _)))
theorem marginScan : n.Still (ownMarginScan k b n).node := checked (lines (n.startScan_lines _ _))
theorem pathForceSet : n.Still (ownPathForceSet k b n).node := checked (lines (n.forceOut_lines _))
theorem pathForceClear : n.Still (ownPathForceClear k b n).node := checked (lines (n.forceClear_lines _))
theorem packetPortSet : n.Still (ownPacketPortSet k b n).node :=
  checked (engines ((n.modPort_engines _ _).trans (Node.readyOn_engines _ _)))
theorem transferOpen : n.Still (ownTransferOpen k b n).node := checked (engines (n.transferOffered_engines _ _ _ _))
theorem transferAbort : n.Still (ownTransferAbort k b n).node := checked (engines (n.hostAbort_engines _))
theorem pollSet : n.Still (ownPollSet k b n).node := by
  have hset : n.Engines { n with pc := n.pc.configure b (n.op == OpState.running) } := ⟨rfl⟩
  exact checked (engines (hset.trans (.ite (Node.catchUp_engines _) (.refl _))))
theorem stationSet : n.Still (ownStationSet k b n).node := checked (engines (n.setStationEntry_engines _ _ _ _))

end owners

end Node.Still

end Sys2Proof.Machine
end

section
/-! SUPPORT. The calls kept in order by START, by the map, by the settings of a port, by the tick and by the frame start. -/

namespace Sys2Proof.Machine

namespace CallsBut

variable {off : List (Fin 8)} {n m : Node} {p : Fin 8}

theorem still (c : CallsBut off n) (h : n.Still m) : CallsBut off m := c.congr h.au h.cc
theorem powerOn (n : Node) : CallsBut [] n.powerOn :=
  (callsBut_nil_iff.2 ⟨.nil, reset_calls_in_order⟩ : CallsBut [] State.reset.node).congr rfl rfl

/-! ## Call records (R109 to R112) -/

/-- The call records change all at once, and every call stays. -/
theorem phones (c : CallsBut off n) (phones : Vector Phone 8) (h : ∀ p : Fin 8, phones[p].business = (n.phone p).business) :
    CallsBut off { n with cc := { n.cc with phones := phones } } :=
  c.kept (.of_calls c.served _ (fun w => w) (fun _ _ => Iff.rfl) fun p _ => h p)
theorem configure (c : CallsBut off n) (p : Fin 8) (d : PhoneSettings) (running : Bool) :
    CallsBut off (n.modPhone p fun ph => ph.configure d running) := by
  refine c.sameCall ?_
  unfold Phone.configure
  dsimp only
  split
  · rfl
  · split <;> rfl
theorem tick (c : CallsBut off n) : CallsBut off n.tick := by
  have htick (ph : Phone) (input : Bool) : (ph.tick input).business = ph.business := by
    unfold Phone.tick
    cases ph.sampling <;> simp [Phone.business, Phone.sample, Function.comp_def]
  have hphones := c.phones (Vector.zipWith (fun ph input => ph.tick input) n.cc.phones n.pins.loops) fun p => by
    simp [htick, Node.phone]
  exact hphones.congr rfl rfl

/-! ## START (R195) -/

theorem startValues (c : CallsBut off n) : CallsBut off n.startValues := by
  have hsvc (id : Nat) : n.startValues.svc id = (n.svc id).map Service.renumber := List.find?_map
  refine c.kept ⟨⟨List.pairwise_map.2 c.served.byIds, fun {id v} hv hid => ?_⟩, id, fun p _ => ⟨Iff.rfl, rfl, ?_⟩⟩
  · rw [hsvc] at hv
    obtain ⟨u, hu, rfl⟩ := Option.map_eq_some_iff.1 hv
    exact c.served.active (v := u) hu hid
  · rw [hsvc, Option.isSome_map]
theorem start (c : CallsBut off n) : CallsBut off n.start := by
  have hsampling (ph : Phone) : ph.startUp.business = ph.business := by
    unfold Phone.startUp
    split <;> rfl
  have hlines : CallsBut off ((n.startValues.startLine .u).startLine .d) :=
    c.startValues.still (.lines ((n.startValues.startLine_lines .u).trans (Node.startLine_lines _ .d)))
  unfold Node.start
  refine pass ?_
  have hphones := hlines.phones (Vector.map Phone.startUp ((n.startValues.startLine .u).startLine .d).cc.phones)
    fun p => by simp [hsampling, Node.phone]
  exact hphones.congr rfl rfl

/-! ## The frame start (R44, R55, R119) -/

theorem applyRecord (c : CallsBut off n) (r : Staging) : CallsBut off (n.applyRecord r) := by
  have hlive : CallsBut off (n.takenLive r) := c.congr rfl rfl
  rw [Node.applyRecord_eq]
  unfold Node.tellServing
  split
  · exact hlive.still (.engines (Node.peApplied_engines _ _ _))
  · exact hlive.sameCall rfl
theorem stagingApply (c : CallsBut off n) : CallsBut off n.stagingApply := by
  unfold Node.stagingApply
  split
  · split
    · exact c.applyRecord _
    · exact c
  · exact c
theorem applyDue (c : CallsBut off n) : CallsBut off n.applyDue := by
  unfold Node.applyDue
  generalize n.cs.staging = l
  induction l generalizing n with
  | nil => exact c
  | cons r l ih => exact ih c.stagingApply
theorem voiceChannel (c : CallsBut off n) (voice : Vector CellVal 8) (p : Fin 8) : CallsBut off (n.voiceChannel voice p) := by
  refine c.sameCall ?_
  dsimp only
  split <;> rfl
theorem frameStart (c : CallsBut [] n) (voice : Vector CellVal 8) : CallsBut [] (n.frameStart voice) := by
  have hcounted : CallsBut [] n.applyDue.countFrame := c.applyDue.congr rfl rfl
  unfold Node.frameStart
  refine overPhones (fun p c => c.voiceChannel voice p) ?_ allPhones
  refine still ?_ (.engines (Node.readTrains_engines _))
  refine still ?_ (.lines ((Node.beginFrame_lines _ _ _).trans (Node.beginFrame_lines _ _ _)))
  exact (hcounted.still (.modSwitch _ _ _)).still ((Node.Still.modSwitch _ _ _).trans (.engines (Node.buildTrains_engines _)))

end CallsBut

end Sys2Proof.Machine
end

section
/-! SUPPORT. Every command, row by row: the calls stay in order. -/

namespace Sys2Proof.Machine

namespace CallsBut

variable {n : Node} {s t : State}

/-! ## Due events (log 1) -/

theorem foldl_signals {f : Node → PathSignal → Node} (hf : ∀ {n : Node} (g : PathSignal), CallsBut [] n → CallsBut [] (f n g))
    (c : CallsBut [] n) (l : List PathSignal) : CallsBut [] (l.foldl f n) := by
  induction l generalizing n with
  | nil => exact c
  | cons g l ih => exact ih (hf g c)
theorem auTakes {f : Node → Node} (hf : ∀ {n : Node}, CallsBut [] n → CallsBut [] (f n)) (c : CallsBut [] n) (g : PathSignal) :
    CallsBut [] (n.auTakes g f) := by
  have htaken : CallsBut [] { n with sig := { n.sig with au := n.sig.au.erase g } } := c.congr rfl rfl
  unfold Node.auTakes
  split
  · exact hf htaken
  · exact c
theorem takeAuSignal (c : CallsBut [] n) (g : PathSignal) : CallsBut [] (n.takeAuSignal g) := by
  cases g with
  | lost x => exact auTakes (fun c => c.reroute x) c _
  | restored x => exact auTakes (fun c => c.revert x) c _
theorem takeSignals (c : CallsBut [] n) : CallsBut [] n.takeSignals :=
  foldl_signals (fun g c => c.still (.peTakes _ g))
    (foldl_signals (fun g c => c.ccTakes g) (foldl_signals (fun g c => c.takeAuSignal g) c _) _) _
theorem settleNode (c : CallsBut [] n) : CallsBut [] n.settle := by
  have hlines : n.Lines (((((((n.settleLine .u).settleLine .d).periodicDue .u).periodicDue .d).holdOffEnd .a).holdOffEnd
      .b).wtrEnd .a |>.wtrEnd .b).timingRevert :=
    ((((((((n.settleLine_lines _).trans (Node.settleLine_lines _ _)).trans (Node.periodicDue_lines _ _)).trans
      (Node.periodicDue_lines _ _)).trans (Node.holdOffEnd_lines _ _)).trans (Node.holdOffEnd_lines _ _)).trans
      (Node.wtrEnd_lines _ _)).trans (Node.wtrEnd_lines _ _)).trans (Node.timingRevert_lines _)
  have hengines (m : Node) : m.Engines (allStations.foldl Node.stationDue (allFour.foldl Node.stateTimerEnd m).intervalEnd.cycleStart) :=
    (((Node.Engines.foldl _ Node.stateTimerEnd_engines _ _).trans (Node.intervalEnd_engines _)).trans
      (Node.cycleStart_engines _)).trans (Node.Engines.foldl _ Node.stationDue_engines _ _)
  exact (takeSignals (c.still (.lines hlines))).still (.engines (hengines _))
theorem settleTick (c : CallsBut [] s.node) : CallsBut [] s.settleTick.node := by
  have hphones := (overPhones (fun p c => c.settlePhone p) c allPhones).still (.engines (Node.replyTimeout_engines _))
  unfold State.settleTick
  generalize (allPhones.foldl Node.settlePhone s.node).replyTimeout = m at hphones ⊢
  exact hphones.still (.gapEnd { s with node := m })
theorem msTick (c : CallsBut [] s.node) : CallsBut [] s.msTick.node := by
  unfold State.msTick
  split
  · exact c.settleTick.tick
  · exact c
theorem settle (c : CallsBut [] s.node) : CallsBut [] s.settle.node := by
  rw [State.settle_node]
  exact c.settleTick.msTick.settleTick.settleNode

/-! ## Requests -/

theorem of_checked {checks : List (Bool × Reply)} {a : Answer} (c : CallsBut [] n)
    (h : (∀ d ∈ checks, d.1 = false) → CallsBut [] a.node) : CallsBut [] (checked n checks a).node :=
  Node.Kept.of_checked c h

section owners
variable (k : Link) (b : List Byte) (c : CallsBut [] n)
include c

theorem setLevels : CallsBut [] (ownSetLevels k b n).node := by
  have hmap : CallsBut [] (n.withMap (classMapOf b)) := c.kept (.of_same c.served rfl rfl)
  refine c.of_checked fun _ => ?_
  dsimp only
  split
  · exact hmap.pass
  · exact hmap
theorem defineService : CallsBut [] (ownDefineService k b n).node := by
  refine c.of_checked fun hchecks => ?_
  have hid : decide (55 < (definitionOf b).id) = false :=
    hchecks (_, refusal .idReserved) (List.mem_append_right _ (List.mem_of_getElem? (i := 1) rfl))
  dsimp only
  split
  · exact c
  · rename_i m hm
    exact c.define (Nat.lt_succ_of_le (Nat.not_lt.1 (of_decide_eq_false hid))) hm
theorem releaseService : CallsBut [] (ownReleaseService k b n).node := by
  refine c.of_checked fun hchecks => ?_
  have hid : decide (55 < f1 b 0) = false :=
    hchecks (_, refusal .idReserved) (List.mem_append_right _ (List.mem_of_getElem? (i := 1) rfl))
  dsimp only
  split
  · rename_i v hv
    have hlow : f1 b 0 < 56 := Nat.lt_succ_of_le (Nat.not_lt.1 (of_decide_eq_false hid))
    exact c.release (.inl (Node.svc_id hv ▸ hlow))
  · exact c
theorem enterEconomy : CallsBut [] (ownEconomyEnter k b n).node := by
  refine c.of_checked fun _ => ?_
  split
  · exact c
  · have hshed := c.economyShed
    change CallsBut [] n.enterEconomy
    unfold Node.enterEconomy
    dsimp only
    split
    · exact hshed
    · exact hshed.pass
theorem leaveEconomy : CallsBut [] (ownEconomyLeave k b n).node := by
  have hoff : CallsBut [] (n.setEconomy false) := c.kept (.of_same c.served rfl rfl)
  have hpass := hoff.pass
  refine c.of_checked fun _ => ?_
  split
  · dsimp only
    exact hpass
  · exact c
theorem setAllotmentAdd : CallsBut [] (ownSetAllotmentAdd k b n).node := by
  have hadd : CallsBut [] (n.addCells (allotmentCells b)) := c.kept (.of_same c.served rfl rfl)
  refine c.of_checked fun _ => ?_
  dsimp only
  split
  · exact hadd
  · exact hadd.pass
theorem setAllotmentRemove : CallsBut [] (ownSetAllotmentRemove k b n).node := by
  refine c.of_checked fun _ => ?_
  split
  · exact c
  · exact c.kept (.of_same c.served rfl rfl)
theorem startRequest : CallsBut [] (ownStart k b n).node := by
  have hstart := c.start
  refine c.of_checked fun _ => ?_
  dsimp only
  exact hstart
theorem phoneSetPort : CallsBut [] (ownPhoneSetPort k b n).node := c.of_checked fun _ => c.configure _ _ _
theorem phoneSetCommon : CallsBut [] (ownPhoneSetCommon k b n).node :=
  c.of_checked fun _ => c.kept (.of_calls c.served _ (fun w => w) (fun _ _ => Iff.rfl) fun _ _ => rfl)
theorem ringTest (drive : Bool) : CallsBut [] (ownRingTest drive k b n).node := c.of_checked fun _ => c.sameCall rfl
/-- An accepted CALL_CONTROL finds the call in a state in which the action is taken (R128). -/
theorem of_callChecks {taken : Phone → Bool} {a : Answer} (h : taken (n.phone (fin8 (f1 b 0))) = true → CallsBut [] a.node) :
    CallsBut [] (checked n (callChecks n b taken) a).node := by
  refine c.of_checked fun hchecks => h ?_
  have htaken := hchecks (_, refusal .wrongState) (List.mem_append_right _ (List.mem_of_getElem? (i := 3) rfl))
  simpa using htaken
theorem callAnswer : CallsBut [] (ownCallAnswer k b n).node := by
  refine c.of_callChecks b fun h => c.enterAnswered ?_ _
  rw [of_decide_eq_true h]
  rfl
theorem callHold (value : Bool) : CallsBut [] (ownCallHold value k b n).node := c.of_callChecks b fun _ => c.sameCall rfl
theorem callClear : CallsBut [] (ownCallClear k b n).node := c.of_callChecks b fun h => c.clearCall h
theorem callRing : CallsBut [] (ownCallRing k b n).node := by
  refine c.of_callChecks b fun h => ?_
  simp only [Bool.and_eq_true, beq_iff_eq] at h
  split
  · rename_i m hm
    exact c.ringPhone h.1 hm
  · exact c

end owners

/-! ## The commands -/

section commands
variable (c : CallsBut [] s.node)
include c

theorem event {f : Node → Node} (hf : ∀ {n : Node}, CallsBut [] n → CallsBut [] (f n)) (h : onNode s f = .next t) :
    CallsBut [] t.node := Node.Kept.onNode (fun _ => hf) h c
theorem engines {f : Node → Node} (hf : ∀ n : Node, n.Engines (f n)) (h : onNode s f = .next t) : CallsBut [] t.node :=
  c.event (fun {n} c => c.still (.engines (hf n))) h
theorem lines {f : Node → Node} (hf : ∀ n : Node, n.Lines (f n)) (h : onNode s f = .next t) : CallsBut [] t.node :=
  c.event (fun {n} c => c.still (.lines (hf n))) h
theorem link {f : State → State} (hf : ∀ s : State, s.node.Still (f s).node) (h : unlessHeld s f = .next t) :
    CallsBut [] t.node := unlessHeld_keeps h c (c.still (hf s))
theorem owner {mine : Request → Bool} {own : Link → List Byte → Node → Answer}
    (ho : ∀ k b {n : Node}, CallsBut [] n → CallsBut [] (own k b n).node) (h : handle s mine own = .next t) :
    CallsBut [] t.node := Node.Kept.handle (fun k b _ => ho k b) h c
theorem stillOwner {mine : Request → Bool} {own : Link → List Byte → Node → Answer}
    (ho : ∀ k b (n : Node), n.Still (own k b n).node) (h : handle s mine own = .next t) : CallsBut [] t.node :=
  c.owner (fun k b _ c => c.still (ho k b _)) h
/-- A request that only answers. -/
theorem answer {mine : Request → Bool} (own : Link → List Byte → Node → Answer) (ho : ∀ k b n, (own k b n).node = n)
    (h : handle s mine own = .next t) : CallsBut [] t.node :=
  c.owner (fun k b n c => (ho k b n).symm ▸ c) h
theorem setPins (q : Pins) : CallsBut [] (s.setPins q).node := c.congr rfl rfl
omit c in
theorem changeRate (s : State) (c : CallsBut [] s.node) (r : LinkRate) : CallsBut [] (s.changeRate r).node :=
  c.still (.changeRate s r)
theorem replySent : CallsBut [] s.replySent.node := by
  unfold State.replySent
  split
  · unfold State.afterReply
    dsimp only
    split
    · exact c
    · refine changeRate _ ?_ _
      exact c
    · exact powerOn _
  · exact c
  · exact c

end commands

/-- An event taken when it is due. -/
theorem whenDue {q : Prop} [Decidable q] {m k : Node} (hm : CallsBut [] m) (hk : CallsBut [] k) :
    CallsBut [] (if q then m else k) := by
  split
  · exact hm
  · exact hk
theorem exec (i : Instr) (c : CallsBut [] s.node) (h : Machine.exec i s = .next t) : CallsBut [] t.node := by
  cases i with
  | powerOn => cases h; exact powerOn s.node
  | resetInputLow => cases h; exact powerOn { s.node with pins := { s.node.pins with resetLow := true } }
  | resetInputRise => cases h; exact powerOn { s.node with pins := { s.node.pins with resetLow := false } }
  | frameStart voice =>
    have hframe := c.settle.frameStart voice
    unfold Machine.exec execFrameStart at h
    refine unlessHeld_keeps h c ?_
    dsimp only
    exact hframe
  | msTick loops => exact unlessHeld_keeps h (c.setPins _) (c.setPins _).msTick
  | stagingApply => exact c.event stagingApply h
  | lineHoldEnd l => exact c.event (fun c => c.still (.lineHoldEnd _ l)) h
  | lineFrameReceived l p f d => exact c.lines (·.lineFrame_lines l p f d) h
  | signalLost l pin => exact lines (c.setPins _) (·.signalGone_lines l) h
  | signalReturned l pin => exact lines (c.setPins _) .refl h
  | errorWindowEnd l => exact c.lines (·.windowEnd_lines l) h
  | presetConfirmTimeout l => exact c.lines (·.confirmTimeout_lines l) h
  | settleFramesEnd l => exact c.lines (·.settleEnd_lines l) h
  | marginPositionDone l => exact c.lines (·.positionDone_lines l) h
  | trainingRetry l => exact c.lines (·.retryEnd_lines l) h
  | periodicScanDue l => exact c.lines (·.periodicDue_lines l) h
  | holdOffExpired x => exact c.lines (·.holdOffEnd_lines x) h
  | wtrExpired x => exact c.lines (·.wtrEnd_lines x) h
  | timingRevert => exact c.lines Node.timingRevert_lines h
  | pathLostReroute x => exact c.event (auTakes (fun c => c.reroute x) · _) h
  | pathRestoredRevert x => exact c.event (auTakes (fun c => c.revert x) · _) h
  | callReselect g => exact c.event (·.ccTakes g) h
  | dualReceiveReselect g => exact c.event (fun c => c.still (.peTakes _ g)) h
  | loopAcceptedRise p => exact c.event (fun c => whenDue c (c.acceptEvent p)) h
  | loopAcceptedFall p => exact c.event (fun c => whenDue (c.acceptEvent p) c) h
  | offHookConfirmed p => exact c.event (fun c => whenDue (c.offHook p) c) h
  | onHookConfirmed p => exact c.event (fun c => whenDue (c.onHook p) c) h
  | cadencePeriodStart p =>
    unfold Machine.exec execCadencePeriodStart at h
    refine c.event (fun c => ?_) h
    split
    · exact whenDue c (c.cadenceEvent p)
    · exact c
  | cadenceOffPhase p =>
    unfold Machine.exec execCadenceOffPhase at h
    refine c.event (fun c => ?_) h
    split
    · exact whenDue (c.cadenceEvent p) c
    · exact c
  | heldLimitExpired p => exact c.event (fun c => whenDue (c.timerEvent p) c) h
  | ringTimeoutExpired p => exact c.event (fun c => whenDue (c.timerEvent p) c) h
  | clearGuardExpired p => exact c.event (fun c => whenDue (c.timerEvent p) c) h
  | tributaryFrameReceived k f => exact c.engines (·.tributaryIn_engines k f) h
  | tributaryFrameSent k => exact c.engines (·.outputEnd_engines k) h
  | outputFrameBegin k => exact c.engines (·.outputBegin_engines k) h
  | readyInputChange k level => exact engines (c.setPins _) (·.readyOn_engines k) h
  | stateFrameTimer x => exact c.engines (·.stateTimerEnd_engines x) h
  | countingIntervalEnd => exact c.engines Node.intervalEnd_engines h
  | pollCycleStart => exact c.engines Node.cycleStart_engines h
  | stationDue k => exact c.engines (·.stationDue_engines k) h
  | pollTelegramSent => exact c.engines Node.windowOpens_engines h
  | pollReplyStart => exact c.engines Node.replyStart_engines h
  | pollReplyTimeout => exact c.engines Node.replyTimeout_engines h
  | pollReplyEnd bs => exact c.engines (·.replyEnd_engines _) h
  | pollReplyGap bs => exact c.engines (·.replyEnd_engines _) h
  | lateReplyRunEnd =>
    unfold Machine.exec execLateReplyRunEnd at h
    refine c.event (fun c => ?_) h
    exact whenDue (c.congr rfl rfl) c
  | requestFrameReceived b => exact c.link (.rxByteIf · _ b) h
  | frameTooLong b => exact c.link (.rxByteIf · _ b) h
  | frameGap => exact c.link .gapEnd h
  | frameByteError => exact c.link .rxError h
  | replySent => exact unlessHeld_keeps h c c.replySent
  | reportSent => exact c.link .reportSent h
  | linkByteReceived b low =>
    unfold Machine.exec execLinkByteReceived at h
    refine unlessHeld_keeps h c ?_
    split
    · exact c.still (.rxError s)
    · exact c.still (.rxByte s b)
  | unknownKindRequest => exact c.answer ownUnknown (fun _ _ _ => rfl) h
  | identify => exact c.answer ownIdentify (fun _ _ _ => Node.Kept.checked_node) h
  | setLink => exact c.stillOwner .setLink h
  | start => exact c.owner (fun k b _ c => c.startRequest k b) h
  | reset => exact c.answer ownReset (fun _ _ _ => Node.Kept.checked_node) h
  | nodeStatus => exact c.answer ownNodeStatus (fun _ _ _ => Node.Kept.checked_node) h
  | setNode => exact c.stillOwner .setNode h
  | lineSet => exact c.stillOwner .lineSet h
  | marginScan => exact c.stillOwner .marginScan h
  | lineStatus => exact c.answer ownLineStatus (fun _ _ _ => Node.Kept.checked_node) h
  | pathForceSet => exact c.stillOwner .pathForceSet h
  | pathForceClear => exact c.stillOwner .pathForceClear h
  | pathStatus => exact c.answer ownPathStatus (fun _ _ _ => Node.Kept.checked_node) h
  | setAllotmentAdd => exact c.owner (fun k b _ c => c.setAllotmentAdd k b) h
  | setAllotmentRemove => exact c.owner (fun k b _ c => c.setAllotmentRemove k b) h
  | mapStatus => exact c.answer ownMapStatus (fun _ _ _ => Node.Kept.checked_node) h
  | setLevels => exact c.owner (fun k b _ c => c.setLevels k b) h
  | defineService => exact c.owner (fun k b _ c => c.defineService k b) h
  | releaseService => exact c.owner (fun k b _ c => c.releaseService k b) h
  | serviceStatusOne => exact c.answer ownServiceStatusOne (fun _ _ _ => Node.Kept.checked_node) h
  | serviceStatusSummary => exact c.answer ownServiceStatusSummary (fun _ _ _ => Node.Kept.checked_node) h
  | shedList => exact c.answer ownShedList (fun _ _ _ => Node.Kept.checked_node) h
  | economyEnter => exact c.owner (fun k b _ c => c.enterEconomy k b) h
  | economyLeave => exact c.owner (fun k b _ c => c.leaveEconomy k b) h
  | phoneSetPort => exact c.owner (fun k b _ c => c.phoneSetPort k b) h
  | phoneSetCommon => exact c.owner (fun k b _ c => c.phoneSetCommon k b) h
  | callControlAnswer => exact c.owner (fun k b _ c => c.callAnswer k b) h
  | callControlHold => exact c.owner (fun k b _ c => c.callHold k b true) h
  | callControlUnhold => exact c.owner (fun k b _ c => c.callHold k b false) h
  | callControlClear => exact c.owner (fun k b _ c => c.callClear k b) h
  | callControlRing => exact c.owner (fun k b _ c => c.callRing k b) h
  | callStatus => exact c.answer ownCallStatus (fun _ _ _ => Node.Kept.checked_node) h
  | ringTestOn => exact c.owner (fun k b _ c => c.ringTest k b true) h
  | ringTestOff => exact c.owner (fun k b _ c => c.ringTest k b false) h
  | packetPortSet => exact c.stillOwner .packetPortSet h
  | portStatusPort => exact c.answer ownPortStatusPort (fun _ _ _ => Node.Kept.checked_node) h
  | portStatusService => exact c.answer ownPortStatusService (fun _ _ _ => Node.Kept.checked_node) h
  | transferOpen => exact c.stillOwner .transferOpen h
  | transferAbort => exact c.stillOwner .transferAbort h
  | transferStatusOne => exact c.answer ownTransferStatusOne (fun _ _ _ => Node.Kept.checked_node) h
  | transferStatusAll => exact c.answer ownTransferStatusAll (fun _ _ _ => Node.Kept.checked_node) h
  | pollSet => exact c.stillOwner .pollSet h
  | stationSet => exact c.stillOwner .stationSet h
  | stationRead => exact c.answer ownStationRead (fun _ _ _ => Node.Kept.checked_node) h

theorem step (c : CallsBut [] s.node) (h : Machine.step s = .next t) : CallsBut [] t.node := by
  unfold Machine.step at h
  split at h
  · cases h; exact c
  · rename_i i rest _
    exact exec (s := s.withPending rest) i c h

end CallsBut

/-- Settles O10: every command keeps the calls in order, port by port, and the service table in id order, which `TablesInOrder` gives
at the start. -/
theorem stepKeepsCallsInOrder : Obligations.StepKeepsCallsInOrder := by
  unfold Obligations.StepKeepsCallsInOrder
  intro s t htables hcalls h
  exact (callsBut_nil_iff.1 ((callsBut_nil_iff.2 ⟨htables.byIds, hcalls⟩).step h)).2

end Sys2Proof.Machine
end

section
/-! SUPPORT. The tone code on the voice bus (R119), and the receive sides chosen again at a path signal (R117, R146). -/

namespace Sys2Proof.Machine

/-! ## Tones -/

/-- The tone code of a call, state by state, in the words of R119. -/
theorem Phone.tone_says (ph : Phone) :
    (ph.call = .idle ∨ ph.call = .held ∨ ph.call = .ringing → ph.tone = 0x00#8) ∧
    (∀ c, ph.call = .queued → ph.cadence = some c → c.kind = .wait → ph.tone = if c.onPhase then 0x02#8 else 0x00#8) ∧
    (ph.call = .opened → ph.tone = if ph.selected = none then 0x03#8 else 0x01#8) ∧
    (ph.call = .answered → ph.tone = if ph.selected = none then 0x03#8 else 0x00#8) ∧
    (ph.call = .clearing → ph.tone = 0x04#8) := by
  have hisolated (h : ph.call.holds = true) : ph.isolated = decide (ph.selected = none) := by
    rw [Phone.isolated, h]
    cases ph.selected <;> rfl
  refine ⟨?_, fun c hq hc _ => ?_, fun h => ?_, fun h => ?_, fun h => ?_⟩
  · rintro (h | h | h) <;> simp only [Phone.tone, h]
  · simp only [Phone.tone, hq, hc, Option.map_some, Option.getD_some]
  · simp only [Phone.tone, h, hisolated (by rw [h]; rfl), decide_eq_true_eq]
  · simp only [Phone.tone, h, hisolated (by rw [h]; rfl), decide_eq_true_eq]
  · simp only [Phone.tone, h]

/-- Settles O52: the voice bus, the last stage of a frame start, sends the tone of each enabled port's call. -/
theorem tonesFollowTheCallState : Obligations.TonesFollowTheCallState := by
  intro s voice hs
  refine ⟨_, exec_frameStart voice hs, fun p => ?_⟩
  rw [State.became_node]
  intro ph hrun hon
  obtain ⟨m, hop, -, hph⟩ := s.settle.node.frameStart_channel voice p
  have hphoneOn : m.phoneOn p = true := by
    by_contra hoff
    have hsame : ph.set = (m.phone p).set := by
      rw [show ph = _ from hph, Node.voiceChannel_off (by simpa using hoff)]
    exact hoff (by simp [Node.phoneOn, hop.trans hrun, ← hsame, hon])
  rw [Node.voiceChannel_on hphoneOn] at hph
  rw [show ph = _ from hph]
  exact (m.phone p).tone_says

/-! ## Calls that choose their receive side -/

/-- A call that holds a service takes the receive side chosen. -/
def Phone.reselected (ph : Phone) (pick : Option Side) : Phone := if ph.call.holds then { ph with selected := pick } else ph

section reselect
variable (n : Node) {p q : Fin 8}

theorem Node.reselectCall_phone (p : Fin 8) :
    (n.reselectCall p).phone p = (n.phone p).reselected (n.callSelection p) := by
  unfold Node.reselectCall Phone.reselected
  dsimp only
  split
  · split
    · exact n.phone_setPhone p _
    · exact n.phone_setPhone p _
  · rfl
theorem Node.reselectCall_phone_ne (h : p ≠ q) : (n.reselectCall p).phone q = n.phone q := by
  unfold Node.reselectCall
  dsimp only
  split
  · split
    · exact n.phone_setPhone_ne h _
    · exact n.phone_setPhone_ne h _
  · rfl
theorem Node.reselectCall_rest (p : Fin 8) :
    n.reselectCall p = { n with cc := (n.reselectCall p).cc, reports := (n.reselectCall p).reports } := by
  unfold Node.reselectCall
  dsimp only
  split
  · split <;> rfl
  · rfl
theorem Node.reselectEach_rest (l : List (Fin 8)) :
    ∃ cc reports, l.foldl Node.reselectCall n = { n with cc := cc, reports := reports } := by
  induction l generalizing n with
  | nil => exact ⟨_, _, rfl⟩
  | cons p l ih =>
    obtain ⟨cc, reports, h⟩ := ih (n.reselectCall p)
    refine ⟨cc, reports, ?_⟩
    rw [List.foldl_cons, h, n.reselectCall_rest p]
theorem Node.reselectCall_selection (q : Fin 8) : (n.reselectCall p).callSelection q = n.callSelection q := by
  rw [n.reselectCall_rest p]
  rfl
theorem Node.reselectEach_phone {l : List (Fin 8)} (hl : l.Nodup) (p : Fin 8) : (l.foldl Node.reselectCall n).phone p =
    if p ∈ l then (n.phone p).reselected (n.callSelection p) else n.phone p := by
  induction l generalizing n with
  | nil => rfl
  | cons q l ih =>
    obtain ⟨hq, hl⟩ := List.nodup_cons.1 hl
    rw [List.foldl_cons, ih _ hl, Node.reselectCall_selection]
    by_cases he : q = p
    · subst he
      rw [if_neg hq, if_pos List.mem_cons_self, Node.reselectCall_phone]
    · rw [Node.reselectCall_phone_ne n he]
      simp [Ne.symm he]
theorem Node.reselectCalls_phone (p : Fin 8) : n.reselectCalls.phone p = (n.phone p).reselected (n.callSelection p) :=
  (n.reselectEach_phone (by decide) p).trans (if_pos (by revert p; decide))

end reselect

/-! ## DUAL services that choose their receive side -/

section dual
variable (v : PeService) {prot : Protection} (pick : Option Side)

theorem PeService.reselect_off (h : prot = .reroute ∨ v.attached = false) : v.reselect prot pick = v := by
  unfold PeService.reselect
  rw [if_neg]
  rcases h with rfl | h
  · simp
  · simp [h]
theorem PeService.reselect_dual (h : v.attached = true) : v.reselect .dual pick = (({ v with selected := pick } : PeService).sideChanged
    (receiveSide .dual v) (receiveSide .dual { v with selected := pick })) := by
  simp [PeService.reselect, h]
theorem PeService.sideChanged_selected (x y : Option Side) : (v.sideChanged x y).selected = v.selected := by
  unfold PeService.sideChanged
  split <;> rfl
theorem PeService.sideChanged_same (x : Option Side) : v.sideChanged x x = v := by simp [PeService.sideChanged]
theorem receiveSide_dual (h : v.live.a ≠ [] ∨ v.live.b ≠ []) : receiveSide .dual v = v.selected := by
  simp only [receiveSide, Bool.and_eq_true, List.isEmpty_iff]
  exact if_neg (not_and_or.2 h)
/-- An attached DUAL service takes the side chosen, and a changed receive side costs it its sync. -/
theorem PeService.reselect_says (h : v.attached = true) : (v.reselect .dual pick).selected = pick ∧
    (v.inSync = true → (v.live.a ≠ [] ∨ v.live.b ≠ []) → v.selected ≠ pick → (v.reselect .dual pick).inSync = false ∧
      (v.reselect .dual pick).gathered = [] ∧ (v.reselect .dual pick).counts.syncLosses = min 4294967295 (v.counts.syncLosses + 1)) ∧
    (v.selected = pick → v.reselect .dual pick = v) := by
  rw [v.reselect_dual pick h]
  refine ⟨PeService.sideChanged_selected _ _ _, fun hsync hlive hside => ?_, fun hside => ?_⟩
  · have hchange : (({ v with selected := pick } : PeService).sideChanged (receiveSide .dual v)
        (receiveSide .dual { v with selected := pick })) = ({ v with selected := pick } : PeService).loseSync := by
      rw [receiveSide_dual v hlive, receiveSide_dual { v with selected := pick } hlive]
      exact if_pos (by simp [hsync, hside])
    rw [hchange]
    exact ⟨rfl, rfl, rfl⟩
  · subst hside
    exact PeService.sideChanged_same _ _

end dual

/-- What a packet service holds after its node's services have chosen their receive sides. -/
def Node.chosenSide (n : Node) (v : PeService) : PeService :=
  (n.svc v.id).elim v fun sv => v.reselect sv.prot (n.pickSide sv.primary)
theorem Node.chosenSide_of_svc {n : Node} {v : PeService} {sv : Service} (h : n.svc v.id = some sv) :
    n.chosenSide v = v.reselect sv.prot (n.pickSide sv.primary) := by rw [Node.chosenSide, h]; rfl
theorem Node.reselectDual_svcs (n : Node) : n.reselectDual.pe.svcs = n.pe.svcs.map n.chosenSide := by
  refine List.map_congr_left fun v _ => ?_
  unfold Node.chosenSide
  cases n.svc v.id <;> rfl

/-! ## The commands -/

section signals
variable {n : Node} {g : PathSignal}

theorem Node.ccTakes_due (h : n.sig.cc.find? (fun k => decide (k.side = g.side)) = some g) :
    n.ccTakes g = ({ n with sig := { n.sig with cc := n.sig.cc.erase g } } : Node).reselectCalls :=
  if_pos ((PathSignal.stands_iff g _).2 h)
theorem Node.ccTakes_not_due (h : n.sig.cc.find? (fun k => decide (k.side = g.side)) ≠ some g) : n.ccTakes g = n :=
  if_neg fun hs => h ((PathSignal.stands_iff g _).1 hs)
theorem Node.peTakes_due (h : n.sig.pe.find? (fun k => decide (k.side = g.side)) = some g) :
    n.peTakes g = ({ n with sig := { n.sig with pe := n.sig.pe.erase g } } : Node).reselectDual :=
  if_pos ((PathSignal.stands_iff g _).2 h)
theorem Node.peTakes_not_due (h : n.sig.pe.find? (fun k => decide (k.side = g.side)) ≠ some g) : n.peTakes g = n :=
  if_neg fun hs => h ((PathSignal.stands_iff g _).1 hs)

end signals

theorem exec_callReselect {s : State} (g : PathSignal) (h : s.awake) :
    exec (.callReselect g) s = .next (s.became (s.node.ccTakes g)) := onNode_awake s (·.ccTakes g) h
theorem exec_dualReceiveReselect {s : State} (g : PathSignal) (h : s.awake) :
    exec (.dualReceiveReselect g) s = .next (s.became (s.node.peTakes g)) := onNode_awake s (·.peTakes g) h

/-- Settles O53: a signal that is not the first of its side is not taken; the calls and the DUAL services each choose anew. -/
theorem pathSignalsReselectReceiveSides : Obligations.PathSignalsReselectReceiveSides := by
  intro s g hs n pick first
  refine ⟨fun h => ?_, fun h => ?_, fun h => ?_, fun h => ?_⟩
  · rw [exec_callReselect g hs, Node.ccTakes_not_due h]
  · rw [exec_dualReceiveReselect g hs, Node.peTakes_not_due h]
  · refine ⟨_, exec_callReselect g hs, ?_⟩
    rw [Node.ccTakes_due h]
    obtain ⟨cc, reports, hrest⟩ := Node.reselectEach_rest { n with sig := { n.sig with cc := n.sig.cc.erase g } } allPhones
    refine ⟨?_, fun p => Node.reselectCalls_phone _ p, ?_⟩
    all_goals rw [Node.reselectCalls, hrest]
    exact ⟨rfl, rfl, rfl, rfl, rfl, rfl, rfl⟩
  · refine ⟨_, exec_dualReceiveReselect g hs, ?_⟩
    rw [Node.peTakes_due h]
    have hchosen {v : PeService} {sv : Service} (hsv : n.svc v.id = some sv) : Node.chosenSide
        { n with sig := { n.sig with pe := n.sig.pe.erase g } } v = v.reselect sv.prot (pick sv.primary) :=
      Node.chosenSide_of_svc hsv
    have hsvcs := Node.reselectDual_svcs { n with sig := { n.sig with pe := n.sig.pe.erase g } }
    refine ⟨rfl, by rw [hsvcs, List.length_map], fun k v hv => ⟨_, by rw [hsvcs, List.getElem?_map, hv]; rfl, ?_, ?_⟩,
      rfl, rfl, rfl, rfl, rfl, rfl, rfl⟩
    · intro sv hsv hdual hatt
      rw [hchosen hsv, hdual]
      exact v.reselect_says _ hatt
    · intro sv hsv hoff
      rw [hchosen hsv]
      exact v.reselect_off _ hoff

end Sys2Proof.Machine
end

section
/-! SUPPORT. PHONE_SET (R109 to R111, R131) and RING_TEST (R132): the checks passed and the answers. -/

namespace Sys2Proof.Machine

/-- Checks that pass leave the decision to those after them. -/
theorem checked_after {n : Node} {front rest : List (Bool × Reply)} {accept : Answer} (h : ∀ c ∈ front, c.1 = false) :
    checked n (front ++ rest) accept = checked n rest accept := by
  have hnone : front.find? (·.1) = none := List.find?_eq_none.2 fun c hc => by simp [h c hc]
  simp [checked, firstRefusal, List.find?_append, hnone]
theorem checked_one_passed {n : Node} {fails : Bool} {r : Reply} {accept : Answer} (h : fails = false) :
    checked n [(fails, r)] accept = accept := checked_passed (by simp [h])
theorem checked_one_failed {n : Node} {fails : Bool} {r : Reply} {accept : Answer} (h : fails = true) :
    checked n [(fails, r)] accept = { node := n, reply := r } := checked_failed (by simp [firstRefusal, h])
theorem boolOf_isSome {x : Nat} (h : x ≤ 1) : (boolOf x).isSome = true := by
  interval_cases x <;> rfl

/-! ## PHONE_SET, form PORT -/

/-- A PHONE_SET of form PORT whose fields are in their ranges. -/
structure PhoneSetInRange (b : List Byte) (p : Fin 8) (x : Side) (pol : Polarity) : Prop where
  form : f1 b 0 = 0
  length : b.length = 15
  port : f1 b 1 = p.val
  enabled : f1 b 2 ≤ 1
  side : sideOf (f1 b 5) = some x
  offHook : 20 ≤ f2 b 6 ∧ f2 b 6 ≤ 1000
  onHook : 200 ≤ f2 b 8 ∧ f2 b 8 ≤ 5000
  flash : 60 ≤ f2 b 10 ∧ f2 b 10 ≤ 1000
  filter : f1 b 12 ≤ 1
  hold : f1 b 13 ≤ 1
  polarity : polarityOf (f1 b 14) = some pol
  below : f2 b 10 < f2 b 8

section phoneSet
variable {b : List Byte} {p : Fin 8} {x : Side} {pol : Polarity} (h : PhoneSetInRange b p x pol) (k : Link) (n : Node)
include h

/-- The fields of an accepted form PORT, as settings. -/
theorem PhoneSetInRange.settings : phoneSettingsOf b =
    ⟨decide (f1 b 2 = 1), f2 b 3, x, f2 b 6, f2 b 8, f2 b 10, decide (f1 b 12 = 1), decide (f1 b 13 = 1), pol⟩ := by
  unfold phoneSettingsOf
  rw [h.side, h.polarity]
  rfl
theorem PhoneSetInRange.fields_pass : ∀ c ∈ formChecks b 15 ++ phonePortChecks b, c.1 = false := by
  have hport : f1 b 1 ≤ 7 := h.port ▸ Nat.le_of_lt_succ p.isLt
  have hne : b ≠ [] := fun hnil => by simpa [hnil] using h.length
  have hform : ∀ c ∈ formChecks b 15, c.1 = false := by
    simp [formChecks, hne, h.length, h.form, outside]
  have hfields : ∀ c ∈ phonePortChecks b, c.1 = false := by
    simp [phonePortChecks, hport, bad, boolOf_isSome h.enabled, h.side, outside_eq_false h.offHook.1 h.offHook.2,
      outside_eq_false h.onHook.1 h.onHook.2, outside_eq_false h.flash.1 h.flash.2, boolOf_isSome h.filter, boolOf_isSome h.hold,
      h.polarity, h.below]
  exact fun c hc => (List.mem_append.1 hc).elim (hform c) (hfields c)
/-- Only a call that stands keeps a port of the node in RUNNING from being disabled. -/
theorem ownPhoneSetPort_eq : ownPhoneSetPort k b n = checked n
    [(n.op == .running && !(phoneSettingsOf b).enabled && (n.phone p).call != .idle, refusal .wrongState)]
    { node := n.setPhone p ((n.phone p).configure (phoneSettingsOf b) (n.op == .running)), reply := okReply [] } := by
  unfold ownPhoneSetPort
  rw [checked_after h.fields_pass, h.port, fin8_val]
  rfl

end phoneSet

/-! ## PHONE_SET, form COMMON -/

/-- A PHONE_SET of form COMMON whose fields are in their ranges. -/
structure CommonSetInRange (b : List Byte) : Prop where
  form : b[0]? = some 0x01#8
  length : b.length = 13
  heldLimit : 1 ≤ f1 b 1 ∧ f1 b 1 ≤ 60
  ringTimeout : 10 ≤ f2 b 2 ∧ f2 b 2 ≤ 300
  clearGuard : f1 b 4 ≤ 30
  ringPeriod : 1000 ≤ f2 b 5 ∧ f2 b 5 ≤ 10000
  ringOn : 100 ≤ f2 b 7 ∧ f2 b 7 + 100 ≤ f2 b 5
  waitPeriod : 1000 ≤ f2 b 9 ∧ f2 b 9 ≤ 10000
  waitOn : 100 ≤ f2 b 11 ∧ f2 b 11 + 100 ≤ f2 b 9

theorem ownPhoneSetCommon_ok {b : List Byte} (h : CommonSetInRange b) (k : Link) (n : Node) : ownPhoneSetCommon k b n =
    { node := { n with cc := { n.cc with common := commonOf b } }, reply := okReply [] } := by
  have hne : b ≠ [] := fun hnil => by simpa [hnil] using h.length
  have hform : f1 b 0 = 1 := f1_of_getElem? h.form
  have hchecks : ∀ c ∈ formChecks b 13, c.1 = false := by
    simp [formChecks, hne, h.length, hform, outside]
  unfold ownPhoneSetCommon
  refine checked_append hchecks ?_
  simp [outside_eq_false h.heldLimit.1 h.heldLimit.2, outside_eq_false h.ringTimeout.1 h.ringTimeout.2,
    outside_eq_false (Nat.zero_le _) h.clearGuard, outside_eq_false h.ringPeriod.1 h.ringPeriod.2,
    outside_eq_false h.ringOn.1 (Nat.le_sub_of_add_le h.ringOn.2), outside_eq_false h.waitPeriod.1 h.waitPeriod.2,
    outside_eq_false h.waitOn.1 (Nat.le_sub_of_add_le h.waitOn.2)]

/-! ## RING_TEST -/

section ringTest
variable {b : List Byte} {p : Fin 8} (hlen : b.length = 2) (hport : f1 b 0 = p.val) (hdrive : f1 b 1 ≤ 1) (k : Link) (n : Node)
include hlen hport hdrive

theorem ownRingTest_eq (drive : Bool) : ownRingTest drive k b n = checked n
    [(!n.phoneOn p, refusal .wrongState), ((n.phone p).call != .idle, refusal .wrongState)]
    { node := n.setPhone p { n.phone p with testDrive := drive }, reply := okReply [] } := by
  have hp : f1 b 0 ≤ 7 := hport ▸ Nat.le_of_lt_succ p.isLt
  have hpass : ∀ c ∈ commonChecks n false b 2 ++ [(decide (7 < f1 b 0), badField 0), (bad (boolOf (f1 b 1)), badField 1)],
      c.1 = false := by
    simp [commonChecks, hlen, hp, bad, boolOf_isSome hdrive]
  have hsplit : ringTestChecks n b = (commonChecks n false b 2 ++
      [(decide (7 < f1 b 0), badField 0), (bad (boolOf (f1 b 1)), badField 1)]) ++
      [(!n.phoneOn p, refusal .wrongState), ((n.phone p).call != .idle, refusal .wrongState)] := by
    rw [List.append_assoc, ringTestChecks, hport, fin8_val]
    rfl
  rw [ownRingTest, hsplit, checked_after hpass, hport, fin8_val]
  rfl

end ringTest

/-- A row of a kind takes a request whose form byte is none of the other rows'. -/
theorem isKindBut_of_ne {k : Byte} {off : Nat} {others : List Byte} {r : Request} (h : r.kind = k)
    (hne : ∀ v ∈ others, f1 r.body off ≠ v.toNat) : isKindBut k off others r = true := by
  have hnone : ∀ v ∈ others, r.body[off]? ≠ some v := fun v hv hin => hne v hv (f1_of_getElem?_at hin)
  simpa [isKindBut, h] using hnone

/-- RING_TEST sets the test drive of an IDLE port enabled in RUNNING, and is refused on any other. -/
theorem ringTest_says {s : State} {i : Fin 4} {r : Request} {p : Fin 8} {mine : Request → Bool} (hasks : s.asks i r)
    (hm : mine r = true) (hlen : r.body.length = 2) (hport : f1 r.body 0 = p.val) (hdrive : f1 r.body 1 ≤ 1) (drive : Bool) :
    (decide (s.node.op = .running) = true → (s.node.phone p).set.enabled = true → (s.node.phone p).call = .idle →
      handle s mine (ownRingTest drive) =
        .next (s.replied i r (s.node.setPhone p { s.node.phone p with testDrive := drive }) (okBytes []))) ∧
    (decide (s.node.op = .running) = false ∨ (s.node.phone p).set.enabled = false ∨ (s.node.phone p).call ≠ .idle →
      handle s mine (ownRingTest drive) = .next (s.replied i r s.node (refusedBytes 0x08#8))) := by
  have hown := ownRingTest_eq hlen hport hdrive s.link s.node drive
  refine ⟨fun hrun hen hidle => ?_, fun hnot => ?_⟩
  · refine handle_ok hasks hm (hown.trans (checked_passed ?_))
    simp [Node.phoneOn, hen, of_decide_eq_true hrun, hidle]
  · refine handle_refused hasks hm (reply := refusal .wrongState) (hown.trans (checked_failed ?_))
    rcases hnot with hrun | hen | hcall
    · simp [firstRefusal, Node.phoneOn, of_decide_eq_false hrun]
    · simp [firstRefusal, Node.phoneOn, hen]
    · cases s.node.phoneOn p <;> simp [firstRefusal, hcall]

/-- Settles O51: the fields pass; of form PORT the last check alone can refuse, and of RING_TEST the last two. -/
theorem phoneSettingsAndRingTest : Obligations.PhoneSettingsAndRingTest := by
  intro s i r p x pol hasks n b ph run on set q
  refine ⟨fun hkind hform hlen hport hen hside hoff hoff' hon hon' hflash hflash' hfilter hhold hpol hbelow => ?_,
    fun hkind hform hlen hheld hheld' hring hring' hguard hrp hrp' hro hro' hwp hwp' hwo hwo' => ?_,
    fun hkind hlen hport drive cmd hcmd => ?_⟩
  · have hrange : PhoneSetInRange b p x pol :=
      ⟨hform, hlen, hport, hen, hside, ⟨hoff, hoff'⟩, ⟨hon, hon'⟩, ⟨hflash, hflash'⟩, hfilter, hhold, hpol, hbelow⟩
    have hmine : isKindBut 0x14#8 0 [0x01#8] r = true := isKindBut_of_form_zero hkind hform
    have hset : phoneSettingsOf b = set := hrange.settings
    have hown (k : Link) := ownPhoneSetPort_eq hrange k n
    refine ⟨fun hrun hdis hcall => handle_refused hasks hmine (own := ownPhoneSetPort) ((hown _).trans (checked_one_failed ?_)),
      fun hok => handle_ok hasks hmine (own := ownPhoneSetPort) ((hown _).trans ((checked_one_passed ?_).trans ?_))⟩
    · rw [hset]
      simp [set, show n.op = .running from of_decide_eq_true hrun, show on = false from hdis, show (n.phone p).call ≠ .idle from hcall]
    · rw [hset]
      rcases hok with hrun | hon | hcall
      · simp [show n.op ≠ .running from of_decide_eq_false hrun]
      · simp [set, show on = true from hon]
      · simp [show (n.phone p).call = .idle from hcall]
    · have hring : ph.ringing = decide (ph.cadence.map (·.kind) = some .ring) := by
        unfold Phone.ringing
        cases ph.cadence with
        | none => rfl
        | some d => cases hk : d.kind <;> simp [hk]
      have hq : q = { ph with set := set, differing := 0, polarity := if ph.ringing then ph.polarity else pol } := by
        rw [hring]
        simp [q]
      rw [hset, hq]
      rfl
  · exact handle_ok hasks (isKindWith_of_eq hkind hform) (own := ownPhoneSetCommon) (ownPhoneSetCommon_ok
      ⟨hform, hlen, ⟨hheld, hheld'⟩, ⟨hring, hring'⟩, hguard, ⟨hrp, hrp'⟩, ⟨hro, hro'⟩, ⟨hwp, hwp'⟩, ⟨hwo, hwo'⟩⟩ _ n)
  · rcases hcmd with ⟨hform, rfl, rfl⟩ | ⟨hform, rfl, rfl⟩
    · exact ringTest_says hasks (isKindBut_of_ne hkind (by simp [b, hform])) hlen hport (Nat.le_of_eq hform) true
    · exact ringTest_says hasks (isKindWith_of_eq hkind hform) hlen hport (by rw [f1_of_getElem?_at hform]; decide) false

end Sys2Proof.Machine
end

section
/-! SUPPORT. A call that ends and a caller's call that starts (R121, R122, R126), stage by stage: the call records entered, and what the
node is left with. -/

namespace Sys2Proof.Machine

/-! ## Call records replaced -/

section setPhone
variable (n : Node) (p : Fin 8) (a b : Phone)

theorem Node.setPhone_setPhone : (n.setPhone p a).setPhone p b = n.setPhone p b := by
  simp [Node.setPhone, Vector.set_set]
theorem Node.setPhone_self : n.setPhone p (n.phone p) = n := by
  simp [Node.setPhone, Node.phone]
/-- The waiting list without a port, and with a port at its end (R121, R122). -/
def Node.withoutWaiting : Node := { n with cc := { n.cc with waiting := n.cc.waiting.filter (· != p) } }
def Node.withWaiting : Node := { n with cc := { n.cc with waiting := n.cc.waiting ++ [p] } }
theorem Node.withoutWaiting_setPhone : (n.setPhone p a).withoutWaiting p = (n.withoutWaiting p).setPhone p a := rfl

end setPhone

/-- A call record cleared as the call enters IDLE (R126). -/
def Phone.idled (ph : Phone) : Phone :=
  { ph.stopCadence with
    call := .idle, origin := none, start := none, holdRequested := false, selected := none, liveCell := none, timer := none }
/-- A call record as the call enters CLEARING (R126). -/
def Phone.clearingIn (ph : Phone) (ticks : Nat) : Phone :=
  { ph.stopCadence with call := .clearing, timer := some (.clearGuard, ticks) }
/-- A call record as a caller's call is queued (R121). -/
def Phone.queuedAt (ph : Phone) (now : BitVec 32) (c : Common) : Phone :=
  { ph with call := .queued, origin := some .caller, start := some now, testDrive := false, cadence := some (c.cadence .wait) }

section ends
variable (n : Node) (p : Fin 8) (ph : Phone) (o : CallOutcome)

/-- The call is IDLE, before the entry is tested for a caller's call. -/
def Node.idle : Node := ((n.withoutWaiting p).setPhone p (n.phone p).idled).callEvent p (n.phone p).call o
theorem Node.enterIdle_eq : n.enterIdle p o = (n.idle p o).testCaller p := rfl
@[simp] theorem Node.idle_phone : (n.idle p o).phone p = (n.phone p).idled := Node.phone_setPhone _ _ _
theorem Node.idle_setPhone : (n.setPhone p ph).idle p o = ((n.withoutWaiting p).setPhone p ph.idled).callEvent p ph.call o := by
  rw [Node.idle, Node.phone_setPhone, Node.withoutWaiting_setPhone, Node.setPhone_setPhone]
theorem Node.idle_traffic : n.Traffic (n.idle p o) := by
  refine Node.Traffic.trans (Node.Traffic.trans ?_ (Node.setPhone_traffic _ p _)) (Node.callEvent_traffic _ _ _ _)
  exact n.traffic_of_blocks _ _ _ _ _ _ rfl rfl rfl fun w => w

/-- The call is CLEARING, before a clear guard of 0 expires. -/
def Node.clearing : Node :=
  (n.setPhone p ((n.phone p).clearingIn (1000 * n.cc.common.clearGuard))).callEvent p (n.phone p).call o
theorem Node.clearing_setPhone : (n.setPhone p ph).clearing p o =
    (n.setPhone p (ph.clearingIn (1000 * n.cc.common.clearGuard))).callEvent p ph.call o := by
  rw [Node.clearing, Node.phone_setPhone, Node.setPhone_setPhone]
  rfl
theorem Node.enterClearing_guarded (h : n.cc.common.clearGuard ≠ 0) : n.enterClearing p o = n.clearing p o :=
  if_neg (Nat.mul_ne_zero (by decide) h)
theorem Node.enterClearing_unguarded (h : n.cc.common.clearGuard = 0) : n.enterClearing p o = (n.clearing p o).guardEnd p :=
  if_pos (show 1000 * n.cc.common.clearGuard = 0 by rw [h])
theorem Node.setPhone_enterClearing_guarded (h : n.cc.common.clearGuard ≠ 0) : (n.setPhone p ph).enterClearing p o =
    (n.setPhone p (ph.clearingIn (1000 * n.cc.common.clearGuard))).callEvent p ph.call o :=
  ((n.setPhone p ph).enterClearing_guarded p o h).trans (n.clearing_setPhone p ph o)
theorem Node.setPhone_enterClearing_unguarded (h : n.cc.common.clearGuard = 0) : (n.setPhone p ph).enterClearing p o =
    ((n.setPhone p (ph.clearingIn 0)).callEvent p ph.call o).guardEnd p := by
  rw [(n.setPhone p ph).enterClearing_unguarded p o h, Node.clearing_setPhone, h]
theorem Node.enterAnswered_setPhone : (n.setPhone p ph).enterAnswered p o =
    (n.setPhone p { ph.stopCadence with call := .answered, timer := none }).callEvent p ph.call o := by
  rw [Node.enterAnswered, Node.modPhone, Node.phone_setPhone, Node.setPhone_setPhone]

end ends

/-! ## A caller's call (R121) -/

section caller
variable {n m : Node} {p : Fin 8}

/-- The handset calls no one: it rests, or the clear-lock stands, or the port is not enabled, or the node is in CONFIG. -/
def Node.Rests (n : Node) (p : Fin 8) : Prop :=
  (n.phone p).hook = .onHook ∨ (n.phone p).clearLock = true ∨ n.phoneOn p = false
theorem Node.testCaller_rests (h : n.Rests p) : n.testCaller p = n := by
  refine if_neg ?_
  rcases h with h | h | h <;> simp [h]
theorem Node.testCaller_calls (hidle : (n.phone p).call = .idle) (h : ¬ n.Rests p) : n.testCaller p = n.callerCall p := by
  obtain ⟨hhook, hlock, hon⟩ : (n.phone p).hook ≠ .onHook ∧ (n.phone p).clearLock ≠ true ∧ n.phoneOn p ≠ false := by
    simpa only [Node.Rests, not_or] using h
  refine if_pos ?_
  have hoff : (n.phone p).hook = .offHook := by
    cases hh : (n.phone p).hook with
    | onHook => exact absurd hh hhook
    | offHook => rfl
  simp [hidle, hoff, hlock, hon]
theorem Node.callerCall_placed (h : n.callPlacement p = some m) : n.callerCall p = m.openCall p := by
  rw [Node.callerCall, h]
theorem Node.callerCall_queued (h : n.callPlacement p = none) : n.callerCall p =
    ((n.withWaiting p).setPhone p ((n.phone p).queuedAt n.runTime n.cc.common)).callEvent p .idle .queued := by
  rw [Node.callerCall, h]
  rfl
/-- The side chosen turns on the paths and the service alone. -/
theorem Node.CallPlaced.selection (c : n.CallPlaced p m) (h : n.callPlacement p = some m) :
    m.callSelection p = n.pickSide (n.phone p).set.preferred := by
  obtain ⟨k, cells, hrecord, -⟩ := c.record
  have hpath (x : Side) : m.usable x = n.usable x := by
    unfold Node.usable Node.pathOf
    rw [(Node.callPlacement_traffic h).path]
  rw [Node.callSelection, hrecord]
  simp only [Option.bind_some, Node.pickSide, hpath]
  rfl

end caller

/-! ## The end of a clear guard (R126) -/

section guard
variable {n m : Node} {p : Fin 8}

/-- The call's service is gone, before the call enters IDLE. -/
def Node.freed (n : Node) (p : Fin 8) : Node := ((n.svc (callId p)).map n.release).getD n
theorem Node.guardEnd_eq (n : Node) (p : Fin 8) : n.guardEnd p = ((n.freed p).idle p .ended).testCaller p := by
  unfold Node.guardEnd Node.freed
  cases n.svc (callId p) <;> rfl
theorem Node.freed_traffic (n : Node) (p : Fin 8) : n.Traffic (n.freed p) := by
  unfold Node.freed
  cases n.svc (callId p) with
  | none => exact .refl n
  | some v => exact n.release_traffic v
theorem Node.freed_svc (hp : p ∉ n.cc.waiting) : (n.freed p).svc (callId p) = none := by
  unfold Node.freed
  cases hv : n.svc (callId p) with
  | none => exact hv
  | some v => exact Node.release_call_none (Node.svc_id hv) hp
/-- A release opens calls of ports that wait; the other ports keep their records, and all what loop-detect capture holds. -/
theorem Node.release_phones (n : Node) (v : Service) : (n.release v).cc.common = n.cc.common ∧
    (∀ q, q ∉ n.cc.waiting → (n.release v).phone q = n.phone q) ∧ ∀ q, ((n.release v).phone q).loop = (n.phone q).loop := by
  have hopens := n.release_opens v
  have hcc := (n.vacated_rest v).1
  have hphone (q : Fin 8) : (n.vacated v).phone q = n.phone q := by simp only [Node.phone, hcc]
  exact ⟨hopens.common.trans (congrArg Calls.common hcc), fun q hq => (hopens.phone q hq).trans (hphone q),
    fun q => (hopens.loop q).trans (congrArg Phone.loop (hphone q))⟩
theorem Node.freed_phones (n : Node) (p : Fin 8) : (n.freed p).cc.common = n.cc.common ∧
    (∀ q, q ∉ n.cc.waiting → (n.freed p).phone q = n.phone q) ∧ ∀ q, ((n.freed p).phone q).loop = (n.phone q).loop := by
  unfold Node.freed
  cases n.svc (callId p) with
  | none => exact ⟨rfl, fun _ _ => rfl, fun _ => rfl⟩
  | some v => exact n.release_phones v

/-- What the end of a clear guard leaves: the call is IDLE or, of a handset lifted, a caller's call again (R121, R126). -/
theorem Node.guardEnd_ended (hp : p ∉ n.cc.waiting) : GuardEnded n (n.guardEnd p) p := by
  have ht := n.guardEnd_traffic p
  have hidle := (n.freed_traffic p).trans ((n.freed p).idle_traffic p .ended)
  obtain ⟨hcommon, hphones, -⟩ := n.freed_phones p
  have hph : ((n.freed p).idle p .ended).phone p = (n.phone p).idled := by rw [Node.idle_phone, hphones p hp]
  have hsvc : ((n.freed p).idle p .ended).svc (callId p) = none := Node.freed_svc hp
  have hcommon' : ((n.freed p).idle p .ended).cc.common = n.cc.common := hcommon
  rw [Node.guardEnd_eq] at ht ⊢
  generalize hi : (n.freed p).idle p .ended = i at *
  have hrests : i.Rests p ↔
      ((n.phone p).hook = .onHook ∨ (n.phone p).clearLock = true ∨ (n.phone p).set.enabled = false ∨ n.op = .config) := by
    rw [Node.Rests, Node.phoneOn, hph, hidle.op]
    cases n.op <;> simp [Phone.idled, Phone.stopCadence]
  refine ⟨fun hr => ?_, fun hr => ?_, ht.grows, ht.line, ht.path, ht.cfg, ht.clk, ht.op, ht.runTime, ht.pins⟩
  · rw [Node.testCaller_rests (hrests.2 hr)]
    exact ⟨hph, hsvc⟩
  · rw [Node.testCaller_calls (by rw [hph]; rfl) (mt hrests.1 hr)]
    cases hplace : i.callPlacement p with
    | some m =>
      have hplaced := Node.callPlacement_placed hplace
      obtain ⟨k, cells, hrecord, -⟩ := hplaced.record
      rw [Node.callerCall_placed hplace]
      refine .inl ⟨?_, ?_, ?_, ?_⟩
      · rw [m.openCall_phone]
      · rw [m.openCall_phone, hplaced.phone, hph]
        rfl
      · rw [m.openCall_phone, hplaced.phone, hph, (Node.callPlacement_traffic hplace).runTime, hidle.runTime]
        rfl
      · exact congrArg Option.isSome hrecord
    | none =>
      rw [Node.callerCall_queued hplace]
      refine .inr ⟨?_, ?_, hsvc⟩
      · rw [Node.phone_callEvent, Node.phone_setPhone, hph, hcommon', hidle.runTime]
        rfl
      · exact List.getLast?_concat

end guard

end Sys2Proof.Machine
end

section
/-! SUPPORT. Cadences that turn (R130, R131) and call timers that run out (R124 to R126). -/

namespace Sys2Proof.Machine

/-! ## Cadence edges -/

section cadence
variable {n : Node} {p : Fin 8} {d : Cadence} (hd : (n.phone p).cadence = some d)
include hd

theorem Node.cadenceEvent_off (hon : d.onPhase = true) (hdue : d.elapsed = d.onTime) : n.cadenceEvent p = n.setPhone p
    { n.phone p with cadence := some { d with onPhase := false }, polarity := (n.phone p).set.polarity } := by
  simp [Node.cadenceEvent, Node.modPhone, Phone.cadenceEdge, hd, hon, hdue]
theorem Node.cadenceEvent_period (hoff : d.onPhase = false) (hdue : d.elapsed = d.period) : n.cadenceEvent p = n.setPhone p
    { n.phone p with cadence := some (n.cc.common.cadence d.kind), polarity := (n.phone p).set.polarity } := by
  simp [Node.cadenceEvent, Node.modPhone, Phone.cadenceEdge, hd, hoff, hdue]
theorem Node.cadenceEvent_early (hon : d.onPhase = true → d.elapsed ≠ d.onTime) (hoff : d.onPhase = false → d.elapsed ≠ d.period) :
    n.cadenceEvent p = n := by
  have hedge : (n.phone p).cadenceEdge n.cc.common = n.phone p := by
    cases hphase : d.onPhase with
    | true => simp [Phone.cadenceEdge, hd, hphase, hon hphase]
    | false => simp [Phone.cadenceEdge, hd, hphase, hoff hphase]
  rw [Node.cadenceEvent, Node.modPhone, hedge, Node.setPhone_self]

end cadence

theorem Common.cadence_eq (c : Common) (k : CadenceKind) : c.cadence k =
    { kind := k, onPhase := true, elapsed := 0, period := if k = .ring then c.ringPeriod else c.waitPeriod
      onTime := if k = .ring then c.ringOn else c.waitOn } := by cases k <;> rfl

/-! ## The commands -/

section commands
variable {s : State} (h : s.awake) (p : Fin 8)
include h

/-- The command of the off-phase is for a cadence in its on-phase, and that of the period for one in its off-phase. -/
theorem exec_cadenceOffPhase {d : Cadence} (hd : (s.node.phone p).cadence = some d) : exec (.cadenceOffPhase p) s =
    .next (s.became (if d.onPhase then s.node.cadenceEvent p else s.node)) := by
  have harm : exec (.cadenceOffPhase p) s = execCadenceOffPhase p s := rfl
  rw [harm, execCadenceOffPhase, onNode_awake s _ h, hd]
theorem exec_cadencePeriodStart {d : Cadence} (hd : (s.node.phone p).cadence = some d) : exec (.cadencePeriodStart p) s =
    .next (s.became (if d.onPhase then s.node else s.node.cadenceEvent p)) := by
  have harm : exec (.cadencePeriodStart p) s = execCadencePeriodStart p s := rfl
  rw [harm, execCadencePeriodStart, onNode_awake s _ h, hd]
theorem exec_heldLimitExpired : exec (.heldLimitExpired p) s = .next (s.became
    (if (s.node.phone p).timer = some (.heldLimit, 0) then s.node.timerEvent p else s.node)) := onNode_awake s _ h
theorem exec_ringTimeoutExpired : exec (.ringTimeoutExpired p) s = .next (s.became
    (if (s.node.phone p).timer = some (.ringTimeout, 0) then s.node.timerEvent p else s.node)) := onNode_awake s _ h
theorem exec_clearGuardExpired : exec (.clearGuardExpired p) s = .next (s.became
    (if (s.node.phone p).timer = some (.clearGuard, 0) then s.node.timerEvent p else s.node)) := onNode_awake s _ h

end commands

section timers
variable {n : Node} {p : Fin 8}

theorem Node.timerEvent_held (h : (n.phone p).timer = some (.heldLimit, 0)) :
    n.timerEvent p = n.enterClearing p .heldLimit := by rw [Node.timerEvent, h]; rfl
theorem Node.timerEvent_ring (h : (n.phone p).timer = some (.ringTimeout, 0)) :
    n.timerEvent p = n.enterClearing p .noAnswer := by rw [Node.timerEvent, h]; rfl
theorem Node.timerEvent_guard (h : (n.phone p).timer = some (.clearGuard, 0)) : n.timerEvent p = n.guardEnd p := by
  rw [Node.timerEvent, h]; rfl
/-- The call that enters CLEARING with a clear guard of 0 is at its end in the same step. -/
theorem Node.clearing_ended (o : CallOutcome) (hp : p ∉ n.cc.waiting) : GuardEnded (n.clearing p o) ((n.clearing p o).guardEnd p) p :=
  Node.guardEnd_ended hp

end timers

/-- Settles O49: each cadence edge by its phase, each timer by its kind; a clear guard of 0 is followed to its end. -/
theorem callTimersAndCadencesRunOut : Obligations.CallTimersAndCadencesRunOut := by
  intro s p hs n ph c cleared
  refine ⟨fun d hd => ⟨fun hon hdue => ?_, fun hoff hdue => ?_, fun hnot => ?_, fun hnot => ?_⟩, fun ht hguard => ?_,
    fun ht hguard => ?_, fun ht hguard hp => ?_, fun ht hguard hp => ?_, fun ht hp => ?_, fun ht => ?_, fun ht => ?_, fun ht => ?_⟩
  · rw [exec_cadenceOffPhase hs p hd, if_pos hon, Node.cadenceEvent_off hd hon hdue]
  · rw [exec_cadencePeriodStart hs p hd, if_neg (by simp [hoff]), Node.cadenceEvent_period hd hoff hdue, Common.cadence_eq]
  · rw [exec_cadenceOffPhase hs p hd]
    split
    · rename_i hon
      rw [Node.cadenceEvent_early hd (fun _ => hnot.resolve_left (by simp [hon])) fun hoff => by simp [hon] at hoff]
    · rfl
  · rw [exec_cadencePeriodStart hs p hd]
    split
    · rfl
    · rename_i hoff
      rw [Node.cadenceEvent_early hd (fun hon => absurd hon hoff) fun _ => hnot.resolve_left hoff]
  · rw [exec_heldLimitExpired hs, if_pos ht, Node.timerEvent_held ht, n.enterClearing_guarded p _ hguard]
    rfl
  · rw [exec_ringTimeoutExpired hs, if_pos ht, Node.timerEvent_ring ht, n.enterClearing_guarded p _ hguard]
    rfl
  · rw [exec_heldLimitExpired hs, if_pos ht, Node.timerEvent_held ht, n.enterClearing_unguarded p _ hguard]
    exact ⟨_, rfl, Node.clearing_ended _ hp⟩
  · rw [exec_ringTimeoutExpired hs, if_pos ht, Node.timerEvent_ring ht, n.enterClearing_unguarded p _ hguard]
    exact ⟨_, rfl, Node.clearing_ended _ hp⟩
  · rw [exec_clearGuardExpired hs, if_pos ht, Node.timerEvent_guard ht]
    exact ⟨_, rfl, Node.guardEnd_ended hp⟩
  · rw [exec_heldLimitExpired hs, if_neg ht]
  · rw [exec_ringTimeoutExpired hs, if_neg ht]
  · rw [exec_clearGuardExpired hs, if_neg ht]

end Sys2Proof.Machine
end

section
/-! SUPPORT. CALL_CONTROL (R122 to R125, R127, R128): the checks passed, the state asked for, and the answers. -/

namespace Sys2Proof.Machine

/-! ## The checks -/

/-- A CALL_CONTROL of port `p` that has come to the checks of the port's state: its action is in range. -/
structure CallAsked (n : Node) (b : List Byte) (p : Fin 8) : Prop where
  running : n.op = .running
  length : b.length = 2
  port : f1 b 0 = p.val
  action : f1 b 1 ≤ 4

section checks
variable {n : Node} {b : List Byte} {p : Fin 8} (h : CallAsked n b p) (taken : Phone → Bool) (a : Answer)
include h

theorem checked_callChecks : checked n (callChecks n b taken) a = checked n
    [(!n.phoneOn p, refusal .wrongState), (!taken (n.phone p), refusal .wrongState)] a := by
  have hp : f1 b 0 ≤ 7 := h.port ▸ Nat.le_of_lt_succ p.isLt
  have hpass : ∀ c ∈ commonChecks n true b 2 ++ [(decide (7 < f1 b 0), badField 0), (decide (4 < f1 b 1), badField 1)],
      c.1 = false := by
    simp [commonChecks, h.running, h.length, hp, h.action]
  have hsplit : callChecks n b taken = (commonChecks n true b 2 ++ [(decide (7 < f1 b 0), badField 0),
      (decide (4 < f1 b 1), badField 1)]) ++ [(!n.phoneOn p, refusal .wrongState), (!taken (n.phone p), refusal .wrongState)] := by
    rw [List.append_assoc, callChecks, h.port, fin8_val]
    rfl
  rw [hsplit, checked_after hpass]
theorem checked_call_taken (hon : (n.phone p).set.enabled = true) (ht : taken (n.phone p) = true) :
    checked n (callChecks n b taken) a = a := by
  rw [checked_callChecks h]
  exact checked_passed (by simp [Node.phoneOn, hon, h.running, ht])
theorem checked_call_wrong (hnot : ¬ (n.phone p).set.enabled = true ∨ taken (n.phone p) = false) :
    checked n (callChecks n b taken) a = { node := n, reply := refusal .wrongState } := by
  rw [checked_callChecks h]
  refine checked_failed ?_
  rcases hnot with hoff | ht
  · simp [firstRefusal, Node.phoneOn, hoff]
  · cases n.phoneOn p <;> simp [firstRefusal, ht]

end checks

/-! ## The rows -/

theorem CallState.holdable_iff (q : CallState) : q.holdable = true ↔ q = .opened ∨ q = .answered ∨ q = .held := by
  cases q <;> decide
theorem CallState.clearable_iff (q : CallState) :
    q.clearable = true ↔ q = .queued ∨ (q = .opened ∨ q = .answered ∨ q = .held) ∨ q = .ringing := by
  cases q <;> decide

/-- A host CLEAR sets the clear-lock for a queued call and for a lifted handset (R122 to R125, R127). -/
def Phone.lockedOut (ph : Phone) : Phone :=
  { ph with clearLock := ph.clearLock || ph.call == .queued || ph.hook == .offHook }
theorem Phone.lockedOut_eq (ph : Phone) :
    ph.lockedOut = { ph with clearLock := ph.clearLock || decide (ph.call = .queued ∨ ph.hook = .offHook) } := by
  rw [Phone.lockedOut, Bool.or_assoc, Bool.decide_or]
  rfl

theorem Node.enterAnswered_eq {n : Node} {p : Fin 8} {q : CallState} (h : (n.phone p).call = q) (o : CallOutcome) :
    n.enterAnswered p o =
      (n.setPhone p { (n.phone p).stopCadence with call := .answered, timer := none }).callEvent p q o := by subst h; rfl

section rows
variable {n m : Node} {b : List Byte} {p : Fin 8}

theorem Node.clearCall_queued (h : (n.phone p).call = .queued) :
    n.clearCall p = (n.setPhone p (n.phone p).lockedOut).enterIdle p .centreCleared := if_pos h
theorem Node.clearCall_ends (h : (n.phone p).call ≠ .queued) :
    n.clearCall p = (n.setPhone p (n.phone p).lockedOut).enterClearing p .centreCleared := if_neg h
theorem Node.ringPhone_placed (h : n.callPlacement p = some m) : m.ringPhone p = (m.setPhone p { m.phone p with
    call := .ringing, origin := some .centre, start := some n.runTime, selected := n.pickSide (n.phone p).set.preferred
    testDrive := false, timer := some (.ringTimeout, 1000 * n.cc.common.ringTimeout)
    cadence := some ⟨.ring, true, 0, n.cc.common.ringPeriod, n.cc.common.ringOn⟩ }).callEvent p .idle .ringing := by
  have hplaced := Node.callPlacement_placed h
  rw [Node.ringPhone, hplaced.selection h, Node.modPhone, (Node.callPlacement_traffic h).runTime, hplaced.cc]
  rfl

end rows

/-- The byte of a one-byte field. -/
theorem getElem?_of_f1 {b : List Byte} {off : Nat} {v : Byte} (hoff : off < b.length) (h : f1 b off = v.toNat) :
    b[off]? = some v := by
  have hbyte : b[off]? = some b[off] := List.getElem?_eq_getElem hoff
  rw [f1_of_getElem?_at hbyte] at h
  rw [hbyte, BitVec.eq_of_toNat_eq h]

section answers
variable {s : State} {i : Fin 4} {r : Request} {p : Fin 8} {mine : Request → Bool} {own : Link → List Byte → Node → Answer}
  {taken : Phone → Bool} {a : Answer} (hasks : s.asks i r) (hmine : mine r = true) (h : CallAsked s.node r.body p)
  (hown : own s.link r.body s.node = checked s.node (callChecks s.node r.body taken) a)
include hasks hmine h hown

/-- An accepted CALL_CONTROL replies the call's state after the action. -/
theorem call_done {m : Node} {q : CallState} (hon : (s.node.phone p).set.enabled = true) (ht : taken (s.node.phone p) = true)
    (ha : a = callAnswer m p) (hq : (m.phone p).call = q) :
    handle s mine own = .next (s.replied i r m (okBytes (be1 q.code))) := by
  refine handle_ok hasks hmine (hown.trans ((checked_call_taken h taken a hon ht).trans ?_))
  rw [ha, callAnswer, hq]
theorem call_wrong (hnot : ¬ (s.node.phone p).set.enabled = true ∨ taken (s.node.phone p) = false) :
    handle s mine own = .next (s.replied i r s.node (refusedBytes 0x08#8)) :=
  handle_refused hasks hmine (reply := refusal .wrongState) (hown.trans (checked_call_wrong h taken a hnot))

end answers

section owners
variable {b : List Byte} {p : Fin 8} (hport : f1 b 0 = p.val) (k : Link) (n : Node)
include hport

theorem ownCallAnswer_eq : ownCallAnswer k b n =
    checked n (callChecks n b fun ph => ph.call == .opened) (callAnswer (n.enterAnswered p .answered) p) := by
  simp only [ownCallAnswer, hport, fin8_val]
theorem ownCallHold_eq (value : Bool) : ownCallHold value k b n = checked n (callChecks n b fun ph => ph.call.holdable)
    (callAnswer (n.setPhone p { n.phone p with holdRequested := value }) p) := by
  simp only [ownCallHold, hport, fin8_val]
  rfl
theorem ownCallClear_eq : ownCallClear k b n =
    checked n (callChecks n b fun ph => ph.call.clearable) (callAnswer (n.clearCall p) p) := by
  simp only [ownCallClear, hport, fin8_val]
theorem ownCallRing_placed {m : Node} (hm : n.callPlacement p = some m) : ownCallRing k b n =
    checked n (callChecks n b fun ph => ph.call == .idle && ph.hook == .onHook) (callAnswer (m.ringPhone p) p) := by
  simp only [ownCallRing, hport, fin8_val, hm]
theorem ownCallRing_none (hm : n.callPlacement p = none) : ownCallRing k b n =
    checked n (callChecks n b fun ph => ph.call == .idle && ph.hook == .onHook) { node := n, reply := refusal .noCapacity } := by
  simp only [ownCallRing, hport, fin8_val, hm]

end owners

/-! ## The actions -/

section actions
variable {s : State} {i : Fin 4} {r : Request} {p : Fin 8} (hasks : s.asks i r) (hkind : r.kind = 0x15#8)
  (h : CallAsked s.node r.body p)
include hkind h

theorem CallAsked.mine {v : Byte} (hv : f1 r.body 1 = v.toNat) : isKindWith 0x15#8 1 v r = true :=
  isKindWith_of_eq hkind (getElem?_of_f1 (by rw [h.length]; decide) hv)
include hasks
/-- HOLD and UNHOLD, in the words of R123, R124 and R128. -/
theorem call_hold_says (value : Bool) {v : Byte} (hv : f1 r.body 1 = v.toNat) :
    ((s.node.phone p).set.enabled = true →
      (s.node.phone p).call = .opened ∨ (s.node.phone p).call = .answered ∨ (s.node.phone p).call = .held →
      handle s (isKindWith 0x15#8 1 v) (ownCallHold value) = .next (s.replied i r
        (s.node.setPhone p { s.node.phone p with holdRequested := value }) (okBytes (be1 (s.node.phone p).call.code)))) ∧
    (¬ (s.node.phone p).set.enabled = true ∨
      ¬ ((s.node.phone p).call = .opened ∨ (s.node.phone p).call = .answered ∨ (s.node.phone p).call = .held) →
      handle s (isKindWith 0x15#8 1 v) (ownCallHold value) = .next (s.replied i r s.node (refusedBytes 0x08#8))) := by
  have hmine := h.mine hkind hv
  have hown := ownCallHold_eq h.port s.link s.node value
  refine ⟨fun hon hcall => ?_, fun hnot => ?_⟩
  · exact call_done hasks hmine h hown hon ((CallState.holdable_iff _).2 hcall) rfl (by rw [Node.phone_setPhone])
  · refine call_wrong hasks hmine h hown (hnot.imp_right fun hcall => ?_)
    exact Bool.eq_false_iff.2 (mt (CallState.holdable_iff _).1 hcall)

end actions

/-- Settles O50: the checks come to the port and its call; each action then enters its state. -/
theorem callControlActsInItsStates : Obligations.CallControlActsInItsStates := by
  intro s i r p hasks hkind hrun hlen hport n ph c action quiet done wrong holdable locked on
  have hasked (h : action ≤ 4) : CallAsked n r.body p := ⟨hrun, hlen, hport, h⟩
  refine ⟨fun hact => ?_, fun hact => ?_, fun hact => ?_, fun hact => ?_, fun hact => ?_⟩
  · have h := hasked (hact ▸ by decide)
    have hmine : isKindBut 0x15#8 1 [0x01#8, 0x02#8, 0x03#8, 0x04#8] r = true :=
      isKindBut_of_ne hkind (by rw [show f1 r.body 1 = 0 from hact]; decide)
    have hown := ownCallAnswer_eq h.port s.link n
    refine ⟨fun hon hcall => ?_, fun hnot => ?_⟩
    · exact call_done hasks hmine h hown hon (by simpa using hcall) (congrArg (callAnswer · p) (n.enterAnswered_eq hcall .answered))
        (by simp)
    · exact call_wrong hasks hmine h hown (hnot.imp_right fun hcall => by simpa using hcall)
  · exact call_hold_says hasks hkind (hasked (hact ▸ by decide)) true hact
  · exact call_hold_says hasks hkind (hasked (hact ▸ by decide)) false hact
  · have h := hasked (hact ▸ by decide)
    have hmine := h.mine (v := 0x03#8) hkind hact
    have hown := ownCallClear_eq h.port s.link n
    have hends (hcall : holdable ∨ ph.call = .ringing) : ph.call.clearable = true ∧ ph.call ≠ .queued := by
      refine ⟨(CallState.clearable_iff _).2 (.inr hcall), fun hq => ?_⟩
      simp [holdable, hq] at hcall
    refine ⟨fun hon hcall => ?_, fun hon hcall hguard => ?_, fun hon hcall hguard hp => ?_, fun hnot => ?_⟩
    · have hlock : locked.clearLock = true := by simp [locked, hcall]
      have hrests : ((n.setPhone p locked).idle p .centreCleared).Rests p := by
        rw [Node.Rests, Node.idle_phone, Node.phone_setPhone]
        exact .inr (.inl hlock)
      have hidle : n.clearCall p = (n.setPhone p locked).idle p .centreCleared := by
        rw [Node.clearCall_queued hcall, Phone.lockedOut_eq, Node.enterIdle_eq, Node.testCaller_rests hrests]
      rw [hidle, Node.idle_setPhone, show locked.call = .queued from hcall] at hown
      exact call_done hasks hmine h hown hon ((CallState.clearable_iff _).2 (.inl hcall)) rfl (by simp)
    · obtain ⟨hclear, hne⟩ := hends hcall
      rw [Node.clearCall_ends hne, Phone.lockedOut_eq, n.setPhone_enterClearing_guarded _ _ _ hguard] at hown
      exact call_done hasks hmine h hown hon hclear rfl (by simp)
    · obtain ⟨hclear, hne⟩ := hends hcall
      rw [Node.clearCall_ends hne, Phone.lockedOut_eq, n.setPhone_enterClearing_unguarded _ _ _ hguard] at hown
      exact ⟨_, call_done hasks hmine h hown hon hclear rfl rfl, Node.guardEnd_ended hp⟩
    · refine call_wrong hasks hmine h hown (hnot.imp_right ?_)
      rintro (hcall | hcall) <;> rw [show (s.node.phone p).call = _ from hcall] <;> rfl
  · have h := hasked hact.le
    have hmine := h.mine (v := 0x04#8) hkind hact
    refine ⟨fun hon hcall hhook => ?_, fun hnot => ?_⟩
    · have htaken : (ph.call == .idle && ph.hook == .onHook) = true := by simp [hcall, hhook]
      refine ⟨fun hm => ?_, fun m hm => ?_⟩
      · exact handle_refused hasks hmine (own := ownCallRing) (reply := refusal .noCapacity)
          ((ownCallRing_none h.port _ n hm).trans (checked_call_taken h _ _ hon htaken))
      · exact call_done hasks hmine h (ownCallRing_placed h.port s.link n hm) hon htaken
          (congrArg (callAnswer · p) (Node.ringPhone_placed hm)) (by simp)
    · have hwrong : ¬ on ∨ (ph.call == .idle && ph.hook == .onHook) = false := by
        refine hnot.imp_right fun hn => ?_
        rcases hn with hn | hn <;> simp [hn]
      cases hm : n.callPlacement p with
      | none => exact call_wrong hasks hmine h (ownCallRing_none h.port s.link n hm) hwrong
      | some m => exact call_wrong hasks hmine h (ownCallRing_placed h.port s.link n hm) hwrong

end Sys2Proof.Machine
end

section
/-! SUPPORT. Hook changes (R114), by the call's state, on a node whose call record has taken the new hook. -/

namespace Sys2Proof.Machine

/-- The call record as the handset is lifted, and as it is replaced (R114, R127). -/
def Phone.lifted (ph : Phone) : Phone := { ph with hook := .offHook, hookDue := false }
def Phone.replaced (ph : Phone) : Phone := { ph with hook := .onHook, hookDue := false, clearLock := false }

section hook
variable {n : Node} {p : Fin 8}

/-! ## OFF_HOOK -/

theorem Node.offHook_idle (h : (n.phone p).call = .idle) : n.offHook p = (n.setPhone p (n.phone p).lifted).testCaller p := by
  simp only [Node.offHook, Node.phone_modPhone, h]
  rfl
theorem Node.offHook_answers (h : (n.phone p).call = .held ∨ (n.phone p).call = .ringing) : n.offHook p =
    (n.setPhone p (n.phone p).lifted).enterAnswered p (if (n.phone p).call = .held then .resumed else .answered) := by
  rcases h with h | h <;> simp only [Node.offHook, Node.phone_modPhone, h] <;> rfl
theorem Node.offHook_stays (h : (n.phone p).call = .queued ∨ (n.phone p).call = .opened ∨ (n.phone p).call = .answered ∨
    (n.phone p).call = .clearing) : n.offHook p = n.setPhone p (n.phone p).lifted := by
  rcases h with h | h | h | h <;> simp only [Node.offHook, Node.phone_modPhone, h] <;> rfl

/-! ## ON_HOOK -/

theorem Node.onHook_stays (h : (n.phone p).call = .idle ∨ (n.phone p).call = .held ∨ (n.phone p).call = .ringing ∨
    (n.phone p).call = .clearing) : n.onHook p = n.setPhone p (n.phone p).replaced := by
  rcases h with h | h | h | h <;> simp only [Node.onHook, Node.phone_modPhone, h] <;> rfl
/-- A call that waits ends, and the handset rests: no new call starts. -/
theorem Node.onHook_queued (h : (n.phone p).call = .queued) : n.onHook p =
    ((n.withoutWaiting p).setPhone p (n.phone p).replaced.idled).callEvent p .queued .abandoned := by
  have hrests : ((n.setPhone p (n.phone p).replaced).idle p .abandoned).Rests p := by
    rw [Node.Rests, Node.idle_phone, Node.phone_setPhone]
    exact .inl rfl
  calc n.onHook p = (n.setPhone p (n.phone p).replaced).enterIdle p .abandoned := by
        simp only [Node.onHook, Node.phone_modPhone, h]
        rfl
    _ = (n.setPhone p (n.phone p).replaced).idle p .abandoned := Node.testCaller_rests hrests
    _ = _ := by rw [Node.idle_setPhone, show (n.phone p).replaced.call = .queued from h]
theorem Node.onHook_holds (h : (n.phone p).call = .opened ∨ (n.phone p).call = .answered) (hreq : (n.phone p).holdRequested = true)
    (hperm : (n.phone p).set.holdPermitted = true) : n.onHook p = (n.setPhone p (n.phone p).replaced).enterHeld p := by
  rcases h with h | h <;> simp only [Node.onHook, Node.phone_modPhone, h, hreq, hperm] <;> rfl
theorem Node.onHook_ends (h : (n.phone p).call = .opened ∨ (n.phone p).call = .answered)
    (hnot : (n.phone p).holdRequested = false ∨ (n.phone p).set.holdPermitted = false) :
    n.onHook p = (n.setPhone p (n.phone p).replaced).enterClearing p .callerCleared := by
  have hno : ((n.phone p).holdRequested && (n.phone p).set.holdPermitted) = false := Bool.and_eq_false_iff.2 hnot
  rcases h with h | h <;> simp only [Node.onHook, Node.phone_modPhone, h, hno] <;> rfl
theorem Node.setPhone_enterHeld (ph : Phone) : (n.setPhone p ph).enterHeld p = (n.setPhone p { ph with
    call := .held, holdRequested := false, timer := some (.heldLimit, 60000 * n.cc.common.heldLimit) }).callEvent p
      ph.call .held := by
  rw [Node.enterHeld, Node.modPhone, Node.phone_setPhone, Node.setPhone_setPhone]
  rfl

end hook

/-! ## The commands -/

section commands
variable {s : State} (h : s.awake) {p : Fin 8}
include h

theorem exec_offHookConfirmed : exec (.offHookConfirmed p) s = .next (s.became
    (if (s.node.phone p).hookDue && (s.node.phone p).hook == .onHook then s.node.offHook p else s.node)) := onNode_awake s _ h
theorem exec_onHookConfirmed : exec (.onHookConfirmed p) s = .next (s.became
    (if (s.node.phone p).hookDue && (s.node.phone p).hook == .offHook then s.node.onHook p else s.node)) := onNode_awake s _ h
theorem exec_offHook_due (hdue : (s.node.phone p).hookDue = true) (hhook : (s.node.phone p).hook = .onHook) :
    exec (.offHookConfirmed p) s = .next (s.became (s.node.offHook p)) := by
  rw [exec_offHookConfirmed h, if_pos (by simp [hdue, hhook])]
theorem exec_onHook_due (hdue : (s.node.phone p).hookDue = true) (hhook : (s.node.phone p).hook = .offHook) :
    exec (.onHookConfirmed p) s = .next (s.became (s.node.onHook p)) := by
  rw [exec_onHookConfirmed h, if_pos (by simp [hdue, hhook])]
theorem exec_offHook_not_due (hnot : (s.node.phone p).hookDue = false ∨ (s.node.phone p).hook = .offHook) :
    exec (.offHookConfirmed p) s = .next (s.became s.node) := by
  rw [exec_offHookConfirmed h, if_neg]
  rcases hnot with h | h <;> simp [h]
theorem exec_onHook_not_due (hnot : (s.node.phone p).hookDue = false ∨ (s.node.phone p).hook = .onHook) :
    exec (.onHookConfirmed p) s = .next (s.became s.node) := by
  rw [exec_onHookConfirmed h, if_neg]
  rcases hnot with h | h <;> simp [h]

end commands

/-- A caller's call placed from a lifted handset opens, with its service made and every other call left as it was (R82, R121). -/
theorem Node.lifted_opens {n m : Node} {p : Fin 8} (w : TablesInOrder n)
    (h : (n.setPhone p (n.phone p).lifted).callPlacement p = some m) :
    ((m.openCall p).phone p).call = .opened ∧ ((m.openCall p).phone p).hook = .offHook ∧
    ((m.openCall p).phone p).selected = n.pickSide (n.phone p).set.preferred ∧
    ((n.phone p).origin = none → ((m.openCall p).phone p).origin = some .caller) ∧
    ((n.phone p).start = none → ((m.openCall p).phone p).start = some n.runTime) ∧
    (∃ v, (m.openCall p).svc (56 + p.val) = some v ∧ v.cls = .e ∧ v.level = 0 ∧ v.prot = .dual ∧ v.state = .active ∧
      v.cells.length = 1) ∧ ∀ j, j ≠ p → (m.openCall p).phone j = n.phone j := by
  have hplaced := Node.callPlacement_placed h
  have hph : m.phone p = (n.phone p).lifted := by rw [hplaced.phone, Node.phone_setPhone]
  have hsel : m.callSelection p = n.pickSide (n.phone p).set.preferred := by
    rw [hplaced.selection h, Node.phone_setPhone]
    rfl
  have hnow : m.runTime = n.runTime := (Node.callPlacement_traffic h).runTime
  obtain ⟨k, cells, hrecord, hcells⟩ := hplaced.record
  rw [m.openCall_phone, hph, hsel, hnow]
  refine ⟨rfl, rfl, rfl, fun horigin => ?_, fun hstart => ?_, ⟨_, hrecord, rfl, rfl, rfl, rfl, hcells ⟨w.1, w.2, w.3, w.4⟩⟩,
    fun j hj => ?_⟩
  · simp [Phone.lifted, horigin]
  · simp [Phone.lifted, hstart]
  · rw [m.openCall_phone_ne hj.symm, hplaced.phone, Node.phone_setPhone_ne n hj.symm]

/-- Settles O48: the hook change by the state of the call; a caller's call by its placement, a clear guard of 0 to its end. -/
theorem hookChangesActOnTheCall : Obligations.HookChangesActOnTheCall := by
  intro s p hs n ph off onHook quiet lifted replaced
  have hoff : off = n.setPhone p ph.lifted := rfl
  refine ⟨fun hdue hhook => ?_, fun hdue hhook => ?_, fun hnot => exec_offHook_not_due hs hnot,
    fun hnot => exec_onHook_not_due hs hnot⟩
  · have hexec : exec lifted s = .next (s.became (n.offHook p)) := exec_offHook_due hs hdue hhook
    refine ⟨fun hidle hrests => ?_, fun hcall => ?_, fun hcall => ?_, fun hidle hlock hon w => ?_⟩
    · have hlifted : (n.setPhone p ph.lifted).Rests p := by
        rw [Node.Rests, Node.phoneOn, Node.phone_setPhone]
        exact .inr hrests
      rw [hexec, Node.offHook_idle hidle, Node.testCaller_rests hlifted]
      rfl
    · rw [hexec, Node.offHook_stays hcall]
      rfl
    · rw [hexec, Node.offHook_answers hcall, Node.enterAnswered_setPhone, hoff, Node.phone_setPhone, Node.setPhone_setPhone]
      rfl
    · have hcaller : n.offHook p = off.callerCall p := by
        refine (Node.offHook_idle hidle).trans (Node.testCaller_calls ?_ ?_)
        · rw [Node.phone_setPhone]; exact hidle
        · rw [Node.Rests, Node.phoneOn, Node.phone_setPhone]
          rintro (h | h | h)
          · cases h
          · exact absurd (hlock.symm.trans h) nofun
          · exact absurd (hon.symm.trans h) nofun
      rw [hcaller] at hexec
      refine ⟨fun hnone => ?_, fun m hm => ?_⟩
      · rw [hexec, Node.callerCall_queued hnone]
        rfl
      · rw [Node.callerCall_placed hm] at hexec
        exact ⟨_, hexec, Node.lifted_opens w hm⟩
  · have hexec : exec replaced s = .next (s.became (n.onHook p)) := exec_onHook_due hs hdue hhook
    refine ⟨fun hcall => ?_, fun hcall => ?_, fun hcall => ⟨fun hreq hperm => ?_, fun hnot hguard => ?_, fun hnot hguard hp => ?_⟩⟩
    · rw [hexec, Node.onHook_stays hcall]
      rfl
    · rw [hexec, Node.onHook_queued hcall]
      rfl
    · rw [hexec, Node.onHook_holds hcall hreq hperm, Node.setPhone_enterHeld]
      rfl
    · rw [hexec, Node.onHook_ends hcall hnot, n.setPhone_enterClearing_guarded _ _ _ hguard]
      rfl
    · rw [hexec, Node.onHook_ends hcall hnot, n.setPhone_enterClearing_unguarded _ _ _ hguard]
      exact ⟨_, rfl, Node.guardEnd_ended hp⟩

end Sys2Proof.Machine
end

section
/-! SUPPORT. The 1 ms tick on a port (R112, R114), and the changes that its sample makes due (R113, R115). -/

namespace Sys2Proof.Machine

/-! ## The sample -/

/-- The time in the level has reached the debounce in force, in the words of R114. -/
theorem Phone.confirms_iff (ph : Phone) : ph.confirms = true ↔
    (ph.hook = .onHook ∧ ph.level = true ∧ ph.set.offDebounce ≤ ph.time) ∨
    (ph.hook = .offHook ∧ ph.level = false ∧ ph.set.onDebounce ≤ ph.time) := by
  unfold Phone.confirms
  cases ph.hook <;> simp
theorem Phone.sample_accept (ph : Phone) (input : Bool) : (ph.sample input).acceptDue = true ↔
    input ≠ ph.level ∧ (ph.set.filter = false ∨ 3 ≤ if input = ph.level then 0 else ph.differing + 1) := by
  simp only [Phone.sample, Bool.and_eq_true, bne_iff_ne, Bool.or_eq_true, Bool.not_eq_true', decide_eq_true_eq]
theorem Phone.sample_hook (ph : Phone) (input : Bool) : (ph.sample input).hookDue = true ↔
    (ph.hook = .onHook ∧ ph.level = true ∧ ph.set.offDebounce ≤ min 65535 (ph.time + 1)) ∨
    (ph.hook = .offHook ∧ ph.level = false ∧ ph.set.onDebounce ≤ min 65535 (ph.time + 1)) :=
  Phone.confirms_iff _
theorem Phone.sample_differing (ph : Phone) (input : Bool) : (ph.sample input).differing =
    if input ≠ ph.level ∧ (ph.set.filter = false ∨ 3 ≤ if input = ph.level then 0 else ph.differing + 1) then 0
    else if input = ph.level then 0 else ph.differing + 1 :=
  Eq.trans rfl (if_congr (ph.sample_accept input) rfl rfl)
/-- A tick of the call timer and of the cadence. -/
def Phone.counted (ph : Phone) : Phone :=
  { ph with timer := ph.timer.map fun t => (t.1, t.2 - 1), cadence := ph.cadence.map fun d => { d with elapsed := d.elapsed + 1 } }
theorem Phone.tick_eq (ph : Phone) (input : Bool) : ph.tick input = (if ph.sampling then ph.sample input else ph).counted := rfl
/-- What a tick leaves as it is, and what it counts. -/
theorem Phone.tick_says (ph : Phone) (input : Bool) :
    let q := ph.tick input
    let time := min 65535 (ph.time + 1)
    let differing := if input = ph.level then 0 else ph.differing + 1
    let accepted := input ≠ ph.level ∧ (ph.set.filter = false ∨ 3 ≤ differing)
    let confirmed := (ph.hook = .onHook ∧ ph.level = true ∧ ph.set.offDebounce ≤ time) ∨
      (ph.hook = .offHook ∧ ph.level = false ∧ ph.set.onDebounce ≤ time)
    q.timer = ph.timer.map (fun x => (x.1, x.2 - 1)) ∧
    q.cadence = ph.cadence.map (fun x => { x with elapsed := x.elapsed + 1 }) ∧ q.level = ph.level ∧
    q.hook = ph.hook ∧ q.call = ph.call ∧ q.set = ph.set ∧
    (ph.sampling = true → q.time = time ∧ q.differing = (if accepted then 0 else differing) ∧
      (q.acceptDue = true ↔ accepted) ∧ (q.hookDue = true ↔ confirmed)) ∧
    (ph.sampling = false → q.time = ph.time ∧ q.acceptDue = ph.acceptDue ∧ q.hookDue = ph.hookDue) := by
  dsimp only
  rw [Phone.tick_eq]
  cases hs : ph.sampling with
  | true =>
    rw [if_pos rfl]
    exact ⟨rfl, rfl, rfl, rfl, rfl, rfl, fun _ => ⟨rfl, ph.sample_differing input, ph.sample_accept input, ph.sample_hook input⟩,
      nofun⟩
  | false =>
    rw [if_neg Bool.false_ne_true]
    exact ⟨rfl, rfl, rfl, rfl, rfl, rfl, nofun, fun _ => ⟨rfl, rfl, rfl⟩⟩

/-! ## The tick -/

theorem Node.tick_phone (n : Node) (p : Fin 8) : n.tick.phone p = (n.phone p).tick n.pins.loops[p] := by
  simp [Node.tick, Node.phone]
theorem State.kick_rx (s : State) : s.kick.link.rx = s.link.rx := by
  unfold State.kick
  split
  · split
    · rfl
    · rfl
    · split <;> rfl
  · rfl
theorem exec_msTick {s : State} (loops : Vector Bool 8) (h : s.awake) :
    exec (.msTick loops) s = .next (s.setPins { s.node.pins with loops := loops }).msTick.kick :=
  unlessHeld_awake (s.setPins { s.node.pins with loops := loops }) State.msTick h
/-- The state that a tick leaves, with nothing due before it. -/
def State.ticked (s : State) : State := ({ s with node := s.node.tick, link := { s.link with rx := s.link.rx.tick } } : State).kick
theorem State.msTick_settled {s : State} (hdue : s.node.clk.tickDue = true) (h : s.settleTick = s) : s.msTick.kick = s.ticked := by
  rw [State.msTick, if_pos hdue, h]
  rfl
@[simp] theorem State.ticked_node (s : State) : s.ticked.node = s.node.tick := State.kick_node _
theorem State.ticked_rx (s : State) : s.ticked.link.rx = s.link.rx.tick := State.kick_rx _
theorem Node.tick_waiting {n : Node} {x : Transaction} {k limit : Nat} (h : n.pc.txn = some x) (hphase : x.phase = .waiting k limit) :
    n.tick.pc.txn = some { x with phase := .waiting (k + 1) limit } := by
  simp [Node.tick, PollController.tick, h, hphase]

/-! ## Accepted changes (R113, R115) -/

section accept
variable {n : Node} {p : Fin 8}

theorem Node.acceptEvent_not_due (h : (n.phone p).acceptDue = false) : n.acceptEvent p = n := if_neg (by simp [h])
theorem Node.hookEvent_not_due (h : (n.phone p).hookDue = false) : n.hookEvent p = n := if_neg (by simp [h])
theorem Node.acceptEvent_rise (h : (n.phone p).acceptDue = true) (hhook : (n.phone p).hookDue = false)
    (hlow : (n.phone p).level = false) : n.acceptEvent p = (n.setPhone p (n.phone p).accept).testFlash p := by
  rw [Node.acceptEvent, if_pos h, Node.hookEvent_not_due hhook]
  simp only [hlow]
  rfl
theorem Node.acceptEvent_fall (h : (n.phone p).acceptDue = true) (hhook : (n.phone p).hookDue = false)
    (hhigh : (n.phone p).level = true) : n.acceptEvent p = n.setPhone p (n.phone p).accept := by
  rw [Node.acceptEvent, if_pos h, Node.hookEvent_not_due hhook]
  simp only [hhigh]
  rfl
/-- A hook change of the same sample goes first: what comes after it is the change accepted in the node that it leaves. -/
theorem Node.acceptEvent_after_hook (h : (n.phone p).acceptDue = true) (h' : ((n.hookEvent p).phone p).acceptDue = true)
    (hdone : ((n.hookEvent p).phone p).hookDue = false) : n.acceptEvent p = (n.hookEvent p).acceptEvent p := by
  rw [Node.acceptEvent, if_pos h, Node.acceptEvent, if_pos h', Node.hookEvent_not_due hdone]

end accept

/-! ## What a hook change leaves of the loop-detect capture -/

section loop
variable {n : Node} {p : Fin 8}

theorem Node.callerCall_loop : ((n.callerCall p).phone p).loop = (n.phone p).loop := by
  cases h : n.callPlacement p with
  | none =>
    rw [Node.callerCall_queued h, Node.phone_callEvent, Node.phone_setPhone]
    rfl
  | some m => rw [Node.callerCall_placed h, m.openCall_loop, (Node.callPlacement_placed h).phone]
theorem Node.testCaller_loop : ((n.testCaller p).phone p).loop = (n.phone p).loop := by
  unfold Node.testCaller
  dsimp only
  split
  · exact Node.callerCall_loop
  · rfl
theorem Node.enterIdle_loop (o : CallOutcome) : ((n.enterIdle p o).phone p).loop = (n.phone p).loop := by
  rw [Node.enterIdle_eq, Node.testCaller_loop, Node.idle_phone]
  rfl
theorem Node.guardEnd_loop : ((n.guardEnd p).phone p).loop = (n.phone p).loop := by
  rw [Node.guardEnd_eq, Node.testCaller_loop, Node.idle_phone]
  exact (n.freed_phones p).2.2 p
theorem Node.enterClearing_loop (o : CallOutcome) : ((n.enterClearing p o).phone p).loop = (n.phone p).loop := by
  have hclearing : ((n.clearing p o).phone p).loop = (n.phone p).loop := by
    rw [Node.clearing, Node.phone_callEvent, Node.phone_setPhone]
    rfl
  by_cases h : n.cc.common.clearGuard = 0
  · rw [Node.enterClearing_unguarded n p o h, Node.guardEnd_loop, hclearing]
  · rw [Node.enterClearing_guarded n p o h, hclearing]
theorem Node.enterAnswered_loop (o : CallOutcome) : ((n.enterAnswered p o).phone p).loop = (n.phone p).loop := by
  rw [Node.enterAnswered_eq rfl, Node.phone_callEvent, Node.phone_setPhone]
  rfl
theorem Node.enterHeld_loop : ((n.enterHeld p).phone p).loop = (n.phone p).loop := by
  rw [Node.enterHeld, Node.phone_callEvent, Node.phone_modPhone]
  rfl
theorem Node.offHook_loop : ((n.offHook p).phone p).loop = (n.phone p).lifted.loop := by
  have hlifted : (n.modPhone p fun ph => { ph with hook := .offHook, hookDue := false }).phone p = (n.phone p).lifted :=
    Node.phone_modPhone _ _ _
  unfold Node.offHook
  dsimp only
  split
  · rw [Node.testCaller_loop, hlifted]
  · rw [Node.enterAnswered_loop, hlifted]
  · rw [Node.enterAnswered_loop, hlifted]
  · rw [hlifted]
theorem Node.onHook_loop : ((n.onHook p).phone p).loop = (n.phone p).replaced.loop := by
  have hreplaced : (n.modPhone p fun ph => { ph with hook := .onHook, hookDue := false, clearLock := false }).phone p =
      (n.phone p).replaced := Node.phone_modPhone _ _ _
  unfold Node.onHook
  dsimp only
  split
  · rw [Node.enterIdle_loop, hreplaced]
  · split
    · rw [Node.enterHeld_loop, hreplaced]
    · rw [Node.enterClearing_loop, hreplaced]
  · split
    · rw [Node.enterHeld_loop, hreplaced]
    · rw [Node.enterClearing_loop, hreplaced]
  · rw [hreplaced]
/-- The hook change that is due leaves the level and the accepted change of its sample. -/
theorem Node.hookEvent_loop (h : (n.phone p).hookDue = true) :
    ((n.hookEvent p).phone p).loop = ((n.phone p).level, (n.phone p).acceptDue, false) := by
  rw [Node.hookEvent, if_pos h]
  split
  · exact Node.offHook_loop
  · exact Node.onHook_loop

end loop

/-! ## The commands -/

section commands
variable {s : State} (h : s.awake) (p : Fin 8)
include h

theorem exec_loopAcceptedRise : exec (.loopAcceptedRise p) s = .next (s.became
    (if (s.node.phone p).level then s.node else s.node.acceptEvent p)) :=
  onNode_awake s (fun n => if (n.phone p).level then n else n.acceptEvent p) h
theorem exec_loopAcceptedFall : exec (.loopAcceptedFall p) s = .next (s.became
    (if (s.node.phone p).level then s.node.acceptEvent p else s.node)) := onNode_awake s _ h
theorem exec_hookEvent (hdue : (s.node.phone p).hookDue = true) :
    exec (if (s.node.phone p).hook = .onHook then .offHookConfirmed p else .onHookConfirmed p) s =
      .next (s.became (s.node.hookEvent p)) := by
  rw [Node.hookEvent, if_pos hdue]
  cases hhook : (s.node.phone p).hook with
  | onHook => exact exec_offHook_due h hdue hhook
  | offHook => exact exec_onHook_due h hdue hhook
/-- The accepted change with a hook change of its sample is the hook change, and then the accepted change. -/
theorem exec_loopAccepted_after_hook (hacc : (s.node.phone p).acceptDue = true) (hdue : (s.node.phone p).hookDue = true) :
    ((s.node.phone p).level = false →
      exec (.loopAcceptedRise p) s = exec (.loopAcceptedRise p) { s with node := s.node.hookEvent p }) ∧
    ((s.node.phone p).level = true →
      exec (.loopAcceptedFall p) s = exec (.loopAcceptedFall p) { s with node := s.node.hookEvent p }) ∧
    ((s.node.hookEvent p).phone p).hookDue = false ∧ ((s.node.hookEvent p).phone p).acceptDue = true ∧
    ((s.node.hookEvent p).phone p).level = (s.node.phone p).level := by
  obtain ⟨hlevel, hpair⟩ := Prod.mk.inj (Node.hookEvent_loop hdue)
  obtain ⟨haccept, hdone⟩ := Prod.mk.inj hpair
  have hafter := Node.acceptEvent_after_hook hacc (haccept.trans hacc) hdone
  have hawake : State.awake { s with node := s.node.hookEvent p } :=
    (congrArg Pins.resetLow (s.node.hookEvent_traffic p).pins).trans h
  refine ⟨fun hlow => ?_, fun hhigh => ?_, hdone, haccept.trans hacc, hlevel⟩
  · rw [exec_loopAcceptedRise h, exec_loopAcceptedRise hawake, if_neg (by simp [hlow]), hafter, if_neg]
    · rfl
    · exact Bool.eq_false_iff.1 (hlevel.trans hlow)
  · rw [exec_loopAcceptedFall h, exec_loopAcceptedFall hawake, if_pos hhigh, hafter, if_pos]
    · rfl
    · exact hlevel.trans hhigh
theorem exec_rise_not_due (hnot : (s.node.phone p).acceptDue = false ∨ (s.node.phone p).level = true) :
    exec (.loopAcceptedRise p) s = .next (s.became s.node) := by
  rw [exec_loopAcceptedRise h]
  rcases hnot with hacc | hhigh
  · rw [Node.acceptEvent_not_due hacc, ite_self]
  · rw [if_pos hhigh]
theorem exec_fall_not_due (hnot : (s.node.phone p).acceptDue = false ∨ (s.node.phone p).level = false) :
    exec (.loopAcceptedFall p) s = .next (s.became s.node) := by
  rw [exec_loopAcceptedFall h]
  rcases hnot with hacc | hlow
  · rw [Node.acceptEvent_not_due hacc, ite_self]
  · rw [if_neg (by simp [hlow])]

end commands

/-! ## Flashes (R115) -/

section flash
variable {n : Node} {p : Fin 8}

/-- The low period that ends was a flash: the flash minimum or more, and less than the on-hook debounce. -/
def Phone.Flash (ph : Phone) : Prop := ph.set.flashMin ≤ ph.lastLow ∧ ph.lastLow < ph.set.onDebounce
theorem Node.testFlash_none (h : ¬ (n.phone p).Flash) : n.testFlash p = n := if_neg h
theorem Node.testFlash_counts (h : (n.phone p).Flash)
    (ht : ¬ ((n.phone p).call = .opened ∨ (n.phone p).call = .answered ∨ (n.phone p).call = .held)) :
    n.testFlash p = n.setPhone p { n.phone p with flashes := min 255 ((n.phone p).flashes + 1) } := by
  obtain ⟨hopen, hans, hheld⟩ : (n.phone p).call ≠ .opened ∧ (n.phone p).call ≠ .answered ∧ (n.phone p).call ≠ .held := by
    simpa only [not_or] using ht
  refine (if_pos h).trans ?_
  cases hc : (n.phone p).call with
  | opened => exact absurd hc hopen
  | answered => exact absurd hc hans
  | held => exact absurd hc hheld
  | idle | queued | ringing | clearing => rfl
theorem Node.testFlash_told (h : (n.phone p).Flash)
    (ht : (n.phone p).call = .opened ∨ (n.phone p).call = .answered ∨ (n.phone p).call = .held) : n.testFlash p =
      (n.setPhone p { n.phone p with flashes := min 255 ((n.phone p).flashes + 1) }).callEvent p (n.phone p).call .flash := by
  refine (if_pos h).trans ?_
  rcases ht with hc | hc | hc <;> rw [hc] <;> rfl

end flash

/-- Settles O47: a tick by what it does to each part, an accepted change by its level, its flash and the hook change of its sample. -/
theorem loopsAreSampledAndMeasured : Obligations.LoopsAreSampledAndMeasured := by
  constructor
  · intro s loops hs s1 n
    have hexec : exec (.msTick loops) s = .next s1.msTick.kick := exec_msTick loops hs
    refine ⟨fun hnot => ?_, fun hdue hsettled => ⟨s1.ticked, ?_, ?_⟩⟩
    · rw [hexec, State.msTick_not_due (s := s1) hnot]
    · rw [hexec, State.msTick_settled (s := s1) hdue hsettled]
    · rw [s1.ticked_node, s1.ticked_rx]
      refine ⟨rfl, rfl, fun bs gap hrx => ?_, fun x k limit htxn hphase => Node.tick_waiting (n := s1.node) htxn hphase,
        fun p => ?_, rfl, rfl, rfl, rfl, rfl, rfl, rfl⟩
      · rw [show s1.link.rx = .frame bs gap from hrx]
        rfl
      · rw [s1.node.tick_phone]
        exact (n.phone p).tick_says loops[p]
  · intro s p hs n ph high flashed flash told
    have hrise (hacc : ph.acceptDue = true) (hhook : ph.hookDue = false) (hlow : ph.level = false) :
        exec (.loopAcceptedRise p) s = .next (s.became ((n.setPhone p high).testFlash p)) := by
      have hhigh : ph.accept = high := by simp [Phone.accept, hlow, high, Config.top16]; rfl
      rw [exec_loopAcceptedRise hs, if_neg (by simpa using hlow), Node.acceptEvent_rise hacc hhook hlow]
      rw [show (s.node.phone p).accept = high from hhigh]
    have hph : (n.setPhone p high).phone p = high := Node.phone_setPhone _ _ _
    refine ⟨fun hacc hhook hlow => ⟨fun hno => ?_, fun hfl hnot => ?_, fun hfl ht => ?_⟩, fun hacc hhook hhigh => ?_,
      fun hacc hhook => ?_, fun hnot => exec_rise_not_due hs p hnot, fun hnot => exec_fall_not_due hs p hnot⟩
    · rw [hrise hacc hhook hlow, Node.testFlash_none (by rw [hph]; exact hno)]
    · rw [hrise hacc hhook hlow, Node.testFlash_counts (by rw [hph]; exact hfl) (by rw [hph]; exact hnot), hph,
        Node.setPhone_setPhone]
    · rw [hrise hacc hhook hlow, Node.testFlash_told (by rw [hph]; exact hfl) (by rw [hph]; exact ht), hph,
        Node.setPhone_setPhone]
    · have hlow : ph.accept = { ph with
          level := false, time := 0, differing := 0, acceptDue := false, lastHigh := ph.time
          saturated := decide (ph.time = 65535) } := by
        simp [Phone.accept, hhigh, Config.top16]; rfl
      rw [exec_loopAcceptedFall hs, if_pos hhigh, Node.acceptEvent_fall hacc hhook hhigh, ← hlow]
    · obtain ⟨hlow, hhigh, hrest⟩ := exec_loopAccepted_after_hook hs p hacc hhook
      exact ⟨_, exec_hookEvent hs p hhook, hlow, hhigh, hrest⟩

end Sys2Proof.Machine
end

section
/-! SUPPORT. The transmit queues in order (R139): what may happen to the queues and to the bindings that give their quotas. -/

namespace Sys2Proof.Machine

/-! ## Queues that shrink -/

/-- The packet engine's state of a service is replaced by one of the same id that queues no frame more. -/
structure PeService.Shrinks (v w : PeService) : Prop where
  id : w.id = v.id
  queue : w.queue.Sublist v.queue

namespace PeService.Shrinks

variable {u v w : PeService}

theorem refl (v : PeService) : v.Shrinks v := ⟨rfl, .refl _⟩
theorem of_same (hid : w.id = v.id) (hq : w.queue = v.queue) : v.Shrinks w := ⟨hid, hq ▸ .refl _⟩
theorem trans (h : u.Shrinks v) (k : v.Shrinks w) : u.Shrinks w := ⟨k.id.trans h.id, k.queue.trans h.queue⟩
/-- What follows on a change of neither the id nor the queue. -/
theorem before (h : v.Shrinks w) (hid : v.id = u.id) (hq : v.queue = u.queue) : u.Shrinks w := (of_same hid hq).trans h
theorem queuedBytes_le (h : v.Shrinks w) : w.queuedBytes ≤ v.queuedBytes := (h.queue.map _).sum_le_sum fun _ _ => Nat.zero_le _
theorem buffers_le (h : v.Shrinks w) : w.buffers ≤ v.buffers := (h.queue.map _).sum_le_sum fun _ _ => Nat.zero_le _

end PeService.Shrinks

theorem PeService.queuedBytes_append (v : PeService) (q : QueuedFrame) :
    ({ v with queue := v.queue ++ [q] } : PeService).queuedBytes = v.queuedBytes + q.data.length := by
  simp [PeService.queuedBytes]
theorem PeService.buffers_append (v : PeService) (q : QueuedFrame) :
    ({ v with queue := v.queue ++ [q] } : PeService).buffers = v.buffers + frameBuffers q.data.length := by
  simp [PeService.buffers]

/-! ## The list of the services' packet states -/

theorem pairwise_map_of_ids {l : List PeService} {f : PeService → PeService} (hf : ∀ v ∈ l, (f v).id = v.id)
    (h : l.Pairwise (·.id < ·.id)) : (l.map f).Pairwise (·.id < ·.id) :=
  List.pairwise_map.2 (h.imp_of_mem fun ha hb hlt => by rw [hf _ ha, hf _ hb]; exact hlt)
/-- A service's packet state is found by its id, where each id stands once. -/
theorem Node.eq_of_peOf {n : Node} (h : n.pe.svcs.Pairwise (·.id < ·.id)) {id : Nat} {v w : PeService} (hv : n.peOf id = some v)
    (hw : w ∈ n.pe.svcs) (hid : w.id = id) : w = v := by
  have hvid : v.id = id := by simpa using List.find?_some hv
  exact List.inj_on_of_nodup_map (List.pairwise_map.2 (h.imp Nat.ne_of_lt)) hw (List.mem_of_find?_eq_some hv) (hid.trans hvid.symm)
theorem Node.peOf_id {n : Node} {id : Nat} {v : PeService} (h : n.peOf id = some v) : v.id = id := by
  simpa using List.find?_some h
theorem Node.peOf_self {n : Node} {id : Nat} {v : PeService} (h : n.peOf id = some v) : n.peOf v.id = some v := by
  rw [Node.peOf_id h]; exact h
theorem Node.mem_of_peOf {n : Node} {id : Nat} {v : PeService} (h : n.peOf id = some v) : v ∈ n.pe.svcs :=
  List.mem_of_find?_eq_some h
/-- One packet state is replaced: what the whole list holds changes by what that one holds. -/
theorem sum_replaced {l : List PeService} (h : l.Pairwise (·.id < ·.id)) {v w : PeService} (hv : v ∈ l) (hw : w.id = v.id)
    (f : PeService → Nat) : ((l.map fun u => if u.id = w.id then w else u).map f).sum + f v = (l.map f).sum + f w := by
  induction l with
  | nil => exact absurd hv List.not_mem_nil
  | cons u l ih =>
    obtain ⟨hu, hl⟩ := List.pairwise_cons.1 h
    have hrest (hid : u.id = w.id) : (l.map fun u => if u.id = w.id then w else u) = l :=
      (List.map_congr_left fun x hx => if_neg (by have := hu x hx; omega)).trans (List.map_id _)
    simp only [List.map_cons, List.sum_cons]
    rcases List.mem_cons.1 hv with rfl | hv
    · rw [if_pos hw.symm, hrest hw.symm]; omega
    · have hne : u.id ≠ w.id := by have := hu v hv; omega
      rw [if_neg hne]
      have := ih hl hv
      omega

/-! ## The bindings -/

/-- The binding of the service of an id. -/
def Node.boundAs (n : Node) (id : Nat) : Option Binding := (n.svc id).map (·.binding)

theorem Node.boundAs_of_svc {n : Node} {id : Nat} {v : Service} (h : n.svc id = some v) : n.boundAs id = some v.binding := by
  rw [Node.boundAs, h]; rfl
theorem Node.boundAs_congr {n m : Node} (h : m.au.services = n.au.services) (id : Nat) : m.boundAs id = n.boundAs id := by
  rw [Node.boundAs, Node.svc_congr h, Node.boundAs]
theorem Node.Puts.boundAs {n m : Node} {v : Service} (h : n.Puts v m) (hv : n.boundAs v.id = some v.binding) (id : Nat) :
    m.boundAs id = n.boundAs id := by
  by_cases hid : id = v.id
  · subst hid; rw [Node.boundAs, h.svc, hv]; rfl
  · rw [Node.boundAs, h.svc_ne hid, Node.boundAs]

/-! ## What keeps the queues in order -/

/-- Node `m` has its transmit queues in order if node `n` has. -/
structure Node.KeepsQueues (n m : Node) : Prop where
  keeps : QueuesInOrder n → QueuesInOrder m

namespace Node.KeepsQueues

variable {n m : Node}

theorem refl (n : Node) : n.KeepsQueues n := ⟨id⟩
theorem trans {a b c : Node} (h : a.KeepsQueues b) (k : b.KeepsQueues c) : a.KeepsQueues c := ⟨fun q => k.keeps (h.keeps q)⟩
theorem ite {a b : Node} {c : Prop} [Decidable c] (ha : n.KeepsQueues a) (hb : n.KeepsQueues b) :
    n.KeepsQueues (if c then a else b) := by
  split
  · exact ha
  · exact hb
theorem foldl {α : Type} (f : Node → α → Node) (hf : ∀ (n : Node) (a : α), n.KeepsQueues (f n a)) (l : List α) (n : Node) :
    n.KeepsQueues (l.foldl f n) := by
  induction l generalizing n with
  | nil => exact refl n
  | cons a l ih => exact (hf n a).trans (ih _)

/-- Every queue shrinks or stays, and no id below 56 is bound otherwise than before. -/
theorem of_map {f : PeService → PeService} (hp : m.pe.svcs = n.pe.svcs.map f) (hf : ∀ v ∈ n.pe.svcs, v.Shrinks (f v))
    (hb : ∀ id < 56, ∀ b, m.boundAs id = some b → n.boundAs id = some b) : n.KeepsQueues m := by
  refine ⟨fun q => ⟨?_, fun w hw => ?_, fun w hw sv hsv => ?_, ?_⟩⟩
  · rw [hp]; exact pairwise_map_of_ids (fun v hv => (hf v hv).id) q.once
  · rw [hp] at hw
    obtain ⟨v, hv, rfl⟩ := List.mem_map.1 hw
    exact (hf v hv).id ▸ q.ids v hv
  · rw [hp] at hw
    obtain ⟨v, hv, rfl⟩ := List.mem_map.1 hw
    have hid := (hf v hv).id
    obtain ⟨u, hu, hbind⟩ := Option.map_eq_some_iff.1
      (hb v.id (q.ids v hv) sv.binding (Node.boundAs_of_svc (hid ▸ hsv)))
    exact hbind ▸ (hf v hv).queuedBytes_le.trans (q.quota v hv u hu)
  · rw [hp, List.map_map]
    exact (List.sum_le_sum fun v hv => (hf v hv).buffers_le).trans q.pool
/-- The queues stay, and no id below 56 is bound otherwise than before. -/
theorem of_bound (hp : m.pe.svcs = n.pe.svcs) (hb : ∀ id < 56, ∀ b, m.boundAs id = some b → n.boundAs id = some b) :
    n.KeepsQueues m := of_map (f := id) (by rw [hp, List.map_id]) (fun v _ => .refl v) hb
/-- The queues and the services stay. -/
theorem of_same (hs : m.au.services = n.au.services) (hp : m.pe.svcs = n.pe.svcs) : n.KeepsQueues m :=
  of_bound hp fun id _ _ h => (Node.boundAs_congr hs id).symm.trans h
/-- What follows on a change of neither the queues nor the services. -/
theorem before {k : Node} (h : m.KeepsQueues k) (hs : m.au.services = n.au.services) (hp : m.pe.svcs = n.pe.svcs) :
    n.KeepsQueues k := (of_same hs hp).trans h
/-- The services stay and every queue shrinks or stays. -/
theorem of_shrinks {f : PeService → PeService} (hs : m.au.services = n.au.services) (hp : m.pe.svcs = n.pe.svcs.map f)
    (hf : ∀ v ∈ n.pe.svcs, v.Shrinks (f v)) : n.KeepsQueues m :=
  of_map hp hf fun id _ _ h => (Node.boundAs_congr hs id).symm.trans h
theorem lines (h : n.Lines m) : n.KeepsQueues m := of_same (by rw [h.au]) (by rw [h.pe])
theorem report (n : Node) (b : ReportBody) : n.KeepsQueues (n.report b) := of_same rfl rfl
theorem checked {checks : List (Bool × Reply)} {a : Answer} (h : firstRefusal checks = none → n.KeepsQueues a.node) :
    n.KeepsQueues (checked n checks a).node := by
  rcases checked_cases n checks a with ⟨r, -, he⟩ | ⟨hnone, he⟩
  · rw [he]; exact refl n
  · rw [he]; exact h hnone

end Node.KeepsQueues

open Node.KeepsQueues

/-! ## Packet engine -/

/-- A service's packet state is replaced by one that queues no more. -/
theorem Node.setPe_keepsQueues {n : Node} {v w : PeService} (hv : n.peOf w.id = some v) (hs : v.Shrinks w) :
    n.KeepsQueues (n.setPe w) := by
  have hmap (q : QueuesInOrder n) : n.KeepsQueues (n.setPe w) :=
    of_shrinks (f := fun u => if u.id = w.id then w else u) rfl rfl fun u hu => by
      split
      · rename_i hid; exact Node.eq_of_peOf q.once hv hu hid ▸ hs
      · exact .refl u
  exact ⟨fun q => (hmap q).keeps q⟩
/-- A frame joins a queue that has room for it in its quota and in the pool (R139). -/
theorem Node.enqueue_keepsQueues {n : Node} {v : PeService} {sv : Service} {f : QueuedFrame} (hv : n.peOf v.id = some v)
    (hsv : n.svc v.id = some sv) (hquota : v.queuedBytes + f.data.length ≤ sv.binding.quota * 1024)
    (hpool : frameBuffers f.data.length ≤ n.pe.poolFree) :
    n.KeepsQueues (n.setPe { v with queue := v.queue ++ [f] }) := by
  refine ⟨fun q => ?_⟩
  have hids : ∀ u ∈ n.pe.svcs, (if u.id = v.id then { v with queue := v.queue ++ [f] } else u).id = u.id := fun u _ => by
    split
    · rename_i hid; exact hid.symm
    · rfl
  refine ⟨pairwise_map_of_ids hids q.once, fun w hw => ?_, fun w hw u hu => ?_, ?_⟩
  · obtain ⟨u, hu, rfl⟩ := List.mem_map.1 hw
    exact (hids u hu).trans_lt (q.ids u hu)
  · obtain ⟨x, hx, rfl⟩ := List.mem_map.1 hw
    by_cases hid : x.id = v.id
    · simp only [if_pos hid] at hu ⊢
      obtain rfl : u = sv := Option.some.inj (hu.symm.trans hsv)
      rw [PeService.queuedBytes_append]
      omega
    · simp only [if_neg hid] at hu ⊢
      exact q.quota x hx u hu
  · have hsum := sum_replaced q.once (w := { v with queue := v.queue ++ [f] }) (Node.mem_of_peOf hv) rfl fun x => x.buffers
    rw [PeService.buffers_append] at hsum
    have hfree : n.pe.poolFree = 384 - (n.pe.svcs.map (·.buffers)).sum := rfl
    have hpool' := q.pool
    rw [Node.setPe_pe]
    dsimp only at hsum ⊢
    omega
theorem Node.offerFrame_keepsQueues (n : Node) (id : Nat) (data : List Byte) : n.KeepsQueues (n.offerFrame id data).1 := by
  unfold Node.offerFrame
  split
  · rename_i v sv hv hsv
    obtain rfl := Node.peOf_id hv
    split
    · exact Node.setPe_keepsQueues hv (.of_same rfl rfl)
    · rename_i hquota
      split
      · exact Node.setPe_keepsQueues hv (.of_same rfl rfl)
      · rename_i hpool
        exact Node.enqueue_keepsQueues hv hsv (Nat.not_lt.1 hquota) (Nat.not_lt.1 hpool)
  · exact refl n

end Sys2Proof.Machine
end

section
/-! SUPPORT. What the packer, the reassembler and the signals do to the queue of a service (R141 to R149): it shrinks or stays. -/

namespace Sys2Proof.Machine

/-! ## The packer (R144, R145) -/

theorem PeService.discardAged_shrinks (v : PeService) (limit : Nat) (now : BitVec 32) : v.Shrinks (v.discardAged limit now) :=
  ⟨rfl, List.dropWhile_sublist _⟩
theorem PeService.placeHead_shrinks (v : PeService) (left : Nat) : v.Shrinks (v.placeHead left).2 := by
  unfold PeService.placeHead
  split
  · exact .of_same rfl rfl
  · rename_i h q hq
    dsimp only
    split
    · exact ⟨rfl, hq ▸ List.sublist_cons_self h q⟩
    · exact .of_same rfl rfl
theorem packLoop_shrinks (limit : Nat) (now : BitVec 32) (fuel pos left : Nat) (p : Packed) :
    p.svc.Shrinks (packLoop limit now fuel pos left p).svc := by
  induction fuel generalizing pos left p with
  | zero => exact .refl _
  | succ fuel ih =>
    unfold packLoop
    split
    · exact .refl _
    · split
      · have haged := p.svc.discardAged_shrinks limit now
        dsimp only
        split
        · split <;> exact haged
        · exact .trans (haged.trans (PeService.placeHead_shrinks _ left)) (ih (p := ⟨_, _, _⟩) _ _)
      · dsimp only
        exact .trans (p.svc.placeHead_shrinks left) (ih (p := ⟨_, _, _⟩) _ _)
theorem buildTrain_shrinks (now : BitVec 32) (sv : Option Service) (v : PeService) : v.Shrinks (buildTrain now sv v).svc := by
  unfold buildTrain
  split
  · exact .refl v
  · rename_i sv
    generalize (if v.live.a.isEmpty then v.live.b else v.live.a) = cells
    dsimp only
    split
    · exact .refl v
    · exact packLoop_shrinks sv.binding.age now _ 0 _ { bytes := [], offset := none, svc := v }
theorem PeService.abandon_shrinks (v : PeService) : v.Shrinks v.abandon := by
  unfold PeService.abandon
  split
  · exact .refl v
  · exact ⟨rfl, List.tail_sublist _⟩

/-! ## The reassembler (R146 to R149) -/

theorem PeService.sideChanged_shrinks (v : PeService) (before after : Option Side) : v.Shrinks (v.sideChanged before after) := by
  unfold PeService.sideChanged
  split <;> exact .of_same rfl rfl
theorem PeService.endElement_shrinks (v : PeService) (element : List Byte) : v.Shrinks (v.endElement element).1 := by
  unfold PeService.endElement
  dsimp only
  split <;> exact .of_same rfl rfl
theorem parseLoop_shrinks (fuel : Nat) (bytes : List Byte) (v : PeService) (frames : List (List Byte)) :
    v.Shrinks (parseLoop fuel bytes v frames).1 := by
  induction fuel generalizing bytes v frames with
  | zero => exact .refl v
  | succ fuel ih =>
    have gathers (g bytes : List Byte) : v.Shrinks (parseLoop fuel bytes { v with gathered := g } frames).1 :=
      .before (ih bytes { v with gathered := g } frames) rfl rfl
    unfold parseLoop
    split
    · exact .refl v
    · split
      · exact .refl v
      · split
        · dsimp only
          split
          · exact gathers _ _
          · split
            · exact .of_same rfl rfl
            · split
              · exact .of_same rfl rfl
              · exact gathers _ _
        · dsimp only
          split
          · exact .of_same rfl rfl
          · exact (v.endElement_shrinks _).trans (ih _ _ _)
theorem readTrain_shrinks (header : CellVal) (payload : List Byte) (v : PeService) :
    v.Shrinks (readTrain header payload v).1 := by
  unfold readTrain
  dsimp only
  split
  · split
    · exact .of_same rfl rfl
    · split
      · exact .of_same rfl rfl
      · exact parseLoop_shrinks _ _ _ _
  · split
    · exact .refl v
    · split
      · exact .of_same rfl rfl
      · split
        · exact .before (parseLoop_shrinks _ _ _ _) rfl rfl
        · exact .refl v

/-! ## Live halves and receive sides (R141, R145, R146) -/

theorem PeService.applied_shrinks (v : PeService) (prot : Protection) (pick : Option Side) (h : HalfSet) :
    v.Shrinks (v.applied prot pick h) := by
  unfold PeService.applied
  refine .trans ?_ (PeService.sideChanged_shrinks _ _ _)
  split
  · exact .of_same rfl rfl
  · exact .before (PeService.abandon_shrinks _) rfl rfl
theorem PeService.reselect_shrinks (v : PeService) (prot : Protection) (pick : Option Side) : v.Shrinks (v.reselect prot pick) := by
  unfold PeService.reselect
  split
  · exact .before (PeService.sideChanged_shrinks _ _ _) rfl rfl
  · exact .refl v

open Node.KeepsQueues

theorem Node.peApplied_keepsQueues (n : Node) (id : Nat) (h : HalfSet) : n.KeepsQueues (n.peApplied id h) := by
  unfold Node.peApplied
  split
  · rename_i v sv hv _
    have hs := v.applied_shrinks sv.prot (n.pickSide sv.primary) h
    exact Node.setPe_keepsQueues (hs.id ▸ Node.peOf_self hv) hs
  · exact refl n
theorem Node.reselectDual_keepsQueues (n : Node) : n.KeepsQueues n.reselectDual :=
  of_shrinks rfl rfl fun v _ => by
    split
    · exact v.reselect_shrinks _ _
    · exact .refl v
theorem Node.buildTrains_keepsQueues (n : Node) : n.KeepsQueues n.buildTrains.1 :=
  of_shrinks (f := fun v => (buildTrain n.runTime (n.svc v.id) v).svc) rfl (by simp [Node.buildTrains, Function.comp_def])
    fun v _ => buildTrain_shrinks _ _ v

end Sys2Proof.Machine
end

section
/-! SUPPORT. The transmit queues kept in order by the transfer engine, the poll controller and the packet ports: all they do to a
queue is to offer it a frame. -/

namespace Sys2Proof.Machine

open Node.KeepsQueues

/-! ## Transfer engine -/

theorem Node.setXfer_keepsQueues (n : Node) (t : Fin 4) (r : Option Transfer) : n.KeepsQueues (n.setXfer t r) := of_same rfl rfl
theorem Node.transferTo_keepsQueues (n : Node) (t : Fin 4) (old : Option TransferState) (r : Transfer) (c : TransferCause) :
    n.KeepsQueues (n.transferTo t old r c) := of_same rfl rfl
theorem Node.offerState_keepsQueues (n : Node) (t : Fin 4) : n.KeepsQueues (n.offerState t) := by
  unfold Node.offerState
  split
  · exact refl n
  · exact ite ((n.offerFrame_keepsQueues _ _).trans (Node.setXfer_keepsQueues _ _ _)) (refl n)
theorem Node.xferOffered_keepsQueues (n : Node) (t : Fin 4) (r : Option Transfer) :
    n.KeepsQueues ((n.setXfer t r).offerState t) := (n.setXfer_keepsQueues _ _).trans (Node.offerState_keepsQueues _ _)
theorem Node.transferOffered_keepsQueues (n : Node) (t : Fin 4) (old : Option TransferState) (r : Transfer) (c : TransferCause) :
    n.KeepsQueues ((n.transferTo t old r c).offerState t) :=
  (n.transferTo_keepsQueues _ _ _ _).trans (Node.offerState_keepsQueues _ _)
theorem Node.offerIf_keepsQueues (n : Node) (t : Fin 4) (want : Bool) : n.KeepsQueues (n.offerIf t want) :=
  ite (n.offerState_keepsQueues t) (refl n)
theorem Node.resumeIf_keepsQueues (n : Node) (freed : Bool) : n.KeepsQueues (n.resumeIf freed) := by
  refine ite (foldl _ (fun m t => ?_) _ n) (refl n)
  unfold Node.resumeOne
  split
  · exact m.transferOffered_keepsQueues _ _ _ _
  · exact refl m
theorem Node.closeRecord_keepsQueues (n : Node) (t : Fin 4) (r : Transfer) (last : TransferState) (c : TransferCause)
    (why : Option AbortReason) : n.KeepsQueues (n.closeRecord t r last c why) := of_same rfl rfl
theorem Node.closeTransfer_keepsQueues (n : Node) (t : Fin 4) : n.KeepsQueues (n.closeTransfer t) := by
  unfold Node.closeTransfer
  split
  · exact refl n
  · exact (n.xferOffered_keepsQueues _ _).trans (Node.closeRecord_keepsQueues _ _ _ _ _ _)
theorem Node.abortTransfer_keepsQueues (n : Node) (t : Fin 4) (why : AbortReason) : n.KeepsQueues (n.abortTransfer t why) := by
  unfold Node.abortTransfer
  split
  · exact refl n
  · exact (ite (n.xferOffered_keepsQueues _ _) (refl n)).trans (Node.closeRecord_keepsQueues _ _ _ _ _ _)
theorem Node.hostAbort_keepsQueues (n : Node) (t : Fin 4) : n.KeepsQueues (n.hostAbort t) :=
  (n.abortTransfer_keepsQueues t _).trans (Node.resumeIf_keepsQueues _ _)
theorem Node.handChunk_keepsQueues (n : Node) (t : Fin 4) (r : Transfer) (k : Fin 4) (channel : Nat) :
    n.KeepsQueues (n.handChunk t r k channel) := of_same rfl rfl
theorem Node.deliver_keepsQueues (n : Node) (t : Fin 4) (want : Bool) : n.KeepsQueues (n.deliver t want) := by
  have loop (fuel : Nat) (n : Node) : n.KeepsQueues (deliverLoop fuel n t want) := by
    induction fuel generalizing n with
    | zero => exact n.offerIf_keepsQueues _ _
    | succ fuel ih =>
      unfold deliverLoop
      split
      · exact refl n
      · refine ite (n.offerIf_keepsQueues _ _) ?_
        split
        · exact n.closeTransfer_keepsQueues _
        · refine ite (ite ((n.setXfer_keepsQueues _ _).trans (ih _)) (n.closeTransfer_keepsQueues _)) (ite ?_ ?_)
          · exact n.transferOffered_keepsQueues _ _ _ _
          · exact ite ((n.handChunk_keepsQueues _ _ _ _).trans (ih _)) (n.offerIf_keepsQueues _ _)
  exact loop _ n
theorem Node.roomOn_keepsQueues (n : Node) (k : Fin 4) : n.KeepsQueues (n.roomOn k) := by
  refine (foldl _ (fun m t => ?_) allFour n).trans (Node.resumeIf_keepsQueues _ _)
  unfold Node.roomOne
  split
  · exact ite (m.deliver_keepsQueues _ _) (refl m)
  · exact refl m
theorem Node.readyOn_keepsQueues (n : Node) (k : Fin 4) : n.KeepsQueues (n.readyOn k) := by
  refine (foldl _ (fun m t => ?_) allFour n).trans (Node.resumeIf_keepsQueues _ _)
  unfold Node.readyOne
  split
  · refine ite (ite (m.transferOffered_keepsQueues _ _ _ _) (ite ?_ (refl m))) (refl m)
    exact (m.transferTo_keepsQueues _ _ _ _).trans (Node.deliver_keepsQueues _ _ _)
  · exact refl m
theorem Node.judgeSegment_keepsQueues (n : Node) (t : Fin 4) (r : Transfer) (o : Nat) (data : List Byte) :
    n.KeepsQueues (n.judgeSegment t r o data) := by
  refine ite (n.xferOffered_keepsQueues _ _) (ite (n.setXfer_keepsQueues _ _) (ite (n.xferOffered_keepsQueues _ _) ?_))
  unfold Node.appendSegment
  dsimp only
  split
  · exact n.transferOffered_keepsQueues _ _ _ _
  · rename_i blocks _
    have hstored : n.KeepsQueues { n with te := { n.te with store := writePage n.te.store blocks r.received data } } :=
      of_same rfl rfl
    refine hstored.trans (ite ?_ ?_)
    · exact (Node.transferTo_keepsQueues _ _ _ _ _).trans (Node.deliver_keepsQueues _ _ _)
    · exact (Node.setXfer_keepsQueues _ _ _).trans (Node.offerIf_keepsQueues _ _ _)
theorem Node.segment_keepsQueues (n : Node) (id : Nat) (frame : List Byte) : n.KeepsQueues (n.segment id frame) := by
  unfold Node.segment
  refine ite (of_same rfl rfl) (ite (of_same rfl rfl) ?_)
  dsimp only
  split
  · exact of_same rfl rfl
  · refine ite (of_same rfl rfl) ?_
    split
    · exact n.judgeSegment_keepsQueues _ _ _ _
    · exact n.xferOffered_keepsQueues _ _
    · exact n.xferOffered_keepsQueues _ _
    · exact of_same rfl rfl
theorem Node.transferShed_keepsQueues (n : Node) (id : Nat) : n.KeepsQueues (n.transferShed id) := by
  unfold Node.transferShed
  split
  · exact refl n
  · split
    · exact ite (n.transferTo_keepsQueues _ _ _ _) (refl n)
    · exact refl n
theorem Node.transferPlaced_keepsQueues (n : Node) (id : Nat) : n.KeepsQueues (n.transferPlaced id) := by
  unfold Node.transferPlaced
  split
  · exact refl n
  · split
    · exact ite (n.transferOffered_keepsQueues _ _ _ _) (refl n)
    · exact refl n
theorem Node.stateTimerEnd_keepsQueues (n : Node) (t : Fin 4) : n.KeepsQueues (n.stateTimerEnd t) := by
  unfold Node.stateTimerEnd
  split
  · exact ite (n.xferOffered_keepsQueues _ _) (refl n)
  · exact refl n

/-! ## Packet ports and trains read -/

theorem Node.tributaryIn_keepsQueues (n : Node) (k : Fin 4) (f : TributaryInput) : n.KeepsQueues (n.tributaryIn k f) := by
  unfold Node.tributaryIn
  refine ite ?_ (refl n)
  split
  · exact of_same rfl rfl
  · split
    · exact of_same rfl rfl
    · exact n.offerFrame_keepsQueues _ _
theorem Node.outputBegin_keepsQueues (n : Node) (k : Fin 4) : n.KeepsQueues (n.outputBegin k) := ite (of_same rfl rfl) (refl n)
theorem Node.outputEnd_keepsQueues (n : Node) (k : Fin 4) : n.KeepsQueues (n.outputEnd k) :=
  ite ((Node.roomOn_keepsQueues _ _).before rfl rfl) (refl n)
theorem Node.intervalEnd_keepsQueues (n : Node) : n.KeepsQueues n.intervalEnd := by
  unfold Node.intervalEnd
  split
  · have hmarked (m : Node) (ports : Vector PacketPort 4) : m.KeepsQueues { m with pe := { m.pe with
        ports := ports, svcs := m.pe.svcs.map fun v => { v with mark := v.counts }, interval := some 0 } } :=
      of_shrinks rfl rfl fun _ _ => .of_same rfl rfl
    exact .trans (ite (Node.KeepsQueues.report n _) (refl n)) (hmarked _ _)
  · exact refl n
theorem Node.handFrame_keepsQueues (n : Node) (v : Service) (data : List Byte) : n.KeepsQueues (n.handFrame v data) := by
  unfold Node.handFrame
  split
  · exact of_same rfl rfl
  · exact n.segment_keepsQueues _ _
  · split
    · rename_i w hw
      exact Node.setPe_keepsQueues (v := w) (Node.peOf_self hw) (.of_same rfl rfl)
    · exact refl n
  · exact refl n
theorem Node.readTrains_keepsQueues (n : Node) : n.KeepsQueues n.readTrains := by
  refine (foldl _ (fun m id => ?_) _ n).trans (Node.resumeIf_keepsQueues _ _)
  unfold Node.readService
  split
  · rename_i v sv hv _
    split
    · exact refl m
    · dsimp only
      split
      · exact refl m
      · refine .trans ?_ (foldl _ (fun m d => m.handFrame_keepsQueues sv d) _ _)
        have hs := readTrain_shrinks
        exact Node.setPe_keepsQueues ((hs _ _ v).id ▸ Node.peOf_self hv) (hs _ _ v)
  · exact refl m

/-! ## Poll controller -/

theorem Node.forwardReading_keepsQueues (n : Node) (k : Fin 8) : n.KeepsQueues (n.forwardReading k) := by
  unfold Node.forwardReading
  split
  · exact refl n
  · split
    · exact of_same rfl rfl
    · exact (n.offerFrame_keepsQueues _ _).trans (of_same rfl rfl)
theorem Node.catchUp_keepsQueues (n : Node) : n.KeepsQueues n.catchUp :=
  foldl _ (fun n k => ite (n.forwardReading_keepsQueues k) (refl n)) _ _
theorem Node.weatherPlaced_keepsQueues (n : Node) (id : Nat) : n.KeepsQueues (n.weatherPlaced id) :=
  ite n.catchUp_keepsQueues (refl n)
theorem Node.cycleStart_keepsQueues (n : Node) : n.KeepsQueues n.cycleStart := by
  unfold Node.cycleStart
  split <;> exact of_same rfl rfl
theorem Node.beginPoll_keepsQueues (n : Node) : n.KeepsQueues n.beginPoll := by
  unfold Node.beginPoll
  split <;> exact of_same rfl rfl
theorem Node.stationDue_keepsQueues (n : Node) (k : Fin 8) : n.KeepsQueues (n.stationDue k) := by
  unfold Node.stationDue
  refine ite (ite (of_same rfl rfl) ?_) (refl n)
  exact (Node.beginPoll_keepsQueues _).before rfl rfl
theorem Node.stationTo_keepsQueues (n : Node) (k : Fin 8) (st : StationState) (c : StationCause) :
    n.KeepsQueues (n.stationTo k st c) := of_same rfl rfl
theorem Node.endPoll_keepsQueues (n : Node) : n.KeepsQueues n.endPoll := (Node.beginPoll_keepsQueues _).before rfl rfl
theorem Node.failedPoll_keepsQueues (n : Node) (k : Fin 8) : n.KeepsQueues (n.failedPoll k) := by
  unfold Node.failedPoll
  refine .trans ?_ (Node.endPoll_keepsQueues _)
  exact .before (m := n.modStation k fun x => { x with failures := min 3 (x.failures + 1) })
    (ite (Node.stationTo_keepsQueues _ _ _ _) (refl _)) rfl rfl
theorem Node.attemptFails_keepsQueues (n : Node) (t : Transaction) (f : StationCounts → StationCounts) :
    n.KeepsQueues (n.attemptFails t f) := by
  unfold Node.attemptFails
  exact ite (of_same rfl rfl) ((Node.failedPoll_keepsQueues _ _).before rfl rfl)
theorem Node.attemptSucceeds_keepsQueues (n : Node) (t : Transaction) (bs : List Byte) :
    n.KeepsQueues (n.attemptSucceeds t bs) := by
  unfold Node.attemptSucceeds
  refine .trans ?_ (Node.endPoll_keepsQueues _)
  have hread (m : Node) : m.KeepsQueues (m.newReading t.station bs) := (Node.forwardReading_keepsQueues _ _).before rfl rfl
  exact .before (.trans (hread _) (ite (refl _) (Node.stationTo_keepsQueues _ _ _ _))) rfl rfl
theorem Node.judgeAttempt_keepsQueues (n : Node) (t : Transaction) (v : Verdict) : n.KeepsQueues (n.judgeAttempt t v) := by
  unfold Node.judgeAttempt
  split
  · exact n.attemptSucceeds_keepsQueues _ _
  all_goals exact n.attemptFails_keepsQueues _ _
theorem Node.windowOpens_keepsQueues (n : Node) : n.KeepsQueues n.windowOpens := by
  unfold Node.windowOpens
  split
  · exact ite (of_same rfl rfl) (refl n)
  · exact refl n
theorem Node.replyTimeout_keepsQueues (n : Node) : n.KeepsQueues n.replyTimeout := by
  unfold Node.replyTimeout
  split
  · split
    · exact ite (n.judgeAttempt_keepsQueues _ _) (refl n)
    · exact refl n
  · exact refl n
theorem Node.replyStart_keepsQueues (n : Node) : n.KeepsQueues n.replyStart := by
  refine n.replyTimeout_keepsQueues.trans ?_
  unfold Node.replyStart
  dsimp only
  split
  · split <;> exact of_same rfl rfl
  · exact refl _
theorem Node.replyEnd_keepsQueues (n : Node) (judge : Nat → Verdict) : n.KeepsQueues (n.replyEnd judge) := by
  unfold Node.replyEnd
  split
  · exact ite (n.judgeAttempt_keepsQueues _ _) (refl n)
  · exact refl n
theorem Node.setStationEntry_keepsQueues (n : Node) (k : Fin 8) (enabled : Bool) (address offset : Nat) :
    n.KeepsQueues (n.setStationEntry k enabled address offset) :=
  .before (ite (refl _) (Node.stationTo_keepsQueues _ _ _ _)) rfl rfl

/-! ## Staging records applied (R55) -/

theorem Node.stagingApply_keepsQueues (n : Node) : n.KeepsQueues n.stagingApply := by
  have happly (r : Staging) : n.KeepsQueues (n.applyRecord r) := by
    refine .before (ite (Node.peApplied_keepsQueues _ _ _) ?_) rfl rfl
    exact of_same rfl rfl
  unfold Node.stagingApply
  split
  · exact ite (happly _) (refl n)
  · exact refl n
theorem Node.applyDue_keepsQueues (n : Node) : n.KeepsQueues n.applyDue := foldl _ (fun m _ => m.stagingApply_keepsQueues) _ _

end Sys2Proof.Machine
end

section
/-! SUPPORT. The transmit queues kept in order by the admission unit (R74, R81 to R83, R88, R95 to R103): a record that it enters keeps
the binding of its id, but for a definition, which opens an empty queue. -/

namespace Sys2Proof.Machine

open Node.KeepsQueues

/-! ## Records entered -/

/-- A record entered for an id below 56 has the binding that the id had. -/
theorem Node.Puts.keepsQueues {n m : Node} {v : Service} (h : n.Puts v m) (hp : m.pe.svcs = n.pe.svcs)
    (hv : v.id < 56 → n.boundAs v.id = some v.binding) : n.KeepsQueues m := by
  refine of_bound hp fun id hid b hb => ?_
  by_cases he : id = v.id
  · subst he
    rw [hv hid, ← hb, Node.boundAs, h.svc]
    rfl
  · rwa [Node.boundAs, h.svc_ne he] at hb
/-- An empty queue is opened for the id of a record entered (R81). -/
theorem Node.Puts.opensQueue {n m : Node} {v : Service} (h : n.Puts v m) (hp : m.pe.svcs = (n.openPe v.id).pe.svcs)
    (hid : v.id < 56) : n.KeepsQueues m := by
  refine ⟨fun q => ⟨?_, fun w hw => ?_, fun w hw sv hsv => ?_, ?_⟩⟩
  · rw [hp]
    exact insertBy_ascending PeService.id _ _ (q.once.filter _) fun w hw => by simpa using (List.mem_filter.1 hw).2
  · rw [hp] at hw
    rcases (mem_insertBy _ _ _ _).1 hw with rfl | hw
    · exact hid
    · exact q.ids w (List.mem_filter.1 hw).1
  · rw [hp] at hw
    rcases (mem_insertBy _ _ _ _).1 hw with rfl | hw
    · exact Nat.zero_le _
    · obtain ⟨hw, hne⟩ := List.mem_filter.1 hw
      have hne : w.id ≠ v.id := by simpa using hne
      exact q.quota w hw sv (by rwa [h.svc_ne hne] at hsv)
  · have hsum : (m.pe.svcs.map (·.buffers)).sum = ((n.pe.svcs.filter (·.id != v.id)).map (·.buffers)).sum := by
      rw [hp, Node.openPe]
      refine ((insertBy_eq_orderedInsert _ _ _ ▸ List.perm_orderedInsert _ _ _).map _).sum_eq.trans ?_
      rw [List.map_cons, List.sum_cons]
      exact Nat.zero_add _
    exact hsum.trans_le (((List.filter_sublist.map _).sum_le_sum fun _ _ => Nat.zero_le _).trans q.pool)

/-! ## Services shed, and attempts (R88, R91 to R94) -/

/-- The queues are kept in order, and every id is bound as it was. -/
structure Node.KeepsBindings (n m : Node) : Prop extends n.KeepsQueues m where
  bound : ∀ id, m.boundAs id = n.boundAs id

theorem Node.KeepsBindings.trans {a b c : Node} (h : a.KeepsBindings b) (k : b.KeepsBindings c) : a.KeepsBindings c :=
  ⟨h.toKeepsQueues.trans k.toKeepsQueues, fun id => (k.bound id).trans (h.bound id)⟩
theorem Node.Puts.keepsBindings {n m : Node} {v : Service} (h : n.Puts v m) (hp : m.pe.svcs = n.pe.svcs)
    (hv : n.boundAs v.id = some v.binding) : n.KeepsBindings m := ⟨h.keepsQueues hp fun _ => hv, h.boundAs hv⟩
theorem Node.freeHalves_keepsBindings {n : Node} {v : Service} (hv : n.boundAs v.id = some v.binding) :
    n.KeepsBindings (n.freeHalves v) := (n.freeHalves_puts v).keepsBindings rfl hv
theorem Node.takeCells_keepsQueues {n : Node} {v : Service} (hv : v.id < 56 → n.boundAs v.id = some v.binding)
    (cells : List Nat) : n.KeepsQueues (n.takeCells v cells) := (n.takeCells_puts v cells).keepsQueues rfl hv
theorem Node.svcEventOf_keepsQueues (n : Node) (id : Nat) (old : Option SvcState) (c : SvcCause) :
    n.KeepsQueues (n.svcEventOf id old c) :=
  of_same (by rw [(n.svcEventOf_offers id old c).au]) (by rw [n.svcEventOf_pe])
theorem Node.shed_keepsBindings {n : Node} {v : Service} (hv : n.boundAs v.id = some v.binding) (why : ShedReason) :
    n.KeepsBindings (n.shed v why) := by
  have hput : (n.freeHalves v).Puts (v.shedAs why n.nextShed) (n.shedSilently v why) := ⟨rfl, rfl, rfl, rfl⟩
  have hsilent : n.KeepsQueues (n.shedSilently v why) :=
    ((n.freeHalves_puts v).again hput rfl).keepsQueues rfl fun _ => hv
  refine ⟨hsilent.trans (.before (Node.transferShed_keepsQueues _ _) rfl rfl), (n.shed_puts v why).boundAs hv⟩
theorem Node.shedId_keepsBindings (n : Node) (id : Nat) (why : ShedReason) : n.KeepsBindings (n.shedId id why) := by
  cases hv : n.svc id with
  | none => rw [Node.shedId_of_none hv]; exact ⟨refl n, fun _ => rfl⟩
  | some v =>
    rw [Node.shedId_of_svc hv]
    exact Node.shed_keepsBindings (Node.svc_id hv ▸ Node.boundAs_of_svc hv) why
theorem Node.shedAll_keepsBindings (n : Node) (ids : List Nat) (why : ShedReason) : n.KeepsBindings (n.shedAll ids why) := by
  unfold Node.shedAll
  induction ids generalizing n with
  | nil => exact ⟨refl n, fun _ => rfl⟩
  | cons id ids ih => exact (n.shedId_keepsBindings id why).trans (ih _)
theorem Node.attempts_keepsBindings {n : Node} {v : Service} {x : Side} {l : List Attempt} {r : Room}
    (h : n.attempts v x l = some r) : n.KeepsBindings r.node := by
  obtain ⟨t, -, ht⟩ := List.exists_of_findSome?_eq_some h
  rcases Node.attempt_cases ht with ⟨cells, -, rfl⟩ | ⟨-, m, cells, hpre, rfl⟩
  · exact ⟨refl n, fun _ => rfl⟩
  · unfold Node.preemptCells at hpre
    dsimp only at hpre
    split at hpre
    · cases hpre; exact n.shedAll_keepsBindings _ _
    · cases hpre

/-! ## Placements from nothing (R66, R81, R97) -/

/-- The record placed keeps the binding of its id, where that is below 56. -/
theorem Node.placeNew_keepsQueues {n : Node} {r : Room} {v : Service} {x y : Side} {l : List Attempt}
    (h : n.attempts v y l = some r) (hv : v.id < 56 → n.boundAs v.id = some v.binding) :
    n.KeepsQueues (Node.placeNew r v x) := by
  have hroom := Node.attempts_keepsBindings h
  refine hroom.toKeepsQueues.trans (.before (m := r.node.countAdmission) ?_ rfl rfl)
  refine Node.takeCells_keepsQueues ?_ r.cells
  exact fun hid => (hroom.bound _).trans (hv hid)
theorem Node.callPlacement_keepsQueues {n m : Node} {p : Fin 8} (h : n.callPlacement p = some m) : n.KeepsQueues m := by
  unfold Node.callPlacement at h
  obtain ⟨r, hr, rfl⟩ := Option.map_eq_some_iff.1 h
  have hid : ¬ callId p < 56 := Nat.not_lt.2 (callId_ge p)
  exact (Node.placeNew_keepsQueues hr fun hlow => absurd hlow hid).trans (Node.svcEventOf_keepsQueues _ _ _ _)
theorem Node.openCall_keepsQueues (n : Node) (p : Fin 8) : n.KeepsQueues (n.openCall p) := of_same rfl rfl

/-! ## The restoration pass (R95 to R99) -/

theorem passCalls_keepsQueues (l : List (Fin 8)) (q : Pass) : q.node.KeepsQueues (passCalls l q).node := by
  induction l generalizing q with
  | nil => exact refl _
  | cons p l ih =>
    unfold passCalls
    split
    · rename_i m hm
      exact ((Node.callPlacement_keepsQueues hm).trans (m.openCall_keepsQueues p)).trans
        (ih { q with node := m.openCall p, placed := q.placed + 1 })
    · exact refl _
theorem Pass.restore_keepsQueues (q : Pass) (id : Nat) : q.node.KeepsQueues (q.restore id).node := by
  unfold Pass.restore
  split
  · exact refl _
  · rename_i v hv
    split
    · exact refl _
    · split
      · exact refl _
      · split
        · exact refl _
        · rename_i x _ _ r hr
          have hplaced := Node.placeNew_keepsQueues (x := x) hr fun _ => Node.svc_id hv ▸ Node.boundAs_of_svc hv
          exact ((hplaced.trans (Node.svcEventOf_keepsQueues _ _ _ _)).trans (Node.transferPlaced_keepsQueues _ _)).trans
            (Node.weatherPlaced_keepsQueues _ _)
/-- A service whose record stands takes its cells anew. -/
theorem Node.takesAgain_keepsQueues {n : Node} {id : Nat} {v w : Service} (hv : n.svc id = some v) (hid : w.id = v.id)
    (hb : w.binding = v.binding) (cells : List Nat) (old : Option SvcState) (c : SvcCause) (j : Nat) :
    n.KeepsQueues ((n.takeCells w cells).svcEventOf j old c) := by
  have hw : n.boundAs w.id = some w.binding := by rw [hid, hb, Node.svc_id hv, Node.boundAs_of_svc hv]
  exact (Node.takeCells_keepsQueues (fun _ => hw) cells).trans (Node.svcEventOf_keepsQueues _ _ _ _)
theorem Pass.grow_keepsQueues (q : Pass) (id : Nat) : q.node.KeepsQueues (q.grow id).node := by
  unfold Pass.grow
  split
  · exact refl _
  · rename_i v hv
    split
    · exact refl _
    · exact Node.takesAgain_keepsQueues hv (by rfl) (by rfl) _ _ _ _
theorem Node.moveHome_keepsQueues {n m : Node} {id : Nat} {v : Service} (hv : n.svc id = some v) (h : n.moveHome v = some m) :
    n.KeepsQueues m := by
  obtain ⟨cells, -, rfl⟩ := Option.map_eq_some_iff.1 h
  exact Node.takesAgain_keepsQueues hv (by rfl) (by rfl) _ _ _ _
theorem Pass.home_keepsQueues (q : Pass) (id : Nat) : q.node.KeepsQueues (q.home id).node := by
  unfold Pass.home
  split
  · rename_i m hm
    obtain ⟨v, hv, hhome⟩ := Option.bind_eq_some_iff.1 hm
    exact Node.moveHome_keepsQueues hv hhome
  · exact refl _
theorem Pass.steps_keepsQueues (q : Pass) : q.node.KeepsQueues q.steps.node := by
  have served (f : Pass → Nat → Pass) (hf : ∀ (q : Pass) (id : Nat), q.node.KeepsQueues (f q id).node) (l : List Nat) (q : Pass) :
      q.node.KeepsQueues (l.foldl f q).node := by
    induction l generalizing q with
    | nil => exact refl _
    | cons id l ih => exact (hf q id).trans (ih _)
  exact (((passCalls_keepsQueues _ { q with moved := false }).trans (served _ Pass.restore_keepsQueues _ _)).trans
    (served _ Pass.grow_keepsQueues _ _)).trans (served _ Pass.home_keepsQueues _ _)
theorem passLoop_keepsQueues (fuel : Nat) (q : Pass) : q.node.KeepsQueues (passLoop fuel q).node := by
  induction fuel generalizing q with
  | zero => exact refl _
  | succ fuel ih =>
    unfold passLoop
    dsimp only
    split
    · exact q.steps_keepsQueues.trans (ih _)
    · exact q.steps_keepsQueues
theorem Node.pass_keepsQueues (n : Node) : n.KeepsQueues n.pass := passLoop_keepsQueues _ { node := n }

/-! ## Reroute and revert (R100 to R103) -/

theorem Node.rerouteOne_keepsQueues (n : Node) (x : Side) (id : Nat) : n.KeepsQueues (n.rerouteOne x id) := by
  unfold Node.rerouteOne
  split
  · exact refl n
  · rename_i v hv
    have hbound : n.boundAs v.id = some v.binding := Node.svc_id hv ▸ Node.boundAs_of_svc hv
    have hfree := Node.freeHalves_keepsBindings hbound
    have hshed : n.KeepsQueues ((n.freeHalves v).shed { v with cells := [] } .pathLost) :=
      hfree.toKeepsQueues.trans (Node.shed_keepsBindings ((hfree.bound _).trans hbound) _).toKeepsQueues
    dsimp only
    split
    · split
      · rename_i r hr
        have hroom := hfree.trans (Node.attempts_keepsBindings hr)
        refine .trans (hroom.toKeepsQueues.trans ?_) (Node.svcEventOf_keepsQueues _ _ _ _)
        refine Node.takeCells_keepsQueues ?_ _
        exact fun _ => (hroom.bound v.id).trans hbound
      · exact hshed
    · exact hshed
theorem Node.reroute_keepsQueues (n : Node) (x : Side) : n.KeepsQueues (n.reroute x) :=
  ite (refl n) ((foldl _ (fun n id => n.rerouteOne_keepsQueues x id) _ _).trans (Node.pass_keepsQueues _))
theorem Node.revertOne_keepsQueues (n : Node) (id : Nat) : n.KeepsQueues (n.revertOne id) := by
  unfold Node.revertOne
  split
  · exact refl n
  · rename_i v hv
    cases h : n.moveHome v with
    | some m => exact Node.moveHome_keepsQueues hv h
    | none => exact .report n _
theorem Node.revert_keepsQueues (n : Node) (x : Side) : n.KeepsQueues (n.revert x) :=
  (foldl _ Node.revertOne_keepsQueues _ _).trans (Node.pass_keepsQueues _)

/-! ## Definition, release, economy mode (R79 to R83, R104) -/

theorem Node.defineShed_keepsQueues (n : Node) {v : Service} (hid : v.id < 56) (why : ShedReason) :
    n.KeepsQueues (n.defineShed v why) := by
  have hput : n.Puts { v with state := .shed, reason := some why, shedNo := some n.countShed.au.shedCounter }
      (n.defineShed v why) := ⟨rfl, rfl, rfl, rfl⟩
  exact hput.opensQueue rfl hid
theorem Node.define_keepsQueues {n m : Node} {v : Service} (hid : v.id < 56) (h : n.define v = some m) : n.KeepsQueues m := by
  unfold Node.define at h
  split at h
  · cases h; exact n.defineShed_keepsQueues hid _
  · split at h
    · cases h; exact n.defineShed_keepsQueues hid _
    · split at h
      · rename_i x _ _ r hr
        cases h
        have hput : r.node.Puts { v with
            state := r.state, reason := none, shedNo := none, adm := some r.node.countAdmission.au.admCounter
            current := v.prot.current x, cells := r.cells } ((Node.placeNew r v x).openPe v.id) := ⟨rfl, rfl, rfl, rfl⟩
        exact ((Node.attempts_keepsBindings hr).toKeepsQueues.trans (hput.opensQueue rfl hid)).trans
          (Node.svcEventOf_keepsQueues _ _ _ _)
      · split at h
        · cases h; exact n.defineShed_keepsQueues hid _
        · cases h
theorem Node.unbind_keepsQueues (n : Node) (v : Service) : n.KeepsQueues (n.unbind v) := by
  have hdrop : n.KeepsQueues { n with pe := { n.pe with svcs := n.pe.svcs.filter (·.id != v.id) } } :=
    ⟨fun q => ⟨q.once.filter _, fun w hw => q.ids w (List.mem_filter.1 hw).1,
      fun w hw sv hsv => q.quota w (List.mem_filter.1 hw).1 sv hsv,
      ((List.filter_sublist.map _).sum_le_sum fun _ _ => Nat.zero_le _).trans q.pool⟩⟩
  refine hdrop.trans ?_
  unfold Node.unbind
  dsimp only
  split
  · split
    · exact Node.abortTransfer_keepsQueues _ _ _
    · exact refl _
  · exact ite (of_same rfl rfl) (refl _)
  · exact refl _
theorem Node.dropSvc_keepsQueues (n : Node) (id : Nat) : n.KeepsQueues (n.dropSvc id) :=
  of_bound rfl fun j _ b hb => by
    by_cases he : j = id
    · subst he; rw [Node.boundAs, Node.svc_dropSvc] at hb; cases hb
    · rwa [Node.boundAs, Node.svc_dropSvc_ne n he] at hb
theorem Node.release_keepsQueues {n : Node} {id : Nat} {v : Service} (hv : n.svc id = some v) : n.KeepsQueues (n.release v) := by
  have hgone : n.KeepsQueues (n.halvesGone v) := by
    unfold Node.halvesGone
    refine ite (refl n) ?_
    exact (Node.freeHalves_keepsBindings (Node.svc_id hv ▸ Node.boundAs_of_svc hv)).toKeepsQueues.trans (of_same rfl rfl)
  rw [Node.release_eq]
  refine .trans (.trans ?_ (Node.pass_keepsQueues _)) (Node.resumeIf_keepsQueues _ _)
  exact ((hgone.trans (Node.unbind_keepsQueues _ v)).trans (Node.dropSvc_keepsQueues _ _)).trans (.report _ _)
theorem Node.economyShed_keepsQueues (n : Node) : n.KeepsQueues n.economyShed :=
  .before (m := n.setEconomy true) (Node.shedAll_keepsBindings _ _ _).toKeepsQueues rfl rfl
theorem Node.startValues_keepsQueues (n : Node) : n.KeepsQueues n.startValues := by
  refine of_bound rfl fun id _ b hb => ?_
  have hsvc : n.startValues.svc id = (n.svc id).map Service.renumber := by
    rw [Node.svc, Node.svc, Node.startValues, List.find?_map]
    rfl
  rw [Node.boundAs, hsvc, Option.map_map] at hb
  exact hb

end Sys2Proof.Machine
end

section
/-! SUPPORT. The transmit queues kept in order by the calls, by the due events taken before a frame start and by the frame start
itself (R44, R121 to R126, log 1). -/

namespace Sys2Proof.Machine

namespace Node.KeepsQueues

/-! ## Calls -/

/-- A change of the calls and a report leave the services and the queues as they are. -/
theorem calls (n : Node) (cc : Calls) : n.KeepsQueues { n with cc := cc } := of_same rfl rfl
theorem phoneEvent (n : Node) (p : Fin 8) (f : Phone → Phone) (old : CallState) (o : CallOutcome) :
    n.KeepsQueues ((n.modPhone p f).callEvent p old o) := of_same rfl rfl
theorem testCaller (n : Node) (p : Fin 8) : n.KeepsQueues (n.testCaller p) := by
  refine ite ?_ (refl n)
  unfold Node.callerCall
  split
  · rename_i m hm; exact (Node.callPlacement_keepsQueues hm).trans (m.openCall_keepsQueues p)
  · exact of_same rfl rfl
theorem enterIdle (n : Node) (p : Fin 8) (o : CallOutcome) : n.KeepsQueues (n.enterIdle p o) :=
  (testCaller _ p).before rfl rfl
theorem guardEnd (n : Node) (p : Fin 8) : n.KeepsQueues (n.guardEnd p) := by
  refine .trans ?_ (enterIdle _ p _)
  split
  · rename_i v hv; exact Node.release_keepsQueues hv
  · exact refl n
theorem enterClearing (n : Node) (p : Fin 8) (o : CallOutcome) : n.KeepsQueues (n.enterClearing p o) :=
  ite ((phoneEvent n p _ _ _).trans (guardEnd _ p)) (phoneEvent n p _ _ _)
theorem testFlash (n : Node) (p : Fin 8) : n.KeepsQueues (n.testFlash p) := by
  refine ite ?_ (refl n)
  split <;> exact of_same rfl rfl
theorem offHook (n : Node) (p : Fin 8) : n.KeepsQueues (n.offHook p) := by
  refine .before (m := n.modPhone p fun ph => { ph with hook := .offHook, hookDue := false }) ?_ rfl rfl
  unfold Node.offHook
  dsimp only
  split
  · exact testCaller _ p
  · exact phoneEvent _ _ _ _ _
  · exact phoneEvent _ _ _ _ _
  · exact refl _
theorem onHook (n : Node) (p : Fin 8) : n.KeepsQueues (n.onHook p) := by
  have hend (m : Node) (held : Bool) : m.KeepsQueues (if held then m.enterHeld p else m.enterClearing p .callerCleared) :=
    ite (phoneEvent m _ _ _ _) (enterClearing m p _)
  refine .before (m := n.modPhone p fun ph => { ph with hook := .onHook, hookDue := false, clearLock := false }) ?_ rfl rfl
  unfold Node.onHook
  dsimp only
  split
  · exact enterIdle _ p _
  · exact hend _ _
  · exact hend _ _
  · exact refl _
theorem hookEvent (n : Node) (p : Fin 8) : n.KeepsQueues (n.hookEvent p) := by
  refine ite ?_ (refl n)
  split
  · exact offHook n p
  · exact onHook n p
theorem acceptEvent (n : Node) (p : Fin 8) : n.KeepsQueues (n.acceptEvent p) :=
  ite (((hookEvent n p).trans (calls _ _)).trans (ite (testFlash _ p) (refl _))) (refl n)
theorem timerEvent (n : Node) (p : Fin 8) : n.KeepsQueues (n.timerEvent p) := by
  unfold Node.timerEvent
  split
  · exact enterClearing n p _
  · exact enterClearing n p _
  · exact guardEnd n p
  · exact refl n
theorem settlePhone (n : Node) (p : Fin 8) : n.KeepsQueues (n.settlePhone p) :=
  (((hookEvent n p).trans (acceptEvent _ p)).trans (calls _ _)).trans (timerEvent _ p)
theorem reselectCall (n : Node) (p : Fin 8) : n.KeepsQueues (n.reselectCall p) :=
  ite (ite (of_same rfl rfl) (of_same rfl rfl)) (refl n)
theorem clearCall (n : Node) (p : Fin 8) : n.KeepsQueues (n.clearCall p) :=
  (calls n _).trans (ite (enterIdle _ p _) (enterClearing _ p _))

/-! ## Signals taken and due events -/

theorem auTakes (n : Node) (g : PathSignal) (f : Node → Node) (hf : ∀ m : Node, m.KeepsQueues (f m)) :
    n.KeepsQueues (n.auTakes g f) := ite ((hf _).before rfl rfl) (refl n)
theorem ccTakes (n : Node) (g : PathSignal) : n.KeepsQueues (n.ccTakes g) :=
  ite (.before (m := { n with sig := { n.sig with cc := n.sig.cc.erase g } }) (foldl _ reselectCall _ _) rfl rfl) (refl n)
theorem peTakes (n : Node) (g : PathSignal) : n.KeepsQueues (n.peTakes g) :=
  ite ((Node.reselectDual_keepsQueues _).before rfl rfl) (refl n)
theorem takeAuSignal (n : Node) (g : PathSignal) : n.KeepsQueues (n.takeAuSignal g) := by
  refine auTakes n g _ fun m => ?_
  cases g with
  | lost x => exact m.reroute_keepsQueues x
  | restored x => exact m.revert_keepsQueues x
theorem takeSignals (n : Node) : n.KeepsQueues n.takeSignals :=
  ((foldl _ takeAuSignal _ _).trans (foldl _ ccTakes _ _)).trans (foldl _ peTakes _ _)
theorem settleNode (n : Node) : n.KeepsQueues n.settle := by
  have hlines : n.Lines (((((((n.settleLine .u).settleLine .d).periodicDue .u).periodicDue .d).holdOffEnd .a).holdOffEnd
      .b).wtrEnd .a |>.wtrEnd .b).timingRevert :=
    ((((((((n.settleLine_lines _).trans (Node.settleLine_lines _ _)).trans (Node.periodicDue_lines _ _)).trans
      (Node.periodicDue_lines _ _)).trans (Node.holdOffEnd_lines _ _)).trans (Node.holdOffEnd_lines _ _)).trans
      (Node.wtrEnd_lines _ _)).trans (Node.wtrEnd_lines _ _)).trans (Node.timingRevert_lines _)
  have hengines (m : Node) :
      m.KeepsQueues (allStations.foldl Node.stationDue (allFour.foldl Node.stateTimerEnd m).intervalEnd.cycleStart) :=
    (((foldl _ Node.stateTimerEnd_keepsQueues _ _).trans (Node.intervalEnd_keepsQueues _)).trans
      (Node.cycleStart_keepsQueues _)).trans (foldl _ Node.stationDue_keepsQueues _ _)
  exact ((lines hlines).trans (takeSignals _)).trans (hengines _)

/-! ## The management link (R187 to R193) -/

theorem gapEnd (s : State) : s.node.KeepsQueues s.gapEnd.node := by
  unfold State.gapEnd
  split
  · split
    · exact report _ _
    · exact refl _
  · exact refl _
theorem frameByte (s : State) (bs : List Byte) : s.node.KeepsQueues (s.frameByte bs).node := by
  have hoffer (s : State) (r : Request) : s.node.KeepsQueues (s.offerRequest r bs).node := by
    unfold State.offerRequest
    split
    · exact refl _
    · split
      · exact refl _
      · exact report _ _
  unfold State.frameByte
  split
  · exact report _ _
  · split
    · split
      · exact hoffer _ _
      · exact report _ _
    · exact refl _
theorem rxByte (s : State) (b : Byte) : s.node.KeepsQueues (s.rxByte b).node := by
  refine (gapEnd s).trans ?_
  unfold State.rxByte
  dsimp only
  split
  · split <;> exact refl _
  · exact frameByte _ _
theorem rxByteIf (s : State) (take : Bool) (b : Byte) : s.node.KeepsQueues (if take then s.rxByte b else s).node := by
  split
  · exact rxByte s b
  · exact refl _
theorem rxError (s : State) : s.node.KeepsQueues s.rxError.node := by
  refine (gapEnd s).trans ?_
  unfold State.rxError
  dsimp only
  split
  · exact refl _
  · exact report _ _
theorem reportSent (s : State) : s.node.KeepsQueues s.reportSent.node := by
  unfold State.reportSent
  split <;> exact of_same rfl rfl
theorem powerOn (n : Node) : n.KeepsQueues n.powerOn := ⟨fun _ => ⟨.nil, nofun, nofun, Nat.zero_le _⟩⟩
theorem replySent (s : State) : s.node.KeepsQueues s.replySent.node := by
  have hrate (s : State) (r : LinkRate) : s.node.KeepsQueues (s.changeRate r).node := by
    unfold State.changeRate
    split
    · exact refl _
    · dsimp only
      split
      · exact refl _
      · exact report _ _
  unfold State.replySent
  split
  · unfold State.afterReply
    dsimp only
    split
    · exact refl _
    · exact (hrate _ _).before rfl rfl
    · exact powerOn _
  · exact refl _
  · exact refl _

/-! ## The tick and the frame start (R44, R186) -/

theorem settleTick (s : State) : s.node.KeepsQueues s.settleTick.node := by
  have hphones : s.node.KeepsQueues (allPhones.foldl Node.settlePhone s.node).replyTimeout :=
    (foldl _ settlePhone _ _).trans (Node.replyTimeout_keepsQueues _)
  unfold State.settleTick
  generalize (allPhones.foldl Node.settlePhone s.node).replyTimeout = m at hphones ⊢
  exact hphones.trans (gapEnd { s with node := m })
theorem msTick (s : State) : s.node.KeepsQueues s.msTick.node := by
  unfold State.msTick
  split
  · exact (settleTick s).trans (of_same rfl rfl)
  · exact refl _
theorem settle (s : State) : s.node.KeepsQueues s.settle.node := by
  rw [State.settle_node]
  exact (((settleTick s).trans (msTick _)).trans (settleTick _)).trans (settleNode _)
theorem frameStart (n : Node) (voice : Vector CellVal 8) : n.KeepsQueues (n.frameStart voice) := by
  unfold Node.frameStart
  refine .trans ?_ (foldl _ (fun n p => calls n _) _ _)
  refine .trans ?_ (Node.readTrains_keepsQueues _)
  refine .trans ?_ (lines (Node.beginFrame_lines _ _ _))
  refine .trans ?_ (lines (Node.beginFrame_lines _ _ _))
  refine .trans ?_ (Node.buildTrains_keepsQueues _)
  exact n.applyDue_keepsQueues.trans (of_same rfl rfl)

end Node.KeepsQueues

end Sys2Proof.Machine
end

section
/-! SUPPORT. Every command, row by row: the transmit queues stay in order (R139). -/

namespace Sys2Proof.Machine

namespace Node.KeepsQueues

variable {s t : State}

/-! ## Requests -/

theorem modPhone (n : Node) (p : Fin 8) (f : Phone → Phone) : n.KeepsQueues (n.modPhone p f) := of_same rfl rfl
theorem setCommon (n : Node) (c : Common) : n.KeepsQueues { n with cc := { n.cc with common := c } } := of_same rfl rfl

section owners
variable (k : Link) (b : List Byte) (n : Node)

theorem setLevels : n.KeepsQueues (ownSetLevels k b n).node :=
  checked fun _ => .before (m := n.withMap (classMapOf b)) (ite (Node.pass_keepsQueues _) (refl _)) rfl rfl
theorem defineService : n.KeepsQueues (ownDefineService k b n).node := by
  refine checked fun hchecks => ?_
  have hid : decide (55 < (definitionOf b).id) = false :=
    (firstRefusal_eq_none _).1 hchecks (_, refusal .idReserved) (List.mem_append_right _ (List.mem_of_getElem? (i := 1) rfl))
  dsimp only
  split
  · exact refl n
  · rename_i m hm
    exact Node.define_keepsQueues (Nat.lt_succ_of_le (Nat.not_lt.1 (of_decide_eq_false hid))) hm
theorem releaseService : n.KeepsQueues (ownReleaseService k b n).node := by
  refine checked fun _ => ?_
  dsimp only
  split
  · rename_i v hv; exact Node.release_keepsQueues hv
  · exact refl n
theorem enterEconomy : n.KeepsQueues (ownEconomyEnter k b n).node := by
  refine checked fun _ => ?_
  split
  · exact refl n
  · have hshed := n.economyShed_keepsQueues
    change n.KeepsQueues n.enterEconomy
    unfold Node.enterEconomy
    dsimp only
    split
    · exact hshed
    · exact hshed.trans (Node.pass_keepsQueues _)
theorem leaveEconomy : n.KeepsQueues (ownEconomyLeave k b n).node := by
  have hoff : n.KeepsQueues (n.setEconomy false) := of_same rfl rfl
  have hpass := hoff.trans (Node.pass_keepsQueues _)
  refine checked fun _ => ?_
  split
  · dsimp only
    exact hpass
  · exact refl n
theorem setAllotmentAdd : n.KeepsQueues (ownSetAllotmentAdd k b n).node := by
  have hadd (cells : List Nat) : n.KeepsQueues (n.addCells cells) := of_same rfl rfl
  refine checked fun _ => ?_
  dsimp only
  split
  · exact hadd _
  · exact (hadd _).trans (Node.pass_keepsQueues _)
theorem setAllotmentRemove : n.KeepsQueues (ownSetAllotmentRemove k b n).node := by
  refine checked fun _ => ?_
  split
  · exact refl n
  · exact of_same rfl rfl
theorem startRequest : n.KeepsQueues (ownStart k b n).node := by
  have hlines : n.startValues.Lines ((n.startValues.startLine .u).startLine .d) :=
    (n.startValues.startLine_lines .u).trans (Node.startLine_lines _ .d)
  have hstart : n.KeepsQueues n.start := by
    unfold Node.start
    refine .trans ?_ (Node.pass_keepsQueues _)
    exact (n.startValues_keepsQueues.trans (lines hlines)).trans (of_same rfl rfl)
  refine checked fun _ => ?_
  dsimp only
  exact hstart
theorem phoneSetPort : n.KeepsQueues (ownPhoneSetPort k b n).node := checked fun _ => modPhone n _ fun ph => ph.configure _ _
theorem phoneSetCommon : n.KeepsQueues (ownPhoneSetCommon k b n).node := checked fun _ => setCommon n _
theorem ringTest (drive : Bool) : n.KeepsQueues (ownRingTest drive k b n).node :=
  checked fun _ => modPhone n _ fun ph => { ph with testDrive := drive }
theorem callAnswer : n.KeepsQueues (ownCallAnswer k b n).node := checked fun _ => phoneEvent n _ _ _ _
theorem callHold (value : Bool) : n.KeepsQueues (ownCallHold value k b n).node :=
  checked fun _ => modPhone n _ fun ph => { ph with holdRequested := value }
theorem callClear : n.KeepsQueues (ownCallClear k b n).node := checked fun _ => clearCall n _
theorem callRing : n.KeepsQueues (ownCallRing k b n).node := by
  refine checked fun _ => ?_
  split
  · rename_i m hm
    have hring (p : Fin 8) : m.KeepsQueues (m.ringPhone p) := phoneEvent m p _ _ _
    exact (Node.callPlacement_keepsQueues hm).trans (hring _)
  · exact refl n
theorem marginScan : n.KeepsQueues (ownMarginScan k b n).node := checked fun _ => lines (n.startScan_lines _ _)
theorem pathForceSet : n.KeepsQueues (ownPathForceSet k b n).node := checked fun _ => lines (n.forceOut_lines _)
theorem pathForceClear : n.KeepsQueues (ownPathForceClear k b n).node := checked fun _ => lines (n.forceClear_lines _)
theorem setLink : n.KeepsQueues (ownSetLink k b n).node := by
  refine checked fun _ => ?_
  split <;> exact refl n
theorem setNode : n.KeepsQueues (ownSetNode k b n).node := by
  have hpaths := n.applySettings_paths (c := n.cfg.replaced b)
  exact checked fun _ => of_same (by rw [hpaths.rest]) (by rw [hpaths.rest])
theorem lineSet : n.KeepsQueues (ownLineSet k b n).node :=
  checked fun _ => lines ((n.modLine_lines _ _).trans (Node.enableAsSet_lines (n.modLine _ _) _))
theorem transferOpen : n.KeepsQueues (ownTransferOpen k b n).node := checked fun _ => n.transferOffered_keepsQueues _ _ _ _
theorem transferAbort : n.KeepsQueues (ownTransferAbort k b n).node := checked fun _ => n.hostAbort_keepsQueues _
theorem stationSet : n.KeepsQueues (ownStationSet k b n).node := checked fun _ => n.setStationEntry_keepsQueues _ _ _ _
theorem packetPortSet : n.KeepsQueues (ownPacketPortSet k b n).node :=
  checked fun _ => .before (m := n.modPort (fin4 (f1 b 0)) fun p => p.configure (f1 b 1 == 1) (f2 b 2) (f1 b 4 == 1))
    (Node.readyOn_keepsQueues _ _) rfl rfl
theorem pollSet : n.KeepsQueues (ownPollSet k b n).node :=
  checked fun _ => .before (m := { n with pc := n.pc.configure b (n.op == OpState.running) })
    (ite (Node.catchUp_keepsQueues _) (refl _)) rfl rfl

end owners

/-! ## The kinds of commands -/

/-- An event of the management link, of the blocks, and a request. -/
theorem link {f : State → State} (hf : s.node.KeepsQueues (f s).node) (h : unlessHeld s f = .next t) : s.node.KeepsQueues t.node :=
  unlessHeld_keeps h (refl _) hf
theorem event {f : Node → Node} (hf : ∀ n : Node, n.KeepsQueues (f n)) (h : onNode s f = .next t) : s.node.KeepsQueues t.node :=
  link (f := fun s => { s with node := f s.node }) (hf _) h
theorem owner {mine : Request → Bool} {own : Link → List Byte → Node → Answer}
    (ho : ∀ k b (n : Node), n.KeepsQueues (own k b n).node) (h : handle s mine own = .next t) : s.node.KeepsQueues t.node := by
  refine link ?_ h
  dsimp only
  split
  · split
    · exact ho _ _ _
    · exact refl _
  · exact refl _
/-- A request that only answers leaves the node as it is. -/
theorem answer {mine : Request → Bool} (own : Link → List Byte → Node → Answer) (ho : ∀ k b n, (own k b n).node = n)
    (h : handle s mine own = .next t) : s.node.KeepsQueues t.node :=
  owner (fun k b n => by rw [ho]; exact refl n) h
/-- An event that changes the lines, the calls or the settings alone. -/
theorem linesEvent {f : Node → Node} (hf : ∀ n : Node, n.Lines (f n)) (h : onNode s f = .next t) : s.node.KeepsQueues t.node :=
  event (fun n => lines (hf n)) h
theorem setPins (q : Pins) : s.node.KeepsQueues (s.setPins q).node := of_same rfl rfl
theorem powerValues (low : Bool) : s.node.KeepsQueues (s.powerValues.setReset low).node :=
  (powerOn s.node).trans (of_same rfl rfl)

/-! ## The commands -/

theorem exec (c : Instr) (h : Machine.exec c s = .next t) : s.node.KeepsQueues t.node := by
  cases c with
  | powerOn => cases h; exact powerOn s.node
  | resetInputLow => cases h; exact powerValues true
  | resetInputRise => cases h; exact powerValues false
  | frameStart voice =>
    have hframe : s.node.KeepsQueues (s.settle.node.frameStart voice) := (settle s).trans (frameStart _ voice)
    unfold Machine.exec execFrameStart at h
    refine link ?_ h
    dsimp only
    exact hframe
  | msTick loops => exact (setPins _).trans (link (msTick _) h)
  | stagingApply => exact event Node.stagingApply_keepsQueues h
  | lineHoldEnd l => exact linesEvent (fun n => .ite (n.modSwitch_lines _ _) (.refl n)) h
  | lineFrameReceived l p f d => exact linesEvent (·.lineFrame_lines l p f d) h
  | signalLost l pin => exact (setPins _).trans (linesEvent (·.signalGone_lines l) h)
  | signalReturned l pin => exact (setPins _).trans (event refl h)
  | errorWindowEnd l => exact linesEvent (·.windowEnd_lines l) h
  | presetConfirmTimeout l => exact linesEvent (·.confirmTimeout_lines l) h
  | settleFramesEnd l => exact linesEvent (·.settleEnd_lines l) h
  | marginPositionDone l => exact linesEvent (·.positionDone_lines l) h
  | trainingRetry l => exact linesEvent (·.retryEnd_lines l) h
  | periodicScanDue l => exact linesEvent (·.periodicDue_lines l) h
  | holdOffExpired x => exact linesEvent (·.holdOffEnd_lines x) h
  | wtrExpired x => exact linesEvent (·.wtrEnd_lines x) h
  | timingRevert => exact linesEvent Node.timingRevert_lines h
  | pathLostReroute x => exact event (fun n => auTakes n (.lost x) _ (·.reroute_keepsQueues x)) h
  | pathRestoredRevert x => exact event (fun n => auTakes n (.restored x) _ (·.revert_keepsQueues x)) h
  | callReselect g => exact event (ccTakes · g) h
  | dualReceiveReselect g => exact event (peTakes · g) h
  | loopAcceptedRise p => exact event (fun n => ite (refl n) (acceptEvent n p)) h
  | loopAcceptedFall p => exact event (fun n => ite (acceptEvent n p) (refl n)) h
  | offHookConfirmed p => exact event (fun n => ite (offHook n p) (refl n)) h
  | onHookConfirmed p => exact event (fun n => ite (onHook n p) (refl n)) h
  | cadencePeriodStart p =>
    unfold Machine.exec execCadencePeriodStart at h
    refine event (fun n => ?_) h
    split
    · exact ite (refl n) (of_same rfl rfl)
    · exact refl n
  | cadenceOffPhase p =>
    unfold Machine.exec execCadenceOffPhase at h
    refine event (fun n => ?_) h
    split
    · exact ite (of_same rfl rfl) (refl n)
    · exact refl n
  | heldLimitExpired p => exact event (fun n => ite (timerEvent n p) (refl n)) h
  | ringTimeoutExpired p => exact event (fun n => ite (timerEvent n p) (refl n)) h
  | clearGuardExpired p => exact event (fun n => ite (timerEvent n p) (refl n)) h
  | tributaryFrameReceived k f => exact event (·.tributaryIn_keepsQueues k f) h
  | tributaryFrameSent k => exact event (·.outputEnd_keepsQueues k) h
  | outputFrameBegin k => exact event (·.outputBegin_keepsQueues k) h
  | readyInputChange k level => exact (setPins _).trans (event (·.readyOn_keepsQueues k) h)
  | stateFrameTimer x => exact event (·.stateTimerEnd_keepsQueues x) h
  | countingIntervalEnd => exact event Node.intervalEnd_keepsQueues h
  | pollCycleStart => exact event Node.cycleStart_keepsQueues h
  | stationDue k => exact event (·.stationDue_keepsQueues k) h
  | pollTelegramSent => exact event Node.windowOpens_keepsQueues h
  | pollReplyStart => exact event Node.replyStart_keepsQueues h
  | pollReplyTimeout => exact event Node.replyTimeout_keepsQueues h
  | pollReplyEnd bs => exact event (·.replyEnd_keepsQueues _) h
  | pollReplyGap bs => exact event (·.replyEnd_keepsQueues _) h
  | lateReplyRunEnd =>
    unfold Machine.exec execLateReplyRunEnd at h
    refine event (fun n => ?_) h
    exact ite (of_same rfl rfl) (refl n)
  | requestFrameReceived b => exact link (rxByteIf s _ b) h
  | frameTooLong b => exact link (rxByteIf s _ b) h
  | frameGap => exact link (gapEnd s) h
  | frameByteError => exact link (rxError s) h
  | replySent => exact link (replySent s) h
  | reportSent => exact link (reportSent s) h
  | linkByteReceived b low =>
    unfold Machine.exec execLinkByteReceived at h
    refine link ?_ h
    split
    · exact rxError s
    · exact rxByte s b
  | unknownKindRequest => exact answer ownUnknown (fun _ _ _ => rfl) h
  | identify => exact answer ownIdentify (fun _ _ _ => Node.Kept.checked_node) h
  | setLink => exact owner setLink h
  | start => exact owner startRequest h
  | reset => exact answer ownReset (fun _ _ _ => Node.Kept.checked_node) h
  | nodeStatus => exact answer ownNodeStatus (fun _ _ _ => Node.Kept.checked_node) h
  | setNode => exact owner setNode h
  | lineSet => exact owner lineSet h
  | marginScan => exact owner marginScan h
  | lineStatus => exact answer ownLineStatus (fun _ _ _ => Node.Kept.checked_node) h
  | pathForceSet => exact owner pathForceSet h
  | pathForceClear => exact owner pathForceClear h
  | pathStatus => exact answer ownPathStatus (fun _ _ _ => Node.Kept.checked_node) h
  | setAllotmentAdd => exact owner setAllotmentAdd h
  | setAllotmentRemove => exact owner setAllotmentRemove h
  | mapStatus => exact answer ownMapStatus (fun _ _ _ => Node.Kept.checked_node) h
  | setLevels => exact owner setLevels h
  | defineService => exact owner defineService h
  | releaseService => exact owner releaseService h
  | serviceStatusOne => exact answer ownServiceStatusOne (fun _ _ _ => Node.Kept.checked_node) h
  | serviceStatusSummary => exact answer ownServiceStatusSummary (fun _ _ _ => Node.Kept.checked_node) h
  | shedList => exact answer ownShedList (fun _ _ _ => Node.Kept.checked_node) h
  | economyEnter => exact owner enterEconomy h
  | economyLeave => exact owner leaveEconomy h
  | phoneSetPort => exact owner phoneSetPort h
  | phoneSetCommon => exact owner phoneSetCommon h
  | callControlAnswer => exact owner callAnswer h
  | callControlHold => exact owner (fun k b n => callHold k b n true) h
  | callControlUnhold => exact owner (fun k b n => callHold k b n false) h
  | callControlClear => exact owner callClear h
  | callControlRing => exact owner callRing h
  | callStatus => exact answer ownCallStatus (fun _ _ _ => Node.Kept.checked_node) h
  | ringTestOn => exact owner (fun k b n => ringTest k b n true) h
  | ringTestOff => exact owner (fun k b n => ringTest k b n false) h
  | packetPortSet => exact owner packetPortSet h
  | portStatusPort => exact answer ownPortStatusPort (fun _ _ _ => Node.Kept.checked_node) h
  | portStatusService => exact answer ownPortStatusService (fun _ _ _ => Node.Kept.checked_node) h
  | transferOpen => exact owner transferOpen h
  | transferAbort => exact owner transferAbort h
  | transferStatusOne => exact answer ownTransferStatusOne (fun _ _ _ => Node.Kept.checked_node) h
  | transferStatusAll => exact answer ownTransferStatusAll (fun _ _ _ => Node.Kept.checked_node) h
  | pollSet => exact owner pollSet h
  | stationSet => exact owner stationSet h
  | stationRead => exact answer ownStationRead (fun _ _ _ => Node.Kept.checked_node) h

theorem step (h : Machine.step s = .next t) : s.node.KeepsQueues t.node := by
  unfold Machine.step at h
  split at h
  · cases h; exact refl _
  · rename_i c rest _
    exact exec (s := s.withPending rest) c h

end Node.KeepsQueues

/-- Settles O13: every operation of a command replaces queues by shorter ones, offers a frame to one within its quota and the pool, or
opens an empty one; and no id's binding changes while it has a queue. -/
theorem stepKeepsQueuesInOrder : Obligations.StepKeepsQueuesInOrder := by
  unfold Obligations.StepKeepsQueuesInOrder
  intro s t _ hqueues h
  exact (Node.KeepsQueues.step h).keeps hqueues

end Sys2Proof.Machine
end

section
/-! SUPPORT. Serving the transfers that deliver to a port (R166, R167): what an event at the port leaves of the receive queues and
of the other transfers, and what it does to the one transfer whose target is there. -/

namespace Sys2Proof.Machine

/-! ## The receive queues -/

theorem Node.offerFrame_ports (n : Node) (id : Nat) (data : List Byte) : (n.offerFrame id data).1.pe.ports = n.pe.ports := by
  unfold Node.offerFrame
  split
  · split
    · rfl
    · split <;> rfl
  · rfl
theorem Node.offerState_ports (n : Node) (t : Fin 4) : (n.offerState t).pe.ports = n.pe.ports := by
  unfold Node.offerState
  split
  · rfl
  · split
    · exact n.offerFrame_ports _ _
    · rfl
theorem Node.resumeOne_ports (n : Node) (t : Fin 4) : (n.resumeOne t).pe.ports = n.pe.ports := by
  unfold Node.resumeOne
  split
  · exact Node.offerState_ports _ t
  · rfl
theorem Node.resumeIf_ports (n : Node) (freed : Bool) : (n.resumeIf freed).pe.ports = n.pe.ports := by
  have hfold (l : List (Fin 4)) (m : Node) : (l.foldl Node.resumeOne m).pe.ports = m.pe.ports := by
    induction l generalizing m with
    | nil => rfl
    | cons t l ih => exact (ih _).trans (m.resumeOne_ports t)
  cases freed
  · rfl
  · exact hfold _ n
theorem Node.closeTransfer_ports (n : Node) (t : Fin 4) : (n.closeTransfer t).pe.ports = n.pe.ports := by
  unfold Node.closeTransfer
  split
  · rfl
  · exact Node.offerState_ports _ t

/-- Serving transfer `t`: frames only join receive queues, and the other transfers stay as they are. -/
structure Node.Serves (t : Fin 4) (n m : Node) : Prop where
  grows : ∀ k, (n.port k).recv <+: (m.port k).recv
  others : ∀ u, u ≠ t → m.xfer u = n.xfer u

namespace Node.Serves
variable {t : Fin 4} {n m l : Node}

theorem refl (t : Fin 4) (n : Node) : n.Serves t n := ⟨fun _ => List.prefix_rfl, fun _ _ => rfl⟩
theorem trans (h : n.Serves t m) (k : m.Serves t l) : n.Serves t l :=
  ⟨fun p => (h.grows p).trans (k.grows p), fun u hu => (k.others u hu).trans (h.others u hu)⟩
theorem of_ports (hports : m.pe.ports = n.pe.ports) (others : ∀ u, u ≠ t → m.xfer u = n.xfer u) : n.Serves t m :=
  ⟨fun k => by rw [Node.port, Node.port, hports], others⟩
theorem setXfer (n : Node) (t : Fin 4) (r : Option Transfer) : n.Serves t (n.setXfer t r) :=
  of_ports rfl fun _ hu => n.xfer_setXfer_ne (Ne.symm hu) r
theorem transferTo (n : Node) (t : Fin 4) (old : Option TransferState) (r : Transfer) (c : TransferCause) :
    n.Serves t (n.transferTo t old r c) := of_ports rfl fun _ hu => n.xfer_setXfer_ne (Ne.symm hu) (some r)
theorem offerState (n : Node) (t : Fin 4) : n.Serves t (n.offerState t) :=
  of_ports (n.offerState_ports t) fun _ hu => n.offerState_xfer_ne (Ne.symm hu)
theorem offerIf (n : Node) (t : Fin 4) (want : Bool) : n.Serves t (n.offerIf t want) := by
  cases want
  · exact refl t n
  · exact offerState n t
theorem closeTransfer (n : Node) (t : Fin 4) : n.Serves t (n.closeTransfer t) := by
  refine of_ports (n.closeTransfer_ports t) fun u hu => ?_
  unfold Node.closeTransfer
  split
  · rfl
  · rw [Node.closeRecord, Node.xfer_report, Node.xfer_setXfer_ne _ (Ne.symm hu), Node.offerState_xfer_ne _ (Ne.symm hu),
      Node.xfer_setXfer_ne _ (Ne.symm hu)]

end Node.Serves

theorem Node.port_setPort_ne (n : Node) {k j : Fin 4} (h : k ≠ j) (p : PacketPort) : (n.setPort k p).port j = n.port j := by
  simp [Node.port, Vector.getElem_set_ne, Fin.val_ne_of_ne h]

/-- The next chunk of a transfer, as its target takes it (R166). -/
def Node.chunkOf (n : Node) (r : Transfer) (channel : Nat) : ChannelFrame :=
  { channel := channel, data := readPage n.te.store r.blocks r.offset (min r.chunk (r.declared - r.offset)) }

theorem Node.handChunk_port (n : Node) (t : Fin 4) (r : Transfer) (k : Fin 4) (channel : Nat) :
    (n.handChunk t r k channel).port k = (n.port k).join (n.chunkOf r channel) := n.port_setPort k _
theorem Node.handChunk_serves (n : Node) (t : Fin 4) (r : Transfer) (k : Fin 4) (channel : Nat) :
    n.Serves t (n.handChunk t r k channel) := by
  refine ⟨fun j => ?_, fun u hu => Node.xfer_setXfer_ne _ (Ne.symm hu) _⟩
  by_cases h : k = j
  · subst h
    rw [n.handChunk_port]
    exact List.prefix_append _ _
  · exact (congrArg PacketPort.recv (n.port_setPort_ne h _)).symm ▸ List.prefix_rfl
theorem deliverLoop_serves (fuel : Nat) (n : Node) (t : Fin 4) (want : Bool) : n.Serves t (deliverLoop fuel n t want) := by
  induction fuel generalizing n with
  | zero => exact .offerIf n t want
  | succ fuel ih =>
    unfold deliverLoop
    split
    · exact .refl t n
    · rename_i r _
      split
      · exact .offerIf n t want
      · split
        · exact .closeTransfer n t
        · rename_i k channel _
          split
          · split
            · exact (Node.Serves.setXfer n t _).trans (ih _)
            · exact .closeTransfer n t
          · split
            · exact (Node.Serves.transferTo n t _ _ _).trans (.offerState _ t)
            · split
              · exact (n.handChunk_serves t r k channel).trans (ih _)
              · exact .offerIf n t want
theorem Node.deliver_serves (n : Node) (t : Fin 4) (want : Bool) : n.Serves t (n.deliver t want) := deliverLoop_serves _ n t want

/-! ## The transfers taken in order -/

section alone
variable {f : Node → Fin 4 → Node} {n : Node} {t : Fin 4}

theorem foldl_unserved {α : Type} {f : Node → α → Node} {n : Node} (h : ∀ u, f n u = n) (l : List α) : l.foldl f n = n := by
  induction l with
  | nil => rfl
  | cons u l ih => rw [List.foldl_cons, h u, ih]
/-- When every other transfer is passed over, the transfers are served by serving one. -/
theorem foldl_serves_one (hidle : ∀ u, u ≠ t → ∀ m : Node, m.xfer u = n.xfer u → f m u = m)
    (ht : ∀ u, u ≠ t → (f n t).xfer u = n.xfer u) : allFour.foldl f n = f n t := by
  have hafter (l : List (Fin 4)) (hl : t ∉ l) : l.foldl f (f n t) = f n t := by
    induction l with
    | nil => rfl
    | cons u l ih =>
      obtain ⟨hne, hl⟩ := List.ne_and_not_mem_of_not_mem_cons hl
      rw [List.foldl_cons, hidle u (Ne.symm hne) _ (ht u (Ne.symm hne)), ih hl]
  have hserved (l : List (Fin 4)) (hl : l.Nodup) (hin : t ∈ l) : l.foldl f n = f n t := by
    induction l with
    | nil => exact absurd hin List.not_mem_nil
    | cons u l ih =>
      obtain ⟨hu, hl⟩ := List.nodup_cons.1 hl
      rw [List.foldl_cons]
      rcases List.mem_cons.1 hin with rfl | hin
      · exact hafter l hu
      · rw [hidle u (fun h => hu (h ▸ hin)) n rfl, ih hl hin]
  exact hserved allFour (allFour_ascending.imp ne_of_lt) (mem_allFour t)

end alone

/-! ## The transfer whose target is the port -/

theorem Node.portReady_iff (n : Node) (k : Fin 4) : n.portReady k = true ↔ TakesChunks n k := by
  simp [Node.portReady, Node.portOperating, Node.readyLevel, TakesChunks, and_assoc]
theorem Node.portReady_congr {n m : Node} {k : Fin 4} (hport : m.port k = n.port k) (hop : m.op = n.op) (hpins : m.pins = n.pins) :
    m.portReady k = n.portReady k := by
  simp [Node.portReady, Node.portOperating, Node.readyLevel, hport, hop, hpins]

/-- The next chunk of a transfer fits in its port's receive queue (R150). -/
abbrev Node.chunkFits (n : Node) (k : Fin 4) (r : Transfer) : Prop :=
  ((n.port k).recv.map (·.data.length)).sum + min r.chunk (r.declared - r.offset) ≤ 8192

section deliver
variable {n : Node} {k t : Fin 4} {r : Transfer} {channel : Nat} (hr : n.xfer t = some r) (hstate : r.state = .delivering)
  (htarget : r.targets[r.target]? = some (k, channel)) (hready : n.portReady k = true)
  (hsize : 0 < min r.chunk (r.declared - r.offset)) (want : Bool)
include hr hstate htarget hready hsize

theorem Node.deliver_eq : n.deliver t want =
    if (n.port k).admits (min r.chunk (r.declared - r.offset)) then
      deliverLoop (4 * 8192 + 7) (n.handChunk t r k channel) t want
    else n.offerIf t want := by
  have hbegun : ¬ r.declared ≤ r.offset := by omega
  rw [Node.deliver, show deliveryRounds = (4 * 8192 + 7) + 1 from rfl, deliverLoop, hr]
  simp only [hstate, htarget, hbegun, hready, ne_eq, not_true_eq_false, if_false, Bool.not_true, Bool.false_eq_true]
theorem Node.deliver_full (hfull : ¬ n.chunkFits k r) : n.deliver t want = n.offerIf t want := by
  rw [Node.deliver_eq hr hstate htarget hready hsize, if_neg]
  exact fun h => hfull (of_decide_eq_true h)
theorem Node.deliver_hands (hroom : n.chunkFits k r) :
    (n.port k).recv ++ [n.chunkOf r channel] <+: ((n.deliver t want).port k).recv := by
  have hadmits : (n.port k).admits (min r.chunk (r.declared - r.offset)) = true := decide_eq_true hroom
  rw [Node.deliver_eq hr hstate htarget hready hsize, if_pos hadmits]
  have hgrows := (deliverLoop_serves (4 * 8192 + 7) (n.handChunk t r k channel) t want).grows k
  rwa [n.handChunk_port] at hgrows

end deliver

/-! ## A frame has left the queue (R167) -/

theorem Node.roomOne_idle {n : Node} {k u : Fin 4}
    (h : ∀ y, n.xfer u = some y → y.state = .delivering → y.currentPort ≠ some k) : n.roomOne k u = n := by
  unfold Node.roomOne
  split
  · rename_i y hy
    rw [if_neg]
    simpa using h y hy
  · rfl
theorem Node.roomOn_idle {n : Node} {k : Fin 4}
    (h : ∀ u y, n.xfer u = some y → y.state = .delivering → y.currentPort ≠ some k) : n.roomOn k = n := by
  unfold Node.roomOn
  rw [foldl_unserved fun u => Node.roomOne_idle (h u)]
  simp
theorem Node.roomOn_alone {n : Node} {k t : Fin 4} {x : Transfer} {channel : Nat} (h : AloneAt n k t x channel)
    (hstate : x.state = .delivering) :
    n.roomOn k = (n.deliver t false).resumeIf (n.closedBy (n.deliver t false)) := by
  obtain ⟨hx, htarget, hothers⟩ := h
  have hone : n.roomOne k t = n.deliver t false := by simp [Node.roomOne, hx, hstate, Transfer.currentPort, htarget]
  unfold Node.roomOn
  rw [foldl_serves_one (t := t) (fun u hu m hm => Node.roomOne_idle fun y hy _ => hothers u y hu (hm ▸ hy))
    fun u hu => hone ▸ (n.deliver_serves t false).others u hu, hone]

section room
variable {n : Node} {k t : Fin 4} {x : Transfer} {channel : Nat} (halone : AloneAt n k t x channel)
  (hstate : x.state = .delivering) (hready : TakesChunks n k) (hsize : 0 < min x.chunk (x.declared - x.offset))
include halone hstate hready hsize

theorem Node.roomOn_full (hfull : ¬ n.chunkFits k x) : n.roomOn k = n := by
  rw [Node.roomOn_alone halone hstate,
    Node.deliver_full halone.1 hstate halone.2.1 ((n.portReady_iff k).2 hready) hsize false hfull]
  simp [Node.offerIf]
theorem Node.roomOn_hands (hroom : n.chunkFits k x) :
    (n.port k).recv ++ [n.chunkOf x channel] <+: ((n.roomOn k).port k).recv := by
  rw [Node.roomOn_alone halone hstate, Node.port, Node.port, Node.resumeIf_ports]
  exact Node.deliver_hands halone.1 hstate halone.2.1 ((n.portReady_iff k).2 hready) hsize false hroom

end room

/-! ## The port's readiness (R166) -/

theorem Node.readyOne_elsewhere {n : Node} {k u : Fin 4} (h : ∀ y, n.xfer u = some y → y.currentPort ≠ some k) :
    n.readyOne k u = n := by
  unfold Node.readyOne
  split
  · rename_i y hy
    rw [if_neg]
    simpa using h y hy
  · rfl
theorem Node.readyOn_idle {n : Node} {k : Fin 4} (h : ∀ u y, n.xfer u = some y → y.currentPort ≠ some k) : n.readyOn k = n := by
  unfold Node.readyOn
  rw [foldl_unserved fun u => Node.readyOne_elsewhere (h u)]
  simp
theorem Node.readyOne_serves (n : Node) (k t : Fin 4) : n.Serves t (n.readyOne k t) := by
  unfold Node.readyOne
  split
  · split
    · split
      · exact (Node.Serves.transferTo n t _ _ _).trans (.offerState _ t)
      · split
        · exact (Node.Serves.transferTo n t _ _ _).trans (Node.deliver_serves _ t true)
        · exact .refl t n
    · exact .refl t n
  · exact .refl t n
/-- An event that serves one transfer and leaves it open frees no blocks. -/
theorem Node.Serves.closedBy {t : Fin 4} {n m : Node} (h : n.Serves t m) (hopen : (m.xfer t).isSome = true) :
    n.closedBy m = false := by
  refine n.closedBy_eq_false m fun u hu => ?_
  by_cases hut : u = t
  · exact hut ▸ hopen
  · rwa [h.others u hut]

section ready
variable {n : Node} {k t : Fin 4} {x : Transfer} {channel : Nat} (halone : AloneAt n k t x channel)
include halone

theorem Node.readyOn_alone : n.readyOn k = (n.readyOne k t).resumeIf (n.closedBy (n.readyOne k t)) := by
  obtain ⟨-, -, hothers⟩ := halone
  unfold Node.readyOn
  rw [foldl_serves_one (t := t) (fun u hu m hm => Node.readyOne_elsewhere fun y hy => hothers u y hu (hm ▸ hy))
    (n.readyOne_serves k t).others]
theorem Node.readyOne_eq : n.readyOne k t =
    if x.state = .delivering ∧ ¬ TakesChunks n k then (n.waitTarget t x).offerState t
    else if x.state = .deliveryWait ∧ TakesChunks n k then
      (n.transferTo t (some x.state) { x with state := .delivering } .targetReady).deliver t true
    else n := by
  obtain ⟨hx, htarget, -⟩ := halone
  have hport : (x.currentPort == some k) = true := by simp [Transfer.currentPort, htarget]
  unfold Node.readyOne
  rw [hx]
  simp only [hport, if_true, ← n.portReady_iff, Bool.and_eq_true, decide_eq_true_eq, Bool.not_eq_true, Bool.not_eq_true']
/-- A transfer that is left open where it stood, having offered a state frame. -/
theorem Node.readyOn_offered {old : Option TransferState} {st : TransferState} {c : TransferCause}
    (h : n.readyOne k t = (n.transferTo t old { x with state := st } c).offerState t) :
    (n.readyOn k).pe.ports = n.pe.ports ∧ ∃ y, (n.readyOn k).xfer t = some y ∧ y.state = st ∧ y.target = x.target ∧
      y.offset = x.offset ∧ y.blocks = x.blocks ∧ y.received = x.received := by
  have hto : (n.transferTo t old { x with state := st } c).xfer t = some { x with state := st } := n.xfer_setXfer t _
  obtain ⟨reported, timer, counts, hy⟩ := Node.offerState_xfer hto
  have hclosed : n.closedBy (n.readyOne k t) = false := (n.readyOne_serves k t).closedBy (by rw [h, hy]; rfl)
  rw [Node.readyOn_alone halone, hclosed, Node.resumeIf_false, h]
  exact ⟨Node.offerState_ports _ t, _, hy, rfl, rfl, rfl, rfl, rfl⟩

/-- A port's readiness, taken by the one transfer that has its target there. -/
theorem Node.readyOn_acts : PortActsOn n (n.readyOn k) k t x channel := by
  have heq := Node.readyOne_eq halone
  obtain ⟨hx, htarget, -⟩ := id halone
  have hto : (n.transferTo t (some x.state) { x with state := .delivering } .targetReady).xfer t =
    some { x with state := .delivering } := n.xfer_setXfer t _
  have hready (h : TakesChunks n k) :
      (n.transferTo t (some x.state) { x with state := .delivering } .targetReady).portReady k = true :=
    (Node.portReady_congr rfl rfl rfl).trans ((n.portReady_iff k).2 h)
  refine ⟨fun hstate hnot => ?_, fun hstate htakes hsize hfull => ?_, fun hstate htakes hsize hroom => ?_, fun hother => ?_⟩
  · rw [if_pos ⟨hstate, hnot⟩] at heq
    exact Node.readyOn_offered halone heq
  · rw [if_neg (by simp [hstate]), if_pos ⟨hstate, htakes⟩,
      Node.deliver_full hto rfl htarget (hready htakes) hsize true hfull] at heq
    exact Node.readyOn_offered halone heq
  · rw [if_neg (by simp [hstate]), if_pos ⟨hstate, htakes⟩] at heq
    rw [Node.readyOn_alone halone, Node.port, Node.port, Node.resumeIf_ports, heq]
    exact Node.deliver_hands hto rfl htarget (hready htakes) hsize true hroom
  · rw [if_neg, if_neg] at heq
    · rw [Node.readyOn_alone halone, heq]
      simp
    · rintro ⟨hwait, htakes⟩
      rcases hother with ⟨hdel, -⟩ | ⟨-, hnot⟩ | ⟨-, hnot⟩
      · exact absurd (hwait.symm.trans hdel) (by decide)
      · exact hnot htakes
      · exact hnot hwait
    · rintro ⟨hdel, hnottakes⟩
      rcases hother with ⟨-, htakes⟩ | ⟨hwait, -⟩ | ⟨hnot, -⟩
      · exact hnottakes htakes
      · exact absurd (hwait.symm.trans hdel) (by decide)
      · exact hnot hdel

end ready

end Sys2Proof.Machine
end

section
/-! SUPPORT. Numbers and checks read back from the bytes that carry them (R143, R200), and a tributary frame from its bytes (R137,
R203). -/

namespace Sys2Proof.Machine

@[simp] theorem length_be1 (n : Nat) : (be1 n).length = 1 := rfl
@[simp] theorem length_be2 (n : Nat) : (be2 n).length = 2 := rfl
theorem natOf_be2 {n : Nat} (h : n < 65536) : natOf (be2 n) = n := by
  simp [natOf, be2]
  omega
theorem natOf_be1 {n : Nat} (h : n < 256) : natOf (be1 n) = n := by
  simp [natOf, be1, Nat.mod_eq_of_lt h]
/-- The number between other bytes. -/
theorem numAt_between (a b c : List Byte) : numAt (a ++ (b ++ c)) a.length b.length = natOf b := by
  simp [numAt]
/-- A check that follows what it covers is read back as it was reckoned. -/
theorem check16_readBack (c : List Byte) :
    check16 ((c ++ be2 (check16 c).toNat).take c.length) = BitVec.ofNat 16 (numAt (c ++ be2 (check16 c).toNat) c.length 2) := by
  have hnum := numAt_between c (be2 (check16 c).toNat) []
  rw [List.append_nil, length_be2, natOf_be2 (check16 c).isLt] at hnum
  rw [hnum, List.take_left, BitVec.ofNat_toNat, BitVec.setWidth_eq]

theorem readTributary_bytes {channel : Nat} {data : List Byte} (hchannel : channel ≤ 7) (hlow : 1 ≤ data.length)
    (hhigh : data.length ≤ 1536) :
    readTributary ({ channel := channel, data := data } : ChannelFrame).bytes = some { channel := channel, data := data } := by
  let head := be1 channel ++ be2 data.length ++ data
  have hbytes : ({ channel := channel, data := data } : ChannelFrame).bytes = head ++ be2 (check16 head).toNat := rfl
  have hheadlen : head.length = 3 + data.length := by
    simp [head]
    omega
  have hcheck := check16_readBack head
  have hlen : numAt (head ++ be2 (check16 head).toNat) 1 2 = data.length := by
    have hnum := numAt_between (be1 channel) (be2 data.length) (data ++ be2 (check16 head).toNat)
    rw [natOf_be2 (by omega)] at hnum
    simpa [head] using hnum
  have hch : f1 (head ++ be2 (check16 head).toNat) 0 = channel := by
    have hnum := numAt_between [] (be1 channel) (be2 data.length ++ data ++ be2 (check16 head).toNat)
    rw [natOf_be1 (by omega)] at hnum
    simpa [head, f1] using hnum
  have hdata : ((head ++ be2 (check16 head).toNat).drop 3).take data.length = data := by
    have hdrop : (head ++ be2 (check16 head).toNat).drop 3 = data ++ be2 (check16 head).toNat := rfl
    rw [hdrop, List.take_left]
  rw [hheadlen] at hcheck
  rw [hbytes]
  unfold readTributary
  dsimp only
  rw [hlen, hch, hdata, if_pos]
  refine ⟨?_, hlow, hhigh, hchannel, hcheck⟩
  rw [List.length_append, hheadlen, length_be2]
  omega

end Sys2Proof.Machine
end

section
/-! PROOF. Tributary frames: into the transmit queues, out of the receive queues (R136, R137, R139, R150, R151, R167). -/

namespace Sys2Proof.Machine

variable {n : Node} {k : Fin 4}

/-! ## Input (R137, R139) -/

theorem Node.portOperating_iff : n.portOperating k = true ↔ (n.port k).enabled = true ∧ n.op = .running := by
  simp [Node.portOperating]
theorem Node.tributaryIn_ignored {f : TributaryInput} (h : n.portOperating k = true → f.whole = false) : n.tributaryIn k f = n := by
  unfold Node.tributaryIn
  rw [if_neg]
  simpa using h
section arrives
variable (hop : n.portOperating k = true) {bs : List Byte}
include hop

theorem Node.tributaryIn_wrong (h : readTributary bs = none) : n.tributaryIn k { bytes := bs, whole := true } =
    n.modPort k fun p => p.count fun c => { c with inputErrors := sat32 c.inputErrors } := by
  simp [Node.tributaryIn, hop, h]
theorem Node.tributaryIn_unbound {t : Tributary} (h : readTributary bs = some t) (hb : n.boundTo (8 * k.val + t.channel) = none) :
    n.tributaryIn k { bytes := bs, whole := true } =
      n.modPort k fun p => p.count fun c => { c with unbound := sat32 c.unbound } := by
  simp [Node.tributaryIn, hop, h, hb]
theorem Node.tributaryIn_bound {t : Tributary} {id : Nat} (h : readTributary bs = some t)
    (hb : n.boundTo (8 * k.val + t.channel) = some id) :
    n.tributaryIn k { bytes := bs, whole := true } = (n.offerFrame id t.data).1 := by
  simp [Node.tributaryIn, hop, h, hb]

end arrives

section offer
variable {id : Nat} {data : List Byte} {v : PeService} {sv : Service} (hv : n.peOf id = some v) (hsv : n.svc id = some sv)
include hv hsv

theorem Node.offerFrame_eq : n.offerFrame id data =
    if sv.binding.quota * 1024 < v.queuedBytes + data.length then
      (n.setPe { v with counts := { v.counts with quotaDrops := sat32 v.counts.quotaDrops } }, false)
    else if n.pe.poolFree < frameBuffers data.length then
      (n.setPe { v with counts := { v.counts with poolDrops := sat32 v.counts.poolDrops } }, false)
    else (n.setPe { v with queue := v.queue ++ [{ data := data, stamp := n.runTime }] }, true) := by
  rw [Node.offerFrame, hv, hsv]
theorem Node.offerFrame_overQuota (h : sv.binding.quota * 1024 < v.queuedBytes + data.length) :
    (n.offerFrame id data).1 = n.setPe { v with counts := { v.counts with quotaDrops := sat32 v.counts.quotaDrops } } := by
  rw [Node.offerFrame_eq hv hsv, if_pos h]
theorem Node.offerFrame_poolFull (hq : v.queuedBytes + data.length ≤ sv.binding.quota * 1024)
    (h : n.pe.poolFree < frameBuffers data.length) :
    (n.offerFrame id data).1 = n.setPe { v with counts := { v.counts with poolDrops := sat32 v.counts.poolDrops } } := by
  rw [Node.offerFrame_eq hv hsv, if_neg (Nat.not_lt.2 hq), if_pos h]
theorem Node.offerFrame_joins (hq : v.queuedBytes + data.length ≤ sv.binding.quota * 1024)
    (h : frameBuffers data.length ≤ n.pe.poolFree) :
    (n.offerFrame id data).1 = n.setPe { v with queue := v.queue ++ [{ data := data, stamp := n.runTime }] } := by
  rw [Node.offerFrame_eq hv hsv, if_neg (Nat.not_lt.2 hq), if_neg (Nat.not_lt.2 h)]

end offer

/-! ## Output (R151, R167) -/

theorem Node.setPort_self (n : Node) (k : Fin 4) : n.setPort k (n.port k) = n := by
  simp [Node.setPort, Node.port]
theorem Node.outputBegin_off (h : n.portOperating k = false) : n.outputBegin k = n := by
  simp [Node.outputBegin, h]
theorem Node.outputBegin_begins (hop : n.portOperating k = true) {f : ChannelFrame} {rest : List ChannelFrame}
    (hrecv : (n.port k).recv = f :: rest) (hidle : (n.port k).sending = none) :
    n.outputBegin k = n.setPort k { n.port k with sending := some ((n.port k).rate, f) } := by
  simp [Node.outputBegin, hop, Node.modPort, PacketPort.begin, hrecv, hidle]
theorem Node.outputBegin_nothing (h : (n.port k).recv = [] ∨ (n.port k).sending.isSome = true) : n.outputBegin k = n := by
  have hbegin : (n.port k).begin = n.port k := by
    unfold PacketPort.begin
    split
    · rename_i hidle hrecv
      simp [hidle, hrecv] at h
    · rfl
  rw [Node.outputBegin, Node.modPort, hbegin, n.setPort_self, ite_self]

/-- The port after the frame that it sends has ended. -/
def PacketPort.sent (p : PacketPort) : PacketPort :=
  { p with recv := p.recv.tail, sending := none, counts := { p.counts with output := min 4294967295 (p.counts.output + 1) } }
theorem Node.outputEnd_sent (h : (n.port k).sending.isSome = true) :
    n.outputEnd k = (n.setPort k (n.port k).sent).roomOn k := by
  simp only [Node.outputEnd, h, if_true]
  rfl
theorem Node.outputEnd_idle (h : (n.port k).sending = none) : n.outputEnd k = n := by
  simp [Node.outputEnd, h]

section sent
variable {f : ChannelFrame} {rest : List ChannelFrame} (hsending : (n.port k).sending.isSome = true)
  (hrecv : (n.port k).recv = f :: rest) {t : Fin 4} {x : Transfer} {channel : Nat} (htakes : TakesChunks n k)
  (halone : AloneAt n k t x channel) (hstate : x.state = .delivering) (hsize : 0 < min x.chunk (x.declared - x.offset))
include hsending hrecv htakes halone hstate hsize

theorem Node.outputEnd_full (hfull : 8192 < (rest.map (·.data.length)).sum + min x.chunk (x.declared - x.offset)) :
    n.outputEnd k = n.setPort k (n.port k).sent := by
  rw [Node.outputEnd_sent hsending]
  refine Node.roomOn_full (x := x) halone hstate (by simpa [TakesChunks, PacketPort.sent] using htakes) hsize ?_
  simpa [Node.chunkFits, PacketPort.sent, hrecv] using hfull
theorem Node.outputEnd_hands (hroom : (rest.map (·.data.length)).sum + min x.chunk (x.declared - x.offset) ≤ 8192) :
    rest ++ [n.chunkOf x channel] <+: ((n.outputEnd k).port k).recv := by
  have hsent : ((n.setPort k (n.port k).sent).port k).recv = rest := by simp [PacketPort.sent, hrecv]
  rw [Node.outputEnd_sent hsending]
  have hhands := Node.roomOn_hands (n := n.setPort k (n.port k).sent) (x := x) halone hstate
    (by simpa [TakesChunks, PacketPort.sent] using htakes) hsize (by simpa only [Node.chunkFits, hsent] using hroom)
  rwa [hsent] at hhands

end sent

/-- Settles O54: each command acts by the case of its port, its frame and the service bound there; what the end of an output leaves
is what the one transfer at the port makes of the room. -/
theorem tributaryFramesEnterAndLeave : Obligations.TributaryFramesEnterAndLeave := by
  intro s k bs hawake n p operating arrives
  have harrives (f : TributaryInput) : exec (.tributaryFrameReceived k f) s = .next (s.became (n.tributaryIn k f)) :=
    onNode_awake s _ hawake
  have hbegins : exec (.outputFrameBegin k) s = .next (s.became (n.outputBegin k)) := onNode_awake s _ hawake
  have hends : exec (.tributaryFrameSent k) s = .next (s.became (n.outputEnd k)) := onNode_awake s _ hawake
  refine ⟨?_, fun hnot => ⟨?_, ?_⟩, fun hop => ⟨fun hwrong => ?_, fun channel data hchannel hlow hhigh hbs => ?_,
    fun f rest hrecv hidle => ?_, fun hnothing => ?_⟩, fun hsending hnone => ?_,
    ?_, fun hidle => ?_⟩
  · rw [harrives, Node.tributaryIn_ignored fun _ => rfl]
  · rw [harrives, Node.tributaryIn_ignored fun h => absurd (Node.portOperating_iff.1 h) hnot]
  · rw [hbegins, Node.outputBegin_off (Bool.eq_false_iff.2 fun h => hnot (Node.portOperating_iff.1 h))]
  · rw [harrives, Node.tributaryIn_wrong (Node.portOperating_iff.2 hop) hwrong]
    rfl
  · have hread := readTributary_bytes hchannel hlow hhigh
    rw [← hbs] at hread
    refine ⟨fun hunbound => ?_, fun id v sv hbound hv hsv => ?_⟩
    · rw [harrives, Node.tributaryIn_unbound (Node.portOperating_iff.2 hop) hread hunbound]
      rfl
    · rw [harrives, Node.tributaryIn_bound (Node.portOperating_iff.2 hop) hread hbound]
      refine ⟨fun h => ?_, fun hq h => ?_, fun hq h => ?_⟩
      · rw [Node.offerFrame_overQuota hv hsv h]
        rfl
      · rw [Node.offerFrame_poolFull hv hsv hq h]
        rfl
      · rw [Node.offerFrame_joins hv hsv hq h]
  · rw [hbegins, Node.outputBegin_begins (Node.portOperating_iff.2 hop) hrecv hidle]
  · rw [hbegins, Node.outputBegin_nothing hnothing]
  · rw [hends, Node.outputEnd_sent hsending, Node.roomOn_idle (n := n.setPort k (n.port k).sent) hnone]
    rfl
  · intro f rest t x channel hsending hrecv htakes halone hstate size held left hsize
    refine ⟨fun hfull => ?_, fun hroom => ⟨_, hends, Node.outputEnd_hands hsending hrecv htakes halone hstate hsize hroom⟩⟩
    have hleft : left = n.setPort k (n.port k).sent := by simp only [left, PacketPort.sent, p, hrecv, List.tail_cons]
    rw [hends, Node.outputEnd_full hsending hrecv htakes halone hstate hsize hfull, hleft]
  · rw [hends, Node.outputEnd_idle hidle]

end Sys2Proof.Machine
end

section
/-! PROOF. PACKET_PORT_SET (R136, R166) and the closing of counting intervals (R152). -/

namespace Sys2Proof.Machine

/-! ## PACKET_PORT_SET -/

theorem boolOf_eq_some {x : Nat} {on : Bool} (h : boolOf x = some on) : x = on.toNat := by
  match x, h with
  | 0, h => cases h; rfl
  | 1, h => cases h; rfl
theorem fin4_val (k : Fin 4) : fin4 k.val = k := Fin.ofNat_val_eq_self k

/-- The fields of a PACKET_PORT_SET in their ranges (R136). -/
structure PacketPortSetInRange (b : List Byte) (k : Fin 4) (on used : Bool) : Prop where
  length : b.length = 5
  port : f1 b 0 = k.val
  enabled : boolOf (f1 b 1) = some on
  rate : 100 ≤ f2 b 2 ∧ f2 b 2 ≤ 10000 ∧ f2 b 2 % 100 = 0
  ready : boolOf (f1 b 4) = some used

section portSet
variable {b : List Byte} {k : Fin 4} {on used : Bool} (h : PacketPortSetInRange b k on used) (l : Link) (n : Node)
include h

/-- Of a request in its ranges the last check alone can refuse. -/
theorem ownPacketPortSet_eq : ownPacketPortSet l b n = checked n [(!on && n.portBound k.val, refusal .portInUse)]
    { node := (n.setPort k ((n.port k).configure on (f2 b 2) used)).readyOn k, reply := okReply [] } := by
  have hk : f1 b 0 ≤ 3 := h.port ▸ Nat.le_of_lt_succ k.isLt
  have hon : f1 b 1 = on.toNat := boolOf_eq_some h.enabled
  have hused : f1 b 4 = used.toNat := boolOf_eq_some h.ready
  obtain ⟨hlow, hhigh, hstep⟩ := h.rate
  have hpass : ∀ c ∈ commonChecks n false b 5 ++ [(decide (3 < f1 b 0), badField 0), (bad (boolOf (f1 b 1)), badField 1),
      (outside (f2 b 2) 100 10000 || f2 b 2 % 100 != 0, badField 2), (bad (boolOf (f1 b 4)), badField 3)], c.1 = false := by
    simp [commonChecks, h.length, hk, bad, h.enabled, h.ready, outside_eq_false hlow hhigh, hstep]
  have honBit : (f1 b 1 == 1) = on := by rw [hon]; cases on <;> rfl
  have hoffBit : (f1 b 1 == 0) = !on := by rw [hon]; cases on <;> rfl
  have husedBit : (f1 b 4 == 1) = used := by rw [hused]; cases used <;> rfl
  have hsplit := checked_after (n := n) (rest := [(!on && n.portBound k.val, refusal .portInUse)])
    (accept := { node := (n.setPort k ((n.port k).configure on (f2 b 2) used)).readyOn k, reply := okReply [] }) hpass
  rw [← hsplit, List.append_assoc, ownPacketPortSet, honBit, hoffBit, husedBit, h.port, fin4_val]
  rfl
theorem ownPacketPortSet_bound (hon : on = false) (hb : n.portBound k.val = true) :
    ownPacketPortSet l b n = { node := n, reply := refusal .portInUse } :=
  (ownPacketPortSet_eq h l n).trans (checked_one_failed (by simp [hon, hb]))
theorem ownPacketPortSet_ok (hok : on = true ∨ n.portBound k.val = false) : ownPacketPortSet l b n =
    { node := (n.setPort k ((n.port k).configure on (f2 b 2) used)).readyOn k, reply := okReply [] } :=
  (ownPacketPortSet_eq h l n).trans (checked_one_passed (by rcases hok with hon | hb <;> simp [*]))

end portSet

/-! ## Counting intervals -/

theorem PacketPort.advanced_iff (p : PacketPort) : advanced p.delta portErrors = true ↔
    p.mark.inputErrors < p.counts.inputErrors ∨ p.mark.unbound < p.counts.unbound ∨ p.mark.discards < p.counts.discards := by
  simp [advanced, PacketPort.delta, increases, PortCounts.list, portErrors, Nat.sub_eq_zero_iff_le]
theorem PeService.advanced_iff (v : PeService) : advanced v.delta svcErrors = true ↔
    v.mark.quotaDrops < v.counts.quotaDrops ∨ v.mark.poolDrops < v.counts.poolDrops ∨
      v.mark.ageDiscards < v.counts.ageDiscards ∨ v.mark.abandoned < v.counts.abandoned ∨
      v.mark.misrouted < v.counts.misrouted ∨ v.mark.syncLosses < v.counts.syncLosses ∨
      v.mark.checkFailures < v.counts.checkFailures ∨ v.mark.unexpected < v.counts.unexpected := by
  simp [advanced, PeService.delta, increases, SvcCounts.list, svcErrors, Nat.sub_eq_zero_iff_le]

/-- An error-type count of a port or of a service has advanced in the interval. -/
def Node.errorsAdvanced (n : Node) : Bool :=
  allFour.any (fun k => advanced (n.port k).delta portErrors) || n.pe.svcs.any fun v => advanced v.delta svcErrors
/-- The node with a new counting interval begun. -/
def Node.newInterval (n : Node) : Node :=
  { n with pe := {
    ports := n.pe.ports.map fun p => { p with mark := p.counts }
    svcs := n.pe.svcs.map fun v => { v with mark := v.counts }, interval := some 0 } }

section interval
variable {n : Node} {c : Nat} (hc : n.pe.interval = some c)
include hc

theorem Node.intervalEnd_before (h : c < 4000) : n.intervalEnd = n := by
  simp [Node.intervalEnd, hc, h]
theorem Node.intervalEnd_closes (h : 4000 ≤ c) : n.intervalEnd =
    if n.errorsAdvanced = true then
      n.newInterval.report (.portEvent n.runTime n.pe.poolFree n.portDeltas n.svcDeltas)
    else n.newInterval := by
  have hdue : (n.pe.interval.any fun c => decide (4000 ≤ c)) = true := by simp [hc, h]
  unfold Node.intervalEnd
  rw [if_pos hdue]
  change Node.newInterval (if n.errorsAdvanced = true then _ else _) = _
  split <;> rfl

end interval

theorem Node.errorsAdvanced_iff (n : Node) : n.errorsAdvanced = true ↔
    (∃ k, advanced (n.port k).delta portErrors = true) ∨ ∃ v ∈ n.pe.svcs, advanced v.delta svcErrors = true := by
  simp [Node.errorsAdvanced, mem_allFour]

/-- Settles O55: PACKET_PORT_SET sets its port and lets the transfers take its readiness; an interval's end compares the counts with
their marks. -/
theorem portSettingsAndCountingIntervals : Obligations.PortSettingsAndCountingIntervals := by
  intro s hawake n
  have hend : exec .countingIntervalEnd s = .next (s.became n.intervalEnd) := onNode_awake s _ hawake
  refine ⟨?_, ?_⟩
  · intro i r k on used hasks hkind b p q hlen hport hon hlow hhigh hstep hused
    have hrange : PacketPortSetInRange b k on used := ⟨hlen, hport, hon, ⟨hlow, hhigh, hstep⟩, hused⟩
    refine ⟨fun hoff hb => handle_refused hasks (isKind_of_eq hkind) (reply := refusal .portInUse)
      (ownPacketPortSet_bound hrange s.link n hoff hb), ?_⟩
    intro set hok
    have hset : n.setPort k ((n.port k).configure on (f2 b 2) used) = set := by
      cases on <;> rfl
    have hdone : exec .packetPortSet s = .next (s.replied i r (set.readyOn k) (okBytes [])) := by
      refine handle_ok hasks (isKind_of_eq hkind) ?_
      rw [← hset]
      exact ownPacketPortSet_ok hrange s.link n hok
    refine ⟨fun hnone => ?_, fun t x channel halone => ⟨_, hdone, Node.readyOn_acts (n := set) halone⟩⟩
    rw [hdone, Node.readyOn_idle (n := set) hnone]
  · intro c hc closed portWrong svcWrong
    have hwrong : n.errorsAdvanced = true ↔ portWrong ∨ svcWrong := by
      simp only [n.errorsAdvanced_iff, PacketPort.advanced_iff, PeService.advanced_iff]
      rfl
    refine ⟨fun h => ?_, fun h hw => ?_, fun h hp hs => ?_⟩
    · rw [hend, Node.intervalEnd_before hc h]
    · rw [hend, Node.intervalEnd_closes hc h, if_pos (hwrong.2 hw)]
      rfl
    · rw [hend, Node.intervalEnd_closes hc h, if_neg fun hw => (hwrong.1 hw).elim hp hs]
      rfl

end Sys2Proof.Machine
end

section
/-! SUPPORT. The reassembler reads what the packer places (R143, R144, R149): the bytes of an element, taken in pieces, and the idle
bytes after the last. -/

namespace Sys2Proof.Machine

/-! ## The bytes of an element -/

theorem elementBytes_length (d : List Byte) : (elementBytes d).length = 4 + d.length := by
  simp [elementBytes]
  omega
theorem natOf_element_length {d : List Byte} (h : d.length < 65536) {a : Nat} (ha : 2 ≤ a) :
    natOf (((elementBytes d).take a).take 2) = d.length := by
  have htake : ((elementBytes d).take a).take 2 = be2 d.length := by
    rw [List.take_take, Nat.min_eq_left ha]
    rfl
  rw [htake, natOf_be2 h]

/-- A frame that trains carry (R137). -/
def GoodFrame (d : List Byte) : Prop := 1 ≤ d.length ∧ d.length ≤ 1536

/-- The reassembler's state differs only in what good frames change: the element in progress and the received count. -/
structure PeService.Undisturbed (v w : PeService) : Prop where
  id : w.id = v.id
  inSync : w.inSync = v.inSync
  checkFailures : w.counts.checkFailures = v.counts.checkFailures
  syncLosses : w.counts.syncLosses = v.counts.syncLosses
  misrouted : w.counts.misrouted = v.counts.misrouted

theorem PeService.Undisturbed.trans {u v w : PeService} (h : u.Undisturbed v) (k : v.Undisturbed w) : u.Undisturbed w :=
  ⟨k.id.trans h.id, k.inSync.trans h.inSync, k.checkFailures.trans h.checkFailures, k.syncLosses.trans h.syncLosses,
    k.misrouted.trans h.misrouted⟩
theorem PeService.undisturbed_gathered (v : PeService) (g : List Byte) : v.Undisturbed { v with gathered := g } :=
  ⟨rfl, rfl, rfl, rfl, rfl⟩

/-- The reassembler when a good element has ended (R149). -/
def PeService.tookElement (v : PeService) : PeService :=
  { v with gathered := [], counts := { v.counts with received := sat32 v.counts.received } }
theorem PeService.undisturbed_tookElement (v : PeService) : v.Undisturbed v.tookElement := ⟨rfl, rfl, rfl, rfl, rfl⟩

theorem PeService.endElement_elementBytes (v : PeService) {d : List Byte} (h : d.length < 65536) :
    v.endElement (elementBytes d) = (v.tookElement, [d]) := by
  have hlen : natOf ((elementBytes d).take 2) = d.length := natOf_be2 h
  have hcheck := check16_readBack (be2 d.length ++ d)
  have hcovered : (be2 d.length ++ d).length = 2 + d.length := by simp
  have hdata : ((elementBytes d).drop 2).take d.length = d := by
    have hdrop : (elementBytes d).drop 2 = d ++ be2 (check16 (be2 d.length ++ d)).toNat := rfl
    rw [hdrop, List.take_left]
  rw [hcovered] at hcheck
  unfold PeService.endElement
  dsimp only
  rw [hlen, hdata, if_pos]
  · rfl
  · exact hcheck

/-! ## Reading bytes in stream order (R149) -/

/-- Reading the bytes ends with `r`, whatever the fuel above their number. -/
def Reads (bytes : List Byte) (v : PeService) (frames : List (List Byte)) (r : PeService × List (List Byte)) : Prop :=
  ∀ fuel, bytes.length < fuel → parseLoop fuel bytes v frames = r

section reads
variable {v : PeService} {frames : List (List Byte)} {r : PeService × List (List Byte)} {x y : Byte} {rest bytes : List Byte}

theorem reads_of_succ (h : ∀ fuel, bytes.length ≤ fuel → parseLoop (fuel + 1) bytes v frames = r) : Reads bytes v frames r := by
  rintro (- | fuel) hfuel
  · exact absurd hfuel (Nat.not_lt_zero _)
  · exact h fuel (Nat.le_of_lt_succ hfuel)
theorem reads_nil (v : PeService) (frames : List (List Byte)) : Reads [] v frames (v, frames) := reads_of_succ fun _ _ => rfl
/-- A single FFh at a boundary ends a payload. -/
theorem reads_lastIdle (hg : v.gathered = []) : Reads [0xFF#8] v frames (v, frames) := by
  refine reads_of_succ fun fuel _ => ?_
  simp [parseLoop, hg]
/-- The first byte of an element, which is not a single FFh. -/
theorem reads_firstByte (hg : v.gathered = []) (hx : x ≠ 0xFF#8) (h : Reads rest { v with gathered := [x] } frames r) :
    Reads (x :: rest) v frames r := by
  refine reads_of_succ fun fuel hfuel => ?_
  rw [← h fuel hfuel]
  simp [parseLoop, hg, hx]
/-- The second byte of an element, whose length is that of a frame. -/
theorem reads_secondByte (hg : v.gathered = [y]) (hlow : natOf [y, x] ≠ 0) (hhigh : natOf [y, x] ≤ 1536)
    (h : Reads rest { v with gathered := [y, x] } frames r) : Reads (x :: rest) v frames r := by
  refine reads_of_succ fun fuel hfuel => ?_
  rw [← h fuel hfuel]
  simp [parseLoop, hg, hlow, Nat.not_lt.2 hhigh]
/-- Two zero bytes at a boundary: the rest of the payload is idle. -/
theorem reads_zeros (hg : v.gathered = []) : Reads (0 :: 0 :: rest) v frames (v, frames) := by
  refine reads_firstByte hg (by decide) (reads_of_succ fun fuel _ => ?_)
  have hzero : natOf [0#8, 0#8] = 0 := rfl
  have hv : ({ v with gathered := [] } : PeService) = v := by rw [← hg]
  simp [parseLoop, hzero, hv]

section body
variable (hg : 2 ≤ v.gathered.length) (hne : bytes ≠ []) {need : Nat}
  (hneed : 4 + natOf (v.gathered.take 2) - v.gathered.length = need)
include hg hne hneed

/-- Too few bytes to end the element are kept. -/
theorem reads_part (hshort : bytes.length < need) :
    Reads bytes v frames ({ v with gathered := v.gathered ++ bytes }, frames) := by
  refine reads_of_succ fun fuel hfuel => ?_
  obtain ⟨x, rest, rfl⟩ := List.exists_cons_of_ne_nil hne
  have hsome : v.gathered.isEmpty = false := by
    cases hv : v.gathered
    · simp [hv] at hg
    · rfl
  simp only [parseLoop, hsome, Bool.false_and, Bool.false_eq_true, if_false, if_neg (Nat.not_lt.2 hg), hneed, if_pos hshort]
  rw [List.take_of_length_le (Nat.le_of_lt hshort)]
/-- Enough bytes end the element, and reading goes on after it. -/
theorem reads_end (hlong : need ≤ bytes.length) (hpos : 0 < need)
    (h : Reads (bytes.drop need) (v.endElement (v.gathered ++ bytes.take need)).1
      (frames ++ (v.endElement (v.gathered ++ bytes.take need)).2) r) : Reads bytes v frames r := by
  refine reads_of_succ fun fuel hfuel => ?_
  have hrest := h fuel (by simp; omega)
  obtain ⟨x, rest, rfl⟩ := List.exists_cons_of_ne_nil hne
  have hsome : v.gathered.isEmpty = false := by
    cases hv : v.gathered
    · simp [hv] at hg
    · rfl
  simp only [parseLoop, hsome, Bool.false_and, Bool.false_eq_true, if_false, if_neg (Nat.not_lt.2 hg), hneed,
    if_neg (Nat.not_lt.2 hlong)]
  exact hrest

end body

end reads

/-! ## An element read in pieces -/

section element
variable {d : List Byte} (hd : GoodFrame d) {v : PeService} {frames : List (List Byte)}
include hd

/-- A byte of the length field is kept. -/
theorem reads_lengthByte {a : Nat} (ha : a < 2) (hg : v.gathered = (elementBytes d).take a) {rest : List Byte}
    {r : PeService × List (List Byte)} (h : Reads rest { v with gathered := (elementBytes d).take (a + 1) } frames r) :
    Reads (((elementBytes d).drop a).take 1 ++ rest) v frames r := by
  obtain ⟨hlow, hhigh⟩ := hd
  have hnum : natOf (be2 d.length) = d.length := natOf_be2 (by omega)
  match a, ha with
  | 0, _ =>
    have hfirst : BitVec.ofNat 8 (d.length / 256) ≠ 0xFF#8 := by
      intro heq
      have hnat := congrArg BitVec.toNat heq
      simp only [BitVec.toNat_ofNat] at hnat
      omega
    exact reads_firstByte hg hfirst h
  | 1, _ => exact reads_secondByte hg (hnum.trans_ne (by omega)) (hnum.trans_le hhigh) h
theorem reads_restOfBody {a : Nat} (ha : 2 ≤ a) (hlt : a < (elementBytes d).length) (hg : v.gathered = (elementBytes d).take a)
    {rest : List Byte} {r : PeService × List (List Byte)} (h : Reads rest v.tookElement (frames ++ [d]) r) :
    Reads ((elementBytes d).drop a ++ rest) v frames r := by
  have hlen := elementBytes_length d
  have hsmall : d.length < 65536 := by
    obtain ⟨-, hhigh⟩ := hd
    omega
  have hglen : v.gathered.length = a := by rw [hg, List.length_take, Nat.min_eq_left hlt.le]
  have hdrop : ((elementBytes d).drop a).length = 4 + d.length - a := by rw [List.length_drop, hlen]
  have hneed : 4 + natOf (v.gathered.take 2) - v.gathered.length = 4 + d.length - a := by
    rw [hglen, hg, natOf_element_length hsmall ha]
  have hne : (elementBytes d).drop a ++ rest ≠ [] := by
    simp only [ne_eq, List.append_eq_nil_iff, List.drop_eq_nil_iff, not_and]
    omega
  refine reads_end (hglen ▸ ha) hne hneed ?_ (by omega) ?_
  · rw [List.length_append]
    omega
  · rw [← hdrop, List.take_left, List.drop_left, hg, List.take_append_drop, v.endElement_elementBytes hsmall]
    exact h
/-- The rest of an element ends it, and reading goes on after it. -/
theorem reads_restOfElement {a : Nat} (hlt : a < (elementBytes d).length) (hg : v.gathered = (elementBytes d).take a)
    {rest : List Byte} {r : PeService × List (List Byte)} (h : Reads rest v.tookElement (frames ++ [d]) r) :
    Reads ((elementBytes d).drop a ++ rest) v frames r := by
  have hlen := elementBytes_length d
  have hsecond (w : PeService) (hw : w.gathered = (elementBytes d).take 1) (htook : w.tookElement = v.tookElement) :
      Reads ((elementBytes d).drop 1 ++ rest) w frames r :=
    reads_lengthByte hd (a := 1) (by omega) hw
      (reads_restOfBody hd (a := 2) (by omega) (by omega) rfl (htook.symm ▸ h))
  match a with
  | 0 => exact reads_lengthByte hd (a := 0) (by omega) hg (hsecond _ rfl rfl)
  | 1 => exact hsecond v hg rfl
  | a + 2 => exact reads_restOfBody hd (by omega) hlt hg h
/-- A piece that does not end its element is kept. -/
theorem reads_pieceOfElement {a m : Nat} (hlt : a + m < (elementBytes d).length) (hg : v.gathered = (elementBytes d).take a) :
    Reads (((elementBytes d).drop a).take m) v frames ({ v with gathered := (elementBytes d).take (a + m) }, frames) := by
  have hlen := elementBytes_length d
  induction m generalizing a v with
  | zero =>
    have hv : ({ v with gathered := (elementBytes d).take a } : PeService) = v := by rw [← hg]
    simpa [hv] using reads_nil v frames
  | succ m ih =>
    by_cases ha : a < 2
    · have hbytes : ((elementBytes d).drop a).take (m + 1) =
          ((elementBytes d).drop a).take 1 ++ ((elementBytes d).drop (a + 1)).take m := by
        rw [Nat.add_comm m 1, List.take_add, List.drop_drop]
      have hrest := ih (a := a + 1) (v := { v with gathered := (elementBytes d).take (a + 1) }) (by omega) rfl
      rw [hbytes, Nat.add_comm m 1, ← Nat.add_assoc]
      exact reads_lengthByte hd ha hg hrest
    · have hglen : v.gathered.length = a := by rw [hg, List.length_take, Nat.min_eq_left (by omega)]
      have hsmall : d.length < 65536 := by
        obtain ⟨-, hhigh⟩ := hd
        omega
      have hneed : 4 + natOf (v.gathered.take 2) - v.gathered.length = 4 + d.length - a := by
        rw [hglen, hg, natOf_element_length hsmall (by omega)]
      have hpiece : (((elementBytes d).drop a).take (m + 1)).length = m + 1 := by
        rw [List.length_take, List.length_drop]
        omega
      rw [List.take_add (i := a), ← hg]
      exact reads_part (by omega) (List.ne_nil_of_length_eq_add_one hpiece) hneed (by omega)

end element

end Sys2Proof.Machine
end

section
/-! PROOF. Trains carry every queued frame (R142 to R149): what one train takes from the queue the reassembler gives out or keeps,
and every train takes something. -/

namespace Sys2Proof.Machine

/-! ## The packer's place in its queue -/

/-- What has been placed of the element in progress: `a` bytes of the first frame's. -/
def placedPart (ds : List (List Byte)) (a : Nat) : List Byte :=
  match ds with
  | [] => []
  | d :: _ => (elementBytes d).take a
theorem placedPart_zero (ds : List (List Byte)) : placedPart ds 0 = [] := by cases ds <;> rfl
/-- The bytes of the queue's elements that are still to be placed. -/
def toPlace (ds : List (List Byte)) (a : Nat) : Nat := (ds.map fun d => 4 + d.length).sum - a
/-- A packer's place: good frames, the first of them not placed whole, none begun in an empty queue. -/
structure PackerPlace (ds : List (List Byte)) (a : Nat) : Prop where
  good : ∀ d ∈ ds, GoodFrame d
  inside : a = 0 ∨ ∃ d rest, ds = d :: rest ∧ a < (elementBytes d).length

theorem PackerPlace.start {ds : List (List Byte)} (h : ∀ d ∈ ds, GoodFrame d) : PackerPlace ds 0 := ⟨h, .inl rfl⟩
theorem PackerPlace.head {d : List Byte} {ds : List (List Byte)} {a : Nat} (h : PackerPlace (d :: ds) a) :
    GoodFrame d ∧ a < (elementBytes d).length ∧ PackerPlace ds 0 := by
  refine ⟨h.good d List.mem_cons_self, ?_, .start fun e he => h.good e (List.mem_cons_of_mem d he)⟩
  rcases h.inside with rfl | ⟨e, rest, heq, hlt⟩
  · rw [elementBytes_length]
    omega
  · cases heq
    exact hlt
/-- Nothing is left to place exactly when the queue is empty. -/
theorem PackerPlace.empty {ds : List (List Byte)} {a : Nat} (h : PackerPlace ds a) (hnone : toPlace ds a = 0) : ds = [] ∧ a = 0 := by
  cases ds with
  | nil =>
    rcases h.inside with ha | ⟨d, rest, heq, -⟩
    · exact ⟨rfl, ha⟩
    · cases heq
  | cons d ds =>
    obtain ⟨-, hlt, -⟩ := h.head
    rw [elementBytes_length] at hlt
    simp only [toPlace, List.map_cons, List.sum_cons] at hnone
    omega

/-! ## What a payload carries -/

/-- A payload takes the packer from one place to another: a reassembler at the first place gives out the frames passed and is then
at the second. -/
structure Carries (ds : List (List Byte)) (a : Nat) (out : List Byte) (es : List (List Byte)) (b : Nat) : Prop where
  place : PackerPlace es b
  left : toPlace es b = toPlace ds a - out.length
  reads : ∃ done, ds = done ++ es ∧ ∀ (v : PeService) (frames : List (List Byte)), v.gathered = placedPart ds a →
    ∃ w : PeService, Reads out v frames (w, frames ++ done) ∧ w.gathered = placedPart es b ∧ v.Undisturbed w

theorem PeService.undisturbed_refl (v : PeService) : v.Undisturbed v := ⟨rfl, rfl, rfl, rfl, rfl⟩

theorem carries_nothing {ds : List (List Byte)} {a : Nat} (h : PackerPlace ds a) : Carries ds a [] ds a :=
  ⟨h, rfl, [], rfl, fun v frames hv => ⟨v, by simpa using reads_nil v frames, hv, v.undisturbed_refl⟩⟩

/-- The idle bytes of a payload with `left` bytes left (R144). -/
def idleBytes (left : Nat) : List Byte := if left = 1 then [0xFF#8] else List.replicate left 0
theorem carries_idle {left : Nat} : Carries [] 0 (idleBytes left) [] 0 := by
  refine ⟨.start (by simp), by simp [toPlace], [], rfl, fun v frames hv => ⟨v, ?_, hv, v.undisturbed_refl⟩⟩
  rw [List.append_nil]
  match left with
  | 0 => exact reads_nil v frames
  | 1 => exact reads_lastIdle hv
  | left + 2 => exact reads_zeros hv
/-- The rest of the head's element, and what is carried after it. -/
theorem carries_element {d : List Byte} {ds es : List (List Byte)} {a b : Nat} {out : List Byte} (h : PackerPlace (d :: ds) a)
    (hrest : Carries ds 0 out es b) : Carries (d :: ds) a ((elementBytes d).drop a ++ out) es b := by
  obtain ⟨hgood, hlt, -⟩ := h.head
  obtain ⟨done, hds, hreads⟩ := hrest.reads
  refine ⟨hrest.place, ?_, d :: done, by rw [hds, List.cons_append], fun v frames hv => ?_⟩
  · have hlen := elementBytes_length d
    have hleft := hrest.left
    simp only [toPlace, List.map_cons, List.sum_cons, List.length_append, List.length_drop] at *
    omega
  · obtain ⟨w, hw, hat, hund⟩ := hreads v.tookElement (frames ++ [d]) (placedPart_zero ds).symm
    rw [List.append_assoc, List.singleton_append] at hw
    exact ⟨w, reads_restOfElement hgood hlt hv hw, hat, v.undisturbed_tookElement.trans hund⟩
/-- A piece of the head's element that does not end it. -/
theorem carries_piece {d : List Byte} {ds : List (List Byte)} {a m : Nat} (h : PackerPlace (d :: ds) a)
    (hlt : a + m < (elementBytes d).length) :
    Carries (d :: ds) a (((elementBytes d).drop a).take m) (d :: ds) (a + m) := by
  obtain ⟨hgood, -, -⟩ := h.head
  refine ⟨⟨h.good, .inr ⟨d, ds, rfl, hlt⟩⟩, ?_, [], rfl, fun v frames hv => ?_⟩
  · rw [List.length_take, List.length_drop, Nat.min_eq_left (by omega), toPlace, toPlace, Nat.sub_add_eq]
  · rw [List.append_nil]
    exact ⟨_, reads_pieceOfElement hgood hlt hv, rfl, v.undisturbed_gathered _⟩

/-! ## One train packed (R144) -/

/-- The frames of a transmit queue. -/
def PeService.frames (v : PeService) : List (List Byte) := v.queue.map (·.data)

theorem discardAged_zero (v : PeService) (now : BitVec 32) :
    ∃ c, v.discardAged 0 now = { v with counts := c } := by
  have hkept : v.queue.dropWhile (aged 0 now) = v.queue := by
    cases hq : v.queue with
    | nil => rfl
    | cons q qs => exact List.dropWhile_cons_of_neg (by simp [aged])
  exact ⟨_, by rw [PeService.discardAged, hkept]⟩

/-- The head's bytes in a train that has room for the rest of its element, and in one that has not. -/
theorem placeHead_eq {v : PeService} {q : QueuedFrame} {qs : List QueuedFrame} (hq : v.queue = q :: qs) (left : Nat)
    (hlt : v.placed < (elementBytes q.data).length) :
    v.placeHead left = if (elementBytes q.data).length ≤ v.placed + left then
        ((elementBytes q.data).drop v.placed,
          { v with queue := qs, placed := 0, counts := { v.counts with packed := sat32 v.counts.packed } })
      else (((elementBytes q.data).drop v.placed).take left, { v with placed := v.placed + left }) := by
  unfold PeService.placeHead
  rw [hq]
  dsimp only
  by_cases hfits : (elementBytes q.data).length ≤ v.placed + left
  · have hwhole : ((elementBytes q.data).drop v.placed).take left = (elementBytes q.data).drop v.placed :=
      List.take_of_length_le (by rw [List.length_drop]; omega)
    rw [if_pos hfits, hwhole, if_pos (by rw [List.length_drop]; omega)]
  · have hpart : (((elementBytes q.data).drop v.placed).take left).length = left := by
      rw [List.length_take, List.length_drop]
      omega
    rw [if_neg hfits, hpart, if_neg (by omega)]

/-- What a stretch of packing yields: `left` more bytes, which carry the packer from one place to the next. -/
def Packs (left : Nat) (p : Packed) (ds : List (List Byte)) (a : Nat) (r : Packed) : Prop :=
  ∃ out, r.bytes = p.bytes ++ out ∧ out.length = left ∧ Carries ds a out r.svc.frames r.svc.placed

theorem packs_nothing {p : Packed} (h : PackerPlace p.svc.frames p.svc.placed) : Packs 0 p p.svc.frames p.svc.placed p :=
  ⟨[], by simp, rfl, carries_nothing h⟩
/-- A full train takes nothing more. -/
theorem packLoop_full (limit : Nat) (now : BitVec 32) (fuel pos : Nat) (p : Packed) : packLoop limit now fuel pos 0 p = p := by
  cases fuel <;> rfl

/-- One round with a frame at the head, given what the rounds after it do. -/
theorem packs_head {now : BitVec 32} {fuel : Nat} (ih : ∀ pos left (p : Packed), left ≤ fuel →
      PackerPlace p.svc.frames p.svc.placed → Packs left p p.svc.frames p.svc.placed (packLoop 0 now fuel pos left p))
    {v : PeService} (hne : v.queue ≠ []) (hplace : PackerPlace v.frames v.placed) {left : Nat}
    (hfuel : left ≤ fuel + 1) (pos : Nat) (p : Packed) (offset : Option Nat) :
    Packs left p v.frames v.placed (packLoop 0 now fuel (pos + (v.placeHead left).1.length) (left - (v.placeHead left).1.length)
      { bytes := p.bytes ++ (v.placeHead left).1, offset := offset, svc := (v.placeHead left).2 }) := by
  obtain ⟨q, qs, hq⟩ := List.exists_cons_of_ne_nil hne
  have hframes : v.frames = q.data :: qs.map (·.data) := by rw [PeService.frames, hq]; rfl
  rw [hframes] at hplace ⊢
  obtain ⟨-, hlt, hnext⟩ := hplace.head
  have hlen : ((elementBytes q.data).drop v.placed).length = (elementBytes q.data).length - v.placed := List.length_drop
  rw [placeHead_eq hq left hlt]
  split
  · obtain ⟨out, hbytes, hout, hcarries⟩ := ih (pos + ((elementBytes q.data).drop v.placed).length)
      (left - ((elementBytes q.data).drop v.placed).length)
      { bytes := p.bytes ++ (elementBytes q.data).drop v.placed, offset := offset,
        svc := { v with queue := qs, placed := 0, counts := { v.counts with packed := sat32 v.counts.packed } } } (by omega) hnext
    refine ⟨(elementBytes q.data).drop v.placed ++ out, hbytes.trans (List.append_assoc _ _ _), ?_,
      carries_element hplace hcarries⟩
    rw [List.length_append, hout]
    omega
  · have hpart : (((elementBytes q.data).drop v.placed).take left).length = left := by
      rw [List.length_take]
      omega
    have hpiece := carries_piece hplace (m := left) (by omega)
    rw [← hframes] at hpiece ⊢
    rw [hpart, Nat.sub_self, packLoop_full]
    exact ⟨_, rfl, hpart, hpiece⟩
theorem packLoop_packs (now : BitVec 32) (fuel pos left : Nat) (p : Packed) (hfuel : left ≤ fuel)
    (hplace : PackerPlace p.svc.frames p.svc.placed) :
    Packs left p p.svc.frames p.svc.placed (packLoop 0 now fuel pos left p) := by
  induction fuel generalizing pos left p with
  | zero =>
    obtain rfl := Nat.le_zero.1 hfuel
    exact packs_nothing hplace
  | succ fuel ih =>
    unfold packLoop
    split
    · rename_i hfull
      exact hfull ▸ packs_nothing hplace
    · rename_i hleft
      split
      · rename_i hboundary
        obtain ⟨c, hc⟩ := discardAged_zero p.svc now
        dsimp only
        rw [hc]
        split
        · rename_i hempty
          have hnone : p.svc.frames = [] := by
            rw [PeService.frames, List.isEmpty_iff.1 hempty]
            rfl
          have hidle : Carries p.svc.frames p.svc.placed (idleBytes left) p.svc.frames p.svc.placed := by
            rw [hnone, hboundary]
            exact carries_idle
          unfold idleBytes at hidle
          split
          · rename_i hone
            rw [if_pos hone] at hidle
            exact ⟨_, rfl, hone.symm, hidle⟩
          · rename_i hmore
            rw [if_neg hmore] at hidle
            exact ⟨_, rfl, List.length_replicate, hidle⟩
        · rename_i hsome
          exact packs_head ih (v := { p.svc with counts := c }) (fun h => hsome (List.isEmpty_iff.2 h)) hplace hfuel
            pos p _
      · rename_i hbegun
        refine packs_head ih (fun hnil => ?_) hplace hfuel pos p _
        obtain ⟨d, rest, heq, -⟩ := hplace.inside.resolve_left hbegun
        simp [PeService.frames, hnil] at heq

/-- The first boundary in a train keeps its offset. -/
theorem packLoop_offset (limit : Nat) (now : BitVec 32) (fuel pos left : Nat) (p : Packed) {o : Nat} (h : p.offset = some o) :
    (packLoop limit now fuel pos left p).offset = some o := by
  induction fuel generalizing pos left p with
  | zero => exact h
  | succ fuel ih =>
    have hor : p.offset.or (some pos) = some o := by rw [h]; rfl
    unfold packLoop
    split
    · exact h
    · split
      · dsimp only
        split
        · split
          · exact h
          · exact hor
        · exact ih _ _ _ hor
      · exact ih _ _ _ h
/-- A train that begins at a boundary with a frame waiting says so. -/
theorem packTrain_offset (now : BitVec 32) {size : Nat} (hsize : 1 ≤ size) {v : PeService} (hplaced : v.placed = 0)
    (hne : v.queue ≠ []) : (packTrain 0 now size v).offset = some 0 := by
  obtain ⟨size, rfl⟩ := Nat.exists_eq_add_of_le hsize
  obtain ⟨c, hc⟩ := discardAged_zero v now
  have hsome : ¬ v.queue.isEmpty = true := fun h => hne (List.isEmpty_iff.1 h)
  rw [packTrain, Nat.add_comm, packLoop, if_neg (Nat.succ_ne_zero _), if_pos hplaced]
  dsimp only
  rw [hc, if_neg hsome]
  exact packLoop_offset _ _ _ _ _ _ rfl
theorem packTrain_packs (now : BitVec 32) (size : Nat) {v : PeService} (hplace : PackerPlace v.frames v.placed) :
    (packTrain 0 now size v).bytes.length = size ∧ Carries v.frames v.placed (packTrain 0 now size v).bytes
      (packTrain 0 now size v).svc.frames (packTrain 0 now size v).svc.placed := by
  obtain ⟨out, hbytes, hlen, hcarries⟩ :=
    packLoop_packs now size 0 size { bytes := [], offset := none, svc := v } le_rfl hplace
  obtain rfl : (packTrain 0 now size v).bytes = out := hbytes
  exact ⟨hlen, hcarries⟩

/-! ## One train read (R147 to R149) -/

section header
variable {id : Nat} (hid : id < 56) (o : Nat)
include hid

theorem header_toNat : (cellOf (BitVec.ofNat 8 id) (BitVec.ofNat 8 o)).toNat = id * 256 + o % 256 := by
  simp only [cellOf, BitVec.toNat_ofNat]
  omega
theorem header_ne_idleFill : (cellOf (BitVec.ofNat 8 id) (BitVec.ofNat 8 o) == Config.idleFill) = false := by
  refine beq_false_of_ne fun heq => ?_
  have hnat := congrArg BitVec.toNat heq
  rw [header_toNat hid] at hnat
  simp only [Config.idleFill, BitVec.toNat_ofNat] at hnat
  omega

end header

/-- A reassembler that follows the packer: in sync and with what the packer has placed of its element, or out of sync with a train
to come that begins with an element. -/
def Follows (tx rx : PeService) : Prop :=
  (rx.inSync = true ∧ rx.gathered = placedPart tx.frames tx.placed) ∨
    (rx.inSync = false ∧ tx.placed = 0 ∧ tx.queue ≠ [])

/-- The three counts that a train without a fault leaves as they are. -/
def SameFaults (v w : PeService) : Prop :=
  w.counts.checkFailures = v.counts.checkFailures ∧ w.counts.syncLosses = v.counts.syncLosses ∧
    w.counts.misrouted = v.counts.misrouted

/-- One train read: the frames that the packer has passed come out, and the reassembler is in sync and follows. -/
theorem readTrain_packTrain {now : BitVec 32} {size id : Nat} (hsize : 1 ≤ size) {tx rx : PeService} (hid : id < 56)
    (hrx : rx.id = id) (hplace : PackerPlace tx.frames tx.placed)
    (hfollows : Follows tx rx) :
    let p := packTrain 0 now size tx
    let r := readTrain (cellOf (BitVec.ofNat 8 id) (BitVec.ofNat 8 (p.offset.getD 0xFF))) p.bytes rx
    tx.frames = r.2 ++ p.svc.frames ∧ r.1.id = id ∧ r.1.inSync = true ∧ r.1.gathered = placedPart p.svc.frames p.svc.placed ∧
      SameFaults rx r.1 := by
  intro p r
  obtain ⟨-, hcarries⟩ := packTrain_packs now size hplace
  obtain ⟨done, hdone, hreads⟩ := hcarries.reads
  have hidle := header_ne_idleFill hid (p.offset.getD 0xFF)
  have hnum := header_toNat hid (p.offset.getD 0xFF)
  have hto : (cellOf (BitVec.ofNat 8 id) (BitVec.ofNat 8 (p.offset.getD 0xFF))).toNat / 256 = rx.id := by omega
  rcases hfollows with ⟨hsync, hat⟩ | ⟨hsync, hplaced, hne⟩
  · obtain ⟨w, hw, hwat, hund⟩ := hreads rx [] hat
    have hr : r = (w, done) := by
      simp only [r, readTrain, hsync, hidle, hto, if_true, Bool.false_eq_true, if_false, ne_eq, not_true_eq_false]
      exact hw _ (Nat.lt_succ_self _)
    rw [hr]
    exact ⟨hdone, hund.id.trans hrx, hund.inSync.trans hsync, hwat, hund.checkFailures, hund.syncLosses, hund.misrouted⟩
  · have hoffset : p.offset = some 0 := packTrain_offset now hsize hplaced hne
    have hzero : (cellOf (BitVec.ofNat 8 id) (BitVec.ofNat 8 (p.offset.getD 0xFF))).toNat % 256 = 0 := by
      rw [hnum, hoffset, Option.getD_some]
      omega
    have hat : [] = placedPart tx.frames tx.placed := by rw [hplaced, placedPart_zero]
    obtain ⟨w, hw, hwat, hund⟩ := hreads
      { rx with inSync := true, gathered := [], counts := { rx.counts with syncGains := sat32 rx.counts.syncGains } } [] hat
    have hr : r = (w, done) := by
      simp only [r, readTrain, hsync, hidle, hto, hzero, Bool.false_eq_true, if_false, ne_eq, not_true_eq_false, Nat.zero_le,
        if_true, List.drop_zero]
      exact hw _ (Nat.lt_succ_self _)
    rw [hr]
    exact ⟨hdone, hund.id.trans hrx, hund.inSync, hwat, hund.checkFailures, hund.syncLosses, hund.misrouted⟩

/-! ## Train after train -/

/-- What so many trains have done: the frames that came out are those that left the queue, the reassembler follows, and every
payload byte has counted until nothing was left to place. -/
structure CarriedSoFar (size k : Nat) (tx rx : PeService) (c : Carried) : Prop where
  frames : tx.frames = c.frames ++ c.tx.frames
  place : PackerPlace c.tx.frames c.tx.placed
  left : toPlace c.tx.frames c.tx.placed = toPlace tx.frames 0 - k * size
  id : c.rx.id = tx.id
  follows : Follows c.tx c.rx
  faults : SameFaults rx c.rx

section carry
variable {now : BitVec 32} {size : Nat} {tx rx : PeService} (hsize : 1 ≤ size) (hid : tx.id < 56) (hrx : rx.id = tx.id)
  (hplaced : tx.placed = 0) (hgood : ∀ d ∈ tx.frames, GoodFrame d) (hstart : rx.inSync = true → rx.gathered = [])
  (hne : tx.queue ≠ [])
include hsize hid hrx hplaced hgood hstart hne

theorem carryTrains_soFar (k : Nat) : CarriedSoFar size k tx rx (carryTrains now size k tx rx) := by
  induction k with
  | zero =>
    have hplace : PackerPlace tx.frames tx.placed := hplaced.symm ▸ .start hgood
    have hleft : toPlace tx.frames tx.placed = toPlace tx.frames 0 - 0 * size := by rw [hplaced, Nat.zero_mul, Nat.sub_zero]
    have hfollows : Follows tx rx := by
      cases hsync : rx.inSync with
      | true => exact .inl ⟨hsync, by rw [hstart hsync, hplaced, placedPart_zero]⟩
      | false => exact .inr ⟨hsync, hplaced, hne⟩
    exact ⟨rfl, hplace, hleft, hrx, hfollows, rfl, rfl, rfl⟩
  | succ k ih =>
    obtain ⟨hlen, hcarries⟩ := packTrain_packs now size ih.place
    obtain ⟨hframes, hid', hsync, hat, hcheck, hloss, hmis⟩ := readTrain_packTrain (now := now) hsize hid ih.id ih.place ih.follows
    obtain ⟨hcheck₀, hloss₀, hmis₀⟩ := ih.faults
    refine ⟨?_, hcarries.place, ?_, hid', .inl ⟨hsync, hat⟩, hcheck.trans hcheck₀, hloss.trans hloss₀, hmis.trans hmis₀⟩
    · rw [ih.frames, hframes, ← List.append_assoc]
      rfl
    · refine hcarries.left.trans ?_
      rw [ih.left, hlen, Nat.sub_sub, Nat.succ_mul]

end carry

/-- Settles O56: each train carries its payload's bytes of the queue, so as many trains as there are bytes to place carry all. -/
theorem trainsCarryEveryFrameInOrder : Obligations.TrainsCarryEveryFrameInOrder := by
  intro now size tx rx hsize _ hid hrx hplaced hgood hstart
  by_cases hempty : tx.queue = []
  · exact ⟨0, by simp [carryTrains, hempty, hplaced]⟩
  · have hframes : ∀ d ∈ tx.frames, GoodFrame d := by
      intro d hd
      obtain ⟨q, hq, rfl⟩ := List.mem_map.1 hd
      exact hgood q hq
    have hall := carryTrains_soFar (now := now) hsize hid hrx hplaced hframes hstart hempty (toPlace tx.frames 0)
    have hnone : toPlace tx.frames 0 - toPlace tx.frames 0 * size = 0 := Nat.sub_eq_zero_of_le (Nat.le_mul_of_pos_right _ hsize)
    obtain ⟨hqueue, hplaced'⟩ := hall.place.empty (hall.left.trans hnone)
    have hout := hall.frames
    rw [hqueue, List.append_nil] at hout
    exact ⟨_, hout.symm, List.map_eq_nil_iff.1 hqueue, hplaced', hall.faults⟩

end Sys2Proof.Machine
end

section
/-! SUPPORT. The blocks of the transfers (R155, R156, R161): when a record entered in the transfer engine leaves them in order. -/

namespace Sys2Proof.Machine

/-! ## One record's blocks -/

/-- A record holds the blocks that the bytes it has received need, each one of the 64 and once, within its page (R155, R161). -/
structure Transfer.InPage (x : Transfer) : Prop where
  once : x.blocks.Nodup
  blocks : ∀ b ∈ x.blocks, b < 64
  count : x.blocks.length = (x.received + 2047) / 2048
  received : x.received ≤ x.declared

/-- Record `y` has received, and holds, what record `x` has. -/
structure Transfer.SamePage (x y : Transfer) : Prop where
  blocks : y.blocks = x.blocks
  received : y.received = x.received
  declared : y.declared = x.declared

theorem Transfer.SamePage.inPage {x y : Transfer} (h : x.SamePage y) (hx : x.InPage) : y.InPage :=
  ⟨h.blocks ▸ hx.once, h.blocks ▸ hx.blocks, h.blocks ▸ h.received ▸ hx.count, h.received ▸ h.declared ▸ hx.received⟩

theorem BlocksInOrder.inPage {n : Node} (h : BlocksInOrder n) {t : Fin 4} {x : Transfer} (hx : n.xfer t = some x) : x.InPage := by
  obtain ⟨honce, hblocks, hcount, hreceived⟩ := h.held t x hx
  exact ⟨honce, hblocks, hcount, hreceived⟩
theorem BlocksInOrder.of_inPage {n : Node} (held : ∀ t x, n.xfer t = some x → x.InPage)
    (apart : ∀ t u, t ≠ u → ∀ x ∈ n.xfer t, ∀ y ∈ n.xfer u, ∀ b ∈ x.blocks, b ∉ y.blocks) : BlocksInOrder n :=
  ⟨fun t x hx => ⟨(held t x hx).once, (held t x hx).blocks, (held t x hx).count, (held t x hx).received⟩, apart⟩

/-! ## Free blocks (R155) -/

theorem Node.mem_freeBlocks (n : Node) (b : Nat) :
    b ∈ n.freeBlocks ↔ b < 64 ∧ ∀ t x, n.xfer t = some x → b ∉ x.blocks := by
  simp only [Node.freeBlocks, List.mem_filter, List.mem_range, Bool.not_eq_true', List.any_eq_false, Bool.not_eq_true,
    mem_allFour, forall_const, Config.blockCount]
  refine and_congr_right fun _ => forall_congr' fun t => ?_
  cases n.xfer t <;> simp
/-- The first of the free blocks is the lowest. -/
theorem Node.freeBlocks_lowest {n : Node} {b : Nat} {others : List Nat} (h : n.freeBlocks = b :: others) :
    ∀ c < b, c ∉ n.freeBlocks := by
  have hsorted : n.freeBlocks.Pairwise (· < ·) := List.pairwise_lt_range.filter _
  intro c hc hin
  rw [h] at hsorted hin
  rcases List.mem_cons.1 hin with rfl | hin
  · exact Nat.lt_irrefl _ hc
  · exact Nat.lt_asymm hc (List.rel_of_pairwise_cons hsorted hin)

/-- The blocks of a transfer whose next segment has so many bytes: those it has, or those and the first free one when the bytes need
one more, which may not be there (R161). -/
def Node.blocksFor (n : Node) (x : Transfer) (size : Nat) : Option (List Nat) :=
  if ceilDiv (x.received + size) Config.blockBytes - ceilDiv x.received Config.blockBytes = 0 then some x.blocks
  else n.freeBlocks.head?.map fun b => x.blocks ++ [b]

section blocksFor
variable {n : Node} {x : Transfer} {size : Nat}

theorem Node.blocksFor_within (h : (x.received + size + 2047) / 2048 = (x.received + 2047) / 2048) :
    n.blocksFor x size = some x.blocks := by
  unfold Node.blocksFor ceilDiv Config.blockBytes
  rw [if_pos (by omega)]
theorem Node.blocksFor_beyond (h : (x.received + size + 2047) / 2048 ≠ (x.received + 2047) / 2048) :
    n.blocksFor x size = n.freeBlocks.head?.map fun b => x.blocks ++ [b] := by
  have hle : (x.received + 2047) / 2048 ≤ (x.received + size + 2047) / 2048 := Nat.div_le_div_right (by omega)
  unfold Node.blocksFor ceilDiv Config.blockBytes
  rw [if_neg (by omega)]

end blocksFor

/-! ## What keeps the blocks in order -/

/-- Node `m` has the transfers' blocks in order if node `n` has. -/
structure Node.KeepsBlocks (n m : Node) : Prop where
  keeps : BlocksInOrder n → BlocksInOrder m

namespace Node.KeepsBlocks

variable {n m : Node}

theorem refl (n : Node) : n.KeepsBlocks n := ⟨id⟩
theorem trans {a b c : Node} (h : a.KeepsBlocks b) (k : b.KeepsBlocks c) : a.KeepsBlocks c := ⟨fun o => k.keeps (h.keeps o)⟩
theorem ite {a b : Node} {c : Prop} [Decidable c] (ha : n.KeepsBlocks a) (hb : n.KeepsBlocks b) :
    n.KeepsBlocks (if c then a else b) := by
  split
  · exact ha
  · exact hb
theorem foldl {α : Type} (f : Node → α → Node) (hf : ∀ (n : Node) (a : α), n.KeepsBlocks (f n a)) (l : List α) (n : Node) :
    n.KeepsBlocks (l.foldl f n) := by
  induction l generalizing n with
  | nil => exact refl n
  | cons a l ih => exact (hf n a).trans (ih _)

/-- Every transfer that is open afterwards was open before, with what it has received and holds. -/
theorem of_records (h : ∀ t y, m.xfer t = some y → ∃ x, n.xfer t = some x ∧ x.SamePage y) : n.KeepsBlocks m := by
  refine ⟨fun o => .of_inPage (fun t y hy => ?_) fun t u htu x hx y hy b hb => ?_⟩
  · obtain ⟨x, hx, hsame⟩ := h t y hy
    exact hsame.inPage (o.inPage hx)
  · obtain ⟨x', hx', hsamex⟩ := h t x hx
    obtain ⟨y', hy', hsamey⟩ := h u y hy
    rw [hsamey.blocks]
    exact o.apart t u htu x' hx' y' hy' b (hsamex.blocks ▸ hb)
theorem of_xfer (h : ∀ t, m.xfer t = n.xfer t) : n.KeepsBlocks m := of_records fun t y hy => ⟨y, h t ▸ hy, rfl, rfl, rfl⟩
/-- What leaves the transfer engine alone. -/
theorem of_te (h : m.te = n.te) : n.KeepsBlocks m := of_xfer fun t => Node.xfer_congr h t
/-- What follows on a change that leaves the transfer engine alone. -/
theorem before {k : Node} (h : m.KeepsBlocks k) (hte : m.te = n.te) : n.KeepsBlocks k := (of_te hte).trans h
theorem lines (h : n.Lines m) : n.KeepsBlocks m := of_te h.te
theorem report (n : Node) (b : ReportBody) : n.KeepsBlocks (n.report b) := of_te rfl
theorem checked {checks : List (Bool × Reply)} {a : Answer} (h : n.KeepsBlocks a.node) :
    n.KeepsBlocks (checked n checks a).node := by
  rcases checked_cases n checks a with ⟨r, -, he⟩ | ⟨-, he⟩
  · rw [he]; exact refl n
  · rw [he]; exact h

/-! ## One record replaced -/

/-- A record is entered that holds no block of another. -/
theorem entered {t : Fin 4} {y : Transfer} (hy : BlocksInOrder n → y.InPage)
    (hfree : BlocksInOrder n → ∀ u x, u ≠ t → n.xfer u = some x → ∀ b ∈ y.blocks, b ∉ x.blocks) :
    n.KeepsBlocks (n.setXfer t (some y)) := by
  refine ⟨fun o => .of_inPage (fun u x hx => ?_) fun u v huv x hx z hz b hbx hbz => ?_⟩
  · by_cases hut : u = t
    · subst hut
      rw [Node.xfer_setXfer] at hx
      exact Option.some.inj hx ▸ hy o
    · rw [Node.xfer_setXfer_ne _ (Ne.symm hut)] at hx
      exact o.inPage hx
  · by_cases hut : u = t
    · subst hut
      rw [Option.mem_def, Node.xfer_setXfer_ne _ huv] at hz
      rw [Option.mem_def, Node.xfer_setXfer] at hx
      exact hfree o v z (Ne.symm huv) hz b (Option.some.inj hx ▸ hbx) hbz
    · rw [Option.mem_def, Node.xfer_setXfer_ne _ (Ne.symm hut)] at hx
      by_cases hvt : v = t
      · subst hvt
        rw [Option.mem_def, Node.xfer_setXfer] at hz
        exact hfree o u x hut hx b (Option.some.inj hz ▸ hbz) hbx
      · rw [Option.mem_def, Node.xfer_setXfer_ne _ (Ne.symm hvt)] at hz
        exact o.apart u v huv x hx z hz b hbx hbz
/-- A record is replaced by one that has received and holds the same. -/
theorem replaced {t : Fin 4} {x y : Transfer} (hx : n.xfer t = some x) (h : x.SamePage y := by exact ⟨rfl, rfl, rfl⟩) :
    n.KeepsBlocks (n.setXfer t (some y)) :=
  entered (fun o => h.inPage (o.inPage hx)) fun o u z hu hz b hb => o.apart t u (Ne.symm hu) x hx z hz b (h.blocks ▸ hb)
/-- A new record holds nothing (R158). -/
theorem opened (t : Fin 4) (y : Transfer) (hblocks : y.blocks = []) (hreceived : y.received = 0) :
    n.KeepsBlocks (n.setXfer t (some y)) :=
  entered (fun _ => ⟨by simp [hblocks], by simp [hblocks], by simp [hblocks, hreceived], by simp [hreceived]⟩)
    fun _ _ _ _ _ => by simp [hblocks]
/-- A closed record holds nothing (R168, R169). -/
theorem closed (n : Node) (t : Fin 4) : n.KeepsBlocks (n.setXfer t none) := by
  refine of_records fun u y hy => ?_
  by_cases hut : u = t
  · subst hut
    rw [Node.xfer_setXfer] at hy
    cases hy
  · exact ⟨y, n.xfer_setXfer_ne (Ne.symm hut) none ▸ hy, rfl, rfl, rfl⟩

/-! ## A segment's bytes (R160, R161) -/

/-- The record has received more bytes, in the blocks it had, or in those and one free block when the bytes need it. -/
theorem appended {t : Fin 4} {x y : Transfer} {size : Nat} (hx : n.xfer t = some x) (hsize : size ≤ 2048)
    (hpage : x.received + size ≤ x.declared) (hblocks : n.blocksFor x size = some y.blocks)
    (hreceived : y.received = x.received + size) (hdeclared : y.declared = x.declared) :
    n.KeepsBlocks (n.setXfer t (some y)) := by
  by_cases hsame : (x.received + size + 2047) / 2048 = (x.received + 2047) / 2048
  · have hkept : y.blocks = x.blocks := Option.some.inj (hblocks.symm.trans (Node.blocksFor_within hsame))
    refine entered (fun o => ?_) fun o u z hu hz b hb => o.apart t u (Ne.symm hu) x hx z hz b (hkept ▸ hb)
    have hp := o.inPage hx
    exact ⟨hkept ▸ hp.once, hkept ▸ hp.blocks, by rw [hkept, hp.count, hreceived, hsame], by omega⟩
  · obtain ⟨b, hb, hgrown⟩ := Option.map_eq_some_iff.1 ((Node.blocksFor_beyond hsame).symm.trans hblocks)
    obtain ⟨hb64, hfree⟩ := (n.mem_freeBlocks b).1 (List.mem_of_mem_head? hb)
    have hmem (c : Nat) (hc : c ∈ y.blocks) : c ∈ x.blocks ∨ c = b := by simpa [← hgrown] using hc
    refine entered (fun o => ?_) fun o u z hu hz c hc => ?_
    · have hp := o.inPage hx
      refine ⟨?_, fun c hc => ?_, ?_, by omega⟩
      · rw [← hgrown, List.nodup_append]
        exact ⟨hp.once, by simp, fun c hc d hd hcd => hfree t x hx (List.mem_singleton.1 hd ▸ hcd ▸ hc)⟩
      · exact (hmem c hc).elim (hp.blocks c) fun hcb => hcb ▸ hb64
      · rw [← hgrown, List.length_append, List.length_singleton, hp.count, hreceived]
        omega
    · exact (hmem c hc).elim (o.apart t u (Ne.symm hu) x hx z hz c) fun hcb => hcb ▸ hfree u z hz

end Node.KeepsBlocks

end Sys2Proof.Machine
end

section
/-! SUPPORT. The transfers' blocks kept in order by the transfer engine: what it does to a record but the taking of a segment leaves
its blocks and the bytes received as they are, closes it, or opens a new one. -/

namespace Sys2Proof.Machine

open Node.KeepsBlocks

/-! ## Records changed, opened and closed -/

theorem Node.offerState_keepsBlocks (n : Node) (t : Fin 4) : n.KeepsBlocks (n.offerState t) := by
  refine of_records fun u y hy => ?_
  by_cases hut : u = t
  · subst hut
    cases hx : n.xfer u with
    | none =>
      rw [Node.offerState, hx] at hy
      exact absurd (hx.symm.trans hy) nofun
    | some x =>
      obtain ⟨reported, timer, counts, hoffered⟩ := Node.offerState_xfer hx
      obtain rfl := Option.some.inj (hoffered.symm.trans hy)
      exact ⟨x, rfl, rfl, rfl, rfl⟩
  · exact ⟨y, n.offerState_xfer_ne (Ne.symm hut) ▸ hy, rfl, rfl, rfl⟩
theorem Node.offerIf_keepsBlocks (n : Node) (t : Fin 4) (want : Bool) : n.KeepsBlocks (n.offerIf t want) :=
  ite (n.offerState_keepsBlocks t) (refl n)
theorem Node.closeRecord_keepsBlocks (n : Node) (t : Fin 4) (r : Transfer) (last : TransferState) (c : TransferCause)
    (why : Option AbortReason) : n.KeepsBlocks (n.closeRecord t r last c why) := (closed n t).trans (.report _ _)

section same
variable {n : Node} {t : Fin 4} {x y : Transfer}

theorem Node.xferOffered_keepsBlocks (hx : n.xfer t = some x) (h : x.SamePage y := by exact ⟨rfl, rfl, rfl⟩) :
    n.KeepsBlocks ((n.setXfer t (some y)).offerState t) := (replaced hx h).trans (Node.offerState_keepsBlocks _ _)
theorem Node.transferTo_keepsBlocks (hx : n.xfer t = some x) (old : Option TransferState) (c : TransferCause)
    (h : x.SamePage y := by exact ⟨rfl, rfl, rfl⟩) : n.KeepsBlocks (n.transferTo t old y c) :=
  (replaced hx h).trans (.report _ _)
theorem Node.transferOffered_keepsBlocks (hx : n.xfer t = some x) (old : Option TransferState) (c : TransferCause)
    (h : x.SamePage y := by exact ⟨rfl, rfl, rfl⟩) : n.KeepsBlocks ((n.transferTo t old y c).offerState t) :=
  (Node.transferTo_keepsBlocks hx old c h).trans (Node.offerState_keepsBlocks _ _)

end same

theorem Node.resumeIf_keepsBlocks (n : Node) (freed : Bool) : n.KeepsBlocks (n.resumeIf freed) := by
  refine ite (foldl _ (fun m t => ?_) _ n) (refl n)
  unfold Node.resumeOne
  split
  · rename_i hx; exact Node.transferOffered_keepsBlocks hx _ _
  · exact refl m
theorem Node.closeTransfer_keepsBlocks (n : Node) (t : Fin 4) : n.KeepsBlocks (n.closeTransfer t) := by
  unfold Node.closeTransfer
  split
  · exact refl n
  · rename_i hx
    exact (Node.xferOffered_keepsBlocks hx).trans (Node.closeRecord_keepsBlocks _ _ _ _ _ _)
theorem Node.abortTransfer_keepsBlocks (n : Node) (t : Fin 4) (why : AbortReason) : n.KeepsBlocks (n.abortTransfer t why) := by
  unfold Node.abortTransfer
  split
  · exact refl n
  · rename_i hx
    exact (ite (Node.xferOffered_keepsBlocks hx) (refl n)).trans (Node.closeRecord_keepsBlocks _ _ _ _ _ _)
theorem Node.hostAbort_keepsBlocks (n : Node) (t : Fin 4) : n.KeepsBlocks (n.hostAbort t) :=
  (n.abortTransfer_keepsBlocks t _).trans (Node.resumeIf_keepsBlocks _ _)

/-! ## Delivery (R166, R167) -/

theorem Node.deliver_keepsBlocks (n : Node) (t : Fin 4) (want : Bool) : n.KeepsBlocks (n.deliver t want) := by
  have loop (fuel : Nat) (n : Node) : n.KeepsBlocks (deliverLoop fuel n t want) := by
    induction fuel generalizing n with
    | zero => exact n.offerIf_keepsBlocks _ _
    | succ fuel ih =>
      unfold deliverLoop
      split
      · exact refl n
      · rename_i r hr
        have hchunk (k : Fin 4) (channel : Nat) : n.KeepsBlocks (n.handChunk t r k channel) :=
          .before (m := n.modPort k _) (replaced hr) rfl
        refine ite (n.offerIf_keepsBlocks _ _) ?_
        split
        · exact n.closeTransfer_keepsBlocks _
        · refine ite (ite ((replaced hr).trans (ih _)) (n.closeTransfer_keepsBlocks _)) (ite ?_ ?_)
          · exact Node.transferOffered_keepsBlocks hr _ _
          · exact ite ((hchunk _ _).trans (ih _)) (n.offerIf_keepsBlocks _ _)
  exact loop _ n
theorem Node.roomOn_keepsBlocks (n : Node) (k : Fin 4) : n.KeepsBlocks (n.roomOn k) := by
  refine (foldl _ (fun m t => ?_) allFour n).trans (Node.resumeIf_keepsBlocks _ _)
  unfold Node.roomOne
  split
  · exact ite (m.deliver_keepsBlocks _ _) (refl m)
  · exact refl m
theorem Node.outputEnd_keepsBlocks (n : Node) (k : Fin 4) : n.KeepsBlocks (n.outputEnd k) :=
  ite ((Node.roomOn_keepsBlocks _ _).before rfl) (refl n)
theorem Node.readyOn_keepsBlocks (n : Node) (k : Fin 4) : n.KeepsBlocks (n.readyOn k) := by
  refine (foldl _ (fun m t => ?_) allFour n).trans (Node.resumeIf_keepsBlocks _ _)
  unfold Node.readyOne
  split
  · rename_i hx
    refine ite (ite (Node.transferOffered_keepsBlocks hx _ _) (ite ?_ (refl m))) (refl m)
    exact (Node.transferTo_keepsBlocks hx _ _).trans (Node.deliver_keepsBlocks _ _ _)
  · exact refl m

/-! ## Segments (R159 to R161) -/

/-- The page's bytes are stored in its blocks. -/
def Node.stored (n : Node) (blocks : List Nat) (o : Nat) (data : List Byte) : Node :=
  { n with te := { n.te with store := writePage n.te.store blocks o data } }
/-- The record with so many bytes more, in these blocks. -/
def Transfer.grown (x : Transfer) (blocks : List Nat) (size : Nat) : Transfer :=
  { x with
    blocks := blocks, received := x.received + size, counts := { x.counts with appended := sat32 x.counts.appended } }

section append
variable {n : Node} {x : Transfer} {data : List Byte} (t : Fin 4)

/-- No block is free for a segment that needs one. -/
theorem Node.appendSegment_suspends (h : n.blocksFor x data.length = none) : n.appendSegment t x data =
    (n.transferTo t (some x.state) { x with state := .suspended, reason := some .store } .storeFull).offerState t := by
  unfold Node.appendSegment
  dsimp only
  split
  · rfl
  · rename_i hsome; exact absurd (h.symm.trans hsome) nofun
/-- A segment's bytes are stored; the last of a page begin its delivery. -/
theorem Node.appendSegment_stores {blocks : List Nat} (h : n.blocksFor x data.length = some blocks) : n.appendSegment t x data =
    if x.received + data.length = x.declared then
      ((n.stored blocks x.received data).transferTo t (some x.state)
        { x.grown blocks data.length with state := .delivering, target := 0, offset := 0 } .pageComplete).deliver t true
    else ((n.stored blocks x.received data).setXfer t (some (x.grown blocks data.length))).offerIf t
      (decide (x.reported + 8192 ≤ x.received + data.length)) := by
  unfold Node.appendSegment
  dsimp only
  split
  · rename_i hnone; exact absurd (h.symm.trans hnone) nofun
  · rename_i taken hsome
    obtain rfl : blocks = taken := Option.some.inj (h.symm.trans hsome)
    rfl

end append

theorem Node.appendSegment_keepsBlocks {n : Node} {t : Fin 4} {x : Transfer} {data : List Byte} (hx : n.xfer t = some x)
    (hsize : data.length ≤ 2048) (hpage : x.received + data.length ≤ x.declared) :
    n.KeepsBlocks (n.appendSegment t x data) := by
  cases hblocks : n.blocksFor x data.length with
  | none =>
    rw [Node.appendSegment_suspends t hblocks]
    exact Node.transferOffered_keepsBlocks hx _ _
  | some blocks =>
    have hstored : n.KeepsBlocks (n.stored blocks x.received data) := of_xfer fun _ => rfl
    rw [Node.appendSegment_stores t hblocks]
    refine hstored.trans (ite (.trans (.trans ?_ (.report _ _)) (Node.deliver_keepsBlocks _ _ _))
      (.trans ?_ (Node.offerIf_keepsBlocks _ _ _)))
    all_goals exact appended hx hsize hpage hblocks rfl rfl
theorem Node.judgeSegment_keepsBlocks {n : Node} {t : Fin 4} {x : Transfer} (o : Nat) {data : List Byte}
    (hx : n.xfer t = some x) (hsize : data.length ≤ 2048) : n.KeepsBlocks (n.judgeSegment t x o data) := by
  unfold Node.judgeSegment
  split
  · exact Node.xferOffered_keepsBlocks hx
  · split
    · exact replaced hx
    · split
      · exact Node.xferOffered_keepsBlocks hx
      · exact Node.appendSegment_keepsBlocks hx hsize (by omega)
theorem Node.segment_keepsBlocks (n : Node) (id : Nat) (frame : List Byte) : n.KeepsBlocks (n.segment id frame) := by
  have hcounted (te : TransferEngine) (h : te.recs = n.te.recs) : n.KeepsBlocks { n with te := te } :=
    of_xfer fun t => by simp only [Node.xfer, h]
  unfold Node.segment
  split
  · exact hcounted _ rfl
  · rename_i hlength
    simp only [Bool.or_eq_true, decide_eq_true_eq, not_or, Nat.not_lt] at hlength
    refine ite (hcounted _ rfl) ?_
    dsimp only
    split
    · exact hcounted _ rfl
    · rename_i hx
      refine ite (hcounted _ rfl) ?_
      split
      · exact Node.judgeSegment_keepsBlocks _ hx (by rw [List.length_drop]; omega)
      · exact Node.xferOffered_keepsBlocks hx
      · exact Node.xferOffered_keepsBlocks hx
      · exact replaced hx

/-! ## The service shed and placed again, and the state frame timer (R163, R165) -/

theorem Node.transferShed_keepsBlocks (n : Node) (id : Nat) : n.KeepsBlocks (n.transferShed id) := by
  unfold Node.transferShed
  split
  · exact refl n
  · split
    · rename_i hx; exact ite (Node.transferTo_keepsBlocks hx _ _) (refl n)
    · exact refl n
theorem Node.transferPlaced_keepsBlocks (n : Node) (id : Nat) : n.KeepsBlocks (n.transferPlaced id) := by
  unfold Node.transferPlaced
  split
  · exact refl n
  · split
    · rename_i hx; exact ite (Node.transferOffered_keepsBlocks hx _ _) (refl n)
    · exact refl n
theorem Node.stateTimerEnd_keepsBlocks (n : Node) (t : Fin 4) : n.KeepsBlocks (n.stateTimerEnd t) := by
  unfold Node.stateTimerEnd
  split
  · rename_i hx; exact ite (Node.xferOffered_keepsBlocks hx) (refl n)
  · exact refl n
/-- A frame start advances the records' timers alone. -/
theorem Node.countFrame_keepsBlocks (n : Node) : n.KeepsBlocks n.countFrame := by
  have hframe (x : Transfer) : x.SamePage x.frame := by
    unfold Transfer.frame
    split <;> exact ⟨rfl, rfl, rfl⟩
  refine of_records fun t y hy => ?_
  have hmap : n.countFrame.xfer t = (n.xfer t).map Transfer.frame := by simp [Node.countFrame, Node.xfer]
  rw [hmap] at hy
  obtain ⟨x, hx, rfl⟩ := Option.map_eq_some_iff.1 hy
  exact ⟨x, hx, hframe x⟩

/-! ## Requests (R157, R158) -/

theorem Node.opened_keepsBlocks (n : Node) (t : Fin 4) (b : List Byte) (old : Option TransferState) (c : TransferCause) :
    n.KeepsBlocks ((n.transferTo t old (n.newTransfer b) c).offerState t) :=
  ((opened t _ rfl rfl).trans (.report _ _)).trans (Node.offerState_keepsBlocks _ _)

end Sys2Proof.Machine
end

section
/-! SUPPORT. What leaves the transfer engine alone: the packet engine's trains, the poll controller, records applied and the
management link. -/

namespace Sys2Proof.Machine

theorem foldl_te {α : Type} {f : Node → α → Node} (hf : ∀ (n : Node) (a : α), (f n a).te = n.te) (l : List α) (n : Node) :
    (l.foldl f n).te = n.te := by
  induction l generalizing n with
  | nil => rfl
  | cons a l ih => exact (ih _).trans (hf n a)

/-! ## Poll controller -/

theorem Node.forwardReading_te (n : Node) (k : Fin 8) : (n.forwardReading k).te = n.te := by
  unfold Node.forwardReading
  split
  · rfl
  · split
    · rfl
    · exact n.offerFrame_te _ _
theorem Node.catchUp_te (n : Node) : n.catchUp.te = n.te := by
  refine foldl_te (fun m k => ?_) _ n
  split
  · exact m.forwardReading_te k
  · rfl
theorem Node.weatherPlaced_te (n : Node) (id : Nat) : (n.weatherPlaced id).te = n.te := by
  unfold Node.weatherPlaced
  split
  · exact n.catchUp_te
  · rfl
theorem Node.cycleStart_te (n : Node) : n.cycleStart.te = n.te := by
  unfold Node.cycleStart
  split <;> rfl
theorem Node.beginPoll_te (n : Node) : n.beginPoll.te = n.te := by
  unfold Node.beginPoll
  split <;> rfl
theorem Node.stationDue_te (n : Node) (k : Fin 8) : (n.stationDue k).te = n.te := by
  unfold Node.stationDue
  split
  · dsimp only
    split
    · rfl
    · exact Node.beginPoll_te _
  · rfl
theorem Node.endPoll_te (n : Node) : n.endPoll.te = n.te := Node.beginPoll_te _
theorem Node.failedPoll_te (n : Node) (k : Fin 8) : (n.failedPoll k).te = n.te := by
  refine (Node.endPoll_te _).trans ?_
  split <;> rfl
theorem Node.attemptFails_te (n : Node) (t : Transaction) (f : StationCounts → StationCounts) :
    (n.attemptFails t f).te = n.te := by
  unfold Node.attemptFails
  dsimp only
  split
  · rfl
  · exact Node.failedPoll_te _ _
theorem Node.attemptSucceeds_te (n : Node) (t : Transaction) (bs : List Byte) : (n.attemptSucceeds t bs).te = n.te := by
  have hread (m : Node) : (m.newReading t.station bs).te = m.te := Node.forwardReading_te _ _
  refine (Node.endPoll_te _).trans ?_
  split
  · exact hread _
  · exact hread _
theorem Node.judgeAttempt_te (n : Node) (t : Transaction) (v : Verdict) : (n.judgeAttempt t v).te = n.te := by
  unfold Node.judgeAttempt
  split
  · exact n.attemptSucceeds_te _ _
  all_goals exact n.attemptFails_te _ _
theorem Node.windowOpens_te (n : Node) : n.windowOpens.te = n.te := by
  unfold Node.windowOpens
  split
  · split <;> rfl
  · rfl
theorem Node.replyTimeout_te (n : Node) : n.replyTimeout.te = n.te := by
  unfold Node.replyTimeout
  split
  · split
    · split
      · exact n.judgeAttempt_te _ _
      · rfl
    · rfl
  · rfl
theorem Node.replyStart_te (n : Node) : n.replyStart.te = n.te := by
  refine Eq.trans ?_ n.replyTimeout_te
  unfold Node.replyStart
  dsimp only
  split
  · split <;> rfl
  · rfl
theorem Node.replyEnd_te (n : Node) (judge : Nat → Verdict) : (n.replyEnd judge).te = n.te := by
  unfold Node.replyEnd
  split
  · split
    · exact n.judgeAttempt_te _ _
    · rfl
  · rfl
theorem Node.setStationEntry_te (n : Node) (k : Fin 8) (enabled : Bool) (address offset : Nat) :
    (n.setStationEntry k enabled address offset).te = n.te := by
  unfold Node.setStationEntry
  dsimp only
  split <;> rfl

/-! ## Packet ports and records applied (R55, R137, R152) -/

theorem Node.tributaryIn_te (n : Node) (k : Fin 4) (f : TributaryInput) : (n.tributaryIn k f).te = n.te := by
  unfold Node.tributaryIn
  split
  · split
    · rfl
    · split
      · rfl
      · exact n.offerFrame_te _ _
  · rfl
theorem Node.outputBegin_te (n : Node) (k : Fin 4) : (n.outputBegin k).te = n.te := by
  unfold Node.outputBegin
  split <;> rfl
theorem Node.intervalEnd_te (n : Node) : n.intervalEnd.te = n.te := by
  unfold Node.intervalEnd
  split
  · dsimp only
    split <;> rfl
  · rfl
theorem Node.peApplied_te (n : Node) (id : Nat) (h : HalfSet) : (n.peApplied id h).te = n.te := by
  unfold Node.peApplied
  split <;> rfl
theorem Node.reselectDual_te (n : Node) : n.reselectDual.te = n.te := rfl
theorem Node.stagingApply_te (n : Node) : n.stagingApply.te = n.te := by
  have happly (r : Staging) : (n.applyRecord r).te = n.te := by
    unfold Node.applyRecord Node.tellServing
    dsimp only
    split
    · exact Node.peApplied_te _ _ _
    · rfl
  unfold Node.stagingApply
  split
  · split
    · exact happly _
    · rfl
  · rfl
theorem Node.applyDue_te (n : Node) : n.applyDue.te = n.te := foldl_te (fun m _ => m.stagingApply_te) _ n

/-! ## The management link (R187 to R193) -/

theorem State.gapEnd_te (s : State) : s.gapEnd.node.te = s.node.te := by
  unfold State.gapEnd
  split
  · split <;> rfl
  · rfl
theorem State.offerRequest_te (s : State) (r : Request) (bs : List Byte) : (s.offerRequest r bs).node.te = s.node.te := by
  unfold State.offerRequest
  split
  · rfl
  · split <;> rfl
theorem State.frameByte_te (s : State) (bs : List Byte) : (s.frameByte bs).node.te = s.node.te := by
  unfold State.frameByte
  split
  · rfl
  · split
    · split
      · exact s.offerRequest_te _ _
      · rfl
    · rfl
theorem State.rxByte_te (s : State) (b : Byte) : (s.rxByte b).node.te = s.node.te := by
  refine Eq.trans ?_ s.gapEnd_te
  unfold State.rxByte
  dsimp only
  split
  · split <;> rfl
  · exact State.frameByte_te _ _
theorem State.rxByteIf_te (s : State) (take : Bool) (b : Byte) : (if take then s.rxByte b else s).node.te = s.node.te := by
  split
  · exact s.rxByte_te b
  · rfl
theorem State.rxError_te (s : State) : s.rxError.node.te = s.node.te := by
  refine Eq.trans ?_ s.gapEnd_te
  unfold State.rxError
  dsimp only
  split <;> rfl
theorem State.changeRate_te (s : State) (r : LinkRate) : (s.changeRate r).node.te = s.node.te := by
  unfold State.changeRate
  split
  · rfl
  · dsimp only
    split <;> rfl
theorem State.reportSent_te (s : State) : s.reportSent.node.te = s.node.te := by
  unfold State.reportSent
  split <;> rfl

end Sys2Proof.Machine
end

section
/-! SUPPORT. The transfers' blocks kept in order by the admission unit (R83, R88, R91 to R103): it sheds, places and releases the
services that carry transfers, and does nothing else to a transfer. -/

namespace Sys2Proof.Machine

open Node.KeepsBlocks

/-! ## Services shed, and attempts (R88, R91 to R94) -/

theorem Node.shed_keepsBlocks (n : Node) (v : Service) (why : ShedReason) : n.KeepsBlocks (n.shed v why) :=
  (Node.transferShed_keepsBlocks _ _).before rfl
theorem Node.shedId_keepsBlocks (n : Node) (id : Nat) (why : ShedReason) : n.KeepsBlocks (n.shedId id why) := by
  unfold Node.shedId
  split
  · exact n.shed_keepsBlocks _ _
  · exact refl n
theorem Node.shedAll_keepsBlocks (n : Node) (ids : List Nat) (why : ShedReason) : n.KeepsBlocks (n.shedAll ids why) :=
  foldl _ (fun m id => m.shedId_keepsBlocks id why) ids n
theorem Node.attempts_keepsBlocks {n : Node} {v : Service} {x : Side} {l : List Attempt} {r : Room}
    (h : n.attempts v x l = some r) : n.KeepsBlocks r.node := by
  obtain ⟨t, -, ht⟩ := List.exists_of_findSome?_eq_some h
  rcases Node.attempt_cases ht with ⟨cells, -, rfl⟩ | ⟨-, m, cells, hpre, rfl⟩
  · exact refl n
  · unfold Node.preemptCells at hpre
    dsimp only at hpre
    split at hpre
    · cases hpre; exact n.shedAll_keepsBlocks _ _
    · cases hpre
theorem Node.svcEventOf_keepsBlocks (n : Node) (id : Nat) (old : Option SvcState) (c : SvcCause) :
    n.KeepsBlocks (n.svcEventOf id old c) := by
  unfold Node.svcEventOf
  split
  · exact .report n _
  · exact refl n
/-- Cells taken and told of leave the transfers as the attempt for them did. -/
theorem Node.takesCells_keepsBlocks (n : Node) (v : Service) (cells : List Nat) (id : Nat) (old : Option SvcState) (c : SvcCause) :
    n.KeepsBlocks ((n.takeCells v cells).svcEventOf id old c) := (Node.svcEventOf_keepsBlocks _ _ _ _).before rfl
theorem Node.placeNew_keepsBlocks {n : Node} {r : Room} {v : Service} {y : Side} {l : List Attempt}
    (h : n.attempts v y l = some r) (x : Side) : n.KeepsBlocks (Node.placeNew r v x) :=
  (Node.attempts_keepsBlocks h).trans (of_te rfl)
theorem Node.callPlacement_keepsBlocks {n m : Node} {p : Fin 8} (h : n.callPlacement p = some m) : n.KeepsBlocks m := by
  unfold Node.callPlacement at h
  obtain ⟨r, hr, rfl⟩ := Option.map_eq_some_iff.1 h
  exact (Node.placeNew_keepsBlocks hr _).trans (Node.svcEventOf_keepsBlocks _ _ _ _)
theorem Node.openCall_keepsBlocks (n : Node) (p : Fin 8) : n.KeepsBlocks (n.openCall p) := of_te rfl

/-! ## The restoration pass (R95 to R99) -/

theorem passCalls_keepsBlocks (l : List (Fin 8)) (q : Pass) : q.node.KeepsBlocks (passCalls l q).node := by
  induction l generalizing q with
  | nil => exact refl _
  | cons p l ih =>
    unfold passCalls
    split
    · rename_i m hm
      exact ((Node.callPlacement_keepsBlocks hm).trans (m.openCall_keepsBlocks p)).trans
        (ih { q with node := m.openCall p, placed := q.placed + 1 })
    · exact refl _
theorem Pass.restore_keepsBlocks (q : Pass) (id : Nat) : q.node.KeepsBlocks (q.restore id).node := by
  unfold Pass.restore
  split
  · exact refl _
  · split
    · exact refl _
    · split
      · exact refl _
      · split
        · exact refl _
        · rename_i r hr
          exact (((Node.placeNew_keepsBlocks hr _).trans (Node.svcEventOf_keepsBlocks _ _ _ _)).trans
            (Node.transferPlaced_keepsBlocks _ _)).trans (of_te (Node.weatherPlaced_te _ _))
theorem Pass.grow_keepsBlocks (q : Pass) (id : Nat) : q.node.KeepsBlocks (q.grow id).node := by
  unfold Pass.grow
  split
  · exact refl _
  · split
    · exact refl _
    · exact Node.takesCells_keepsBlocks _ _ _ _ _ _
theorem Node.moveHome_keepsBlocks {n m : Node} {v : Service} (h : n.moveHome v = some m) : n.KeepsBlocks m := by
  obtain ⟨cells, -, rfl⟩ := Option.map_eq_some_iff.1 h
  exact Node.takesCells_keepsBlocks _ _ _ _ _ _
theorem Pass.home_keepsBlocks (q : Pass) (id : Nat) : q.node.KeepsBlocks (q.home id).node := by
  unfold Pass.home
  split
  · rename_i m hm
    obtain ⟨v, -, hhome⟩ := Option.bind_eq_some_iff.1 hm
    exact Node.moveHome_keepsBlocks hhome
  · exact refl _
theorem Pass.steps_keepsBlocks (q : Pass) : q.node.KeepsBlocks q.steps.node := by
  have served (f : Pass → Nat → Pass) (hf : ∀ (q : Pass) (id : Nat), q.node.KeepsBlocks (f q id).node) (l : List Nat) (q : Pass) :
      q.node.KeepsBlocks (l.foldl f q).node := by
    induction l generalizing q with
    | nil => exact refl _
    | cons id l ih => exact (hf q id).trans (ih _)
  exact (((passCalls_keepsBlocks _ { q with moved := false }).trans (served _ Pass.restore_keepsBlocks _ _)).trans
    (served _ Pass.grow_keepsBlocks _ _)).trans (served _ Pass.home_keepsBlocks _ _)
theorem Node.pass_keepsBlocks (n : Node) : n.KeepsBlocks n.pass := by
  have loop (fuel : Nat) (q : Pass) : q.node.KeepsBlocks (passLoop fuel q).node := by
    induction fuel generalizing q with
    | zero => exact refl _
    | succ fuel ih =>
      unfold passLoop
      dsimp only
      split
      · exact q.steps_keepsBlocks.trans (ih _)
      · exact q.steps_keepsBlocks
  exact loop _ { node := n }

/-! ## Reroute, revert, definition, release, economy mode (R79 to R83, R100 to R104) -/

theorem Node.rerouteOne_keepsBlocks (n : Node) (x : Side) (id : Nat) : n.KeepsBlocks (n.rerouteOne x id) := by
  unfold Node.rerouteOne
  split
  · exact refl n
  · rename_i v _
    have hfree : n.KeepsBlocks (n.freeHalves v) := of_te rfl
    dsimp only
    split
    · split
      · rename_i r hr
        exact (hfree.trans (Node.attempts_keepsBlocks hr)).trans (Node.takesCells_keepsBlocks _ _ _ _ _ _)
      · exact hfree.trans (Node.shed_keepsBlocks _ _ _)
    · exact hfree.trans (Node.shed_keepsBlocks _ _ _)
theorem Node.reroute_keepsBlocks (n : Node) (x : Side) : n.KeepsBlocks (n.reroute x) :=
  ite (refl n) ((foldl _ (fun n id => n.rerouteOne_keepsBlocks x id) _ _).trans (Node.pass_keepsBlocks _))
theorem Node.revertOne_keepsBlocks (n : Node) (id : Nat) : n.KeepsBlocks (n.revertOne id) := by
  unfold Node.revertOne
  split
  · exact refl n
  · rename_i v _
    cases h : n.moveHome v with
    | some m => exact Node.moveHome_keepsBlocks h
    | none => exact .report n _
theorem Node.revert_keepsBlocks (n : Node) (x : Side) : n.KeepsBlocks (n.revert x) :=
  (foldl _ Node.revertOne_keepsBlocks _ _).trans (Node.pass_keepsBlocks _)
theorem Node.define_keepsBlocks {n m : Node} {v : Service} (h : n.define v = some m) : n.KeepsBlocks m := by
  have hshed (why : ShedReason) : n.KeepsBlocks (n.defineShed v why) := of_te rfl
  unfold Node.define at h
  split at h
  · cases h; exact hshed _
  · split at h
    · cases h; exact hshed _
    · split at h
      · rename_i x _ _ r hr
        cases h
        exact (Node.placeNew_keepsBlocks hr x).trans ((Node.svcEventOf_keepsBlocks _ _ _ _).before rfl)
      · split at h
        · cases h; exact hshed _
        · cases h
/-- A release closes at most the transfer that its service carries. -/
theorem Node.release_keepsBlocks (n : Node) (v : Service) : n.KeepsBlocks (n.release v) := by
  have hgone : n.KeepsBlocks (n.halvesGone v) := by rw [n.halvesGone_rest v]; exact of_te rfl
  have hunbind (m : Node) : m.KeepsBlocks (m.unbind v) := by
    rcases m.unbind_cases v with ⟨_, _, _, _, _, _, _, he⟩ | ⟨_, _, _, _, he⟩ | ⟨_, _, he⟩
    · rw [he]; exact (Node.closeRecord_keepsBlocks _ _ _ _ _ _).before rfl
    · rw [he]; exact of_te rfl
    · rw [he]; exact of_te rfl
  have hvacated : n.KeepsBlocks (n.vacated v) := (hgone.trans (hunbind _)).trans (of_te rfl)
  rw [Node.release_eq]
  exact (hvacated.trans (Node.pass_keepsBlocks _)).trans (Node.resumeIf_keepsBlocks _ _)
theorem Node.economyShed_keepsBlocks (n : Node) : n.KeepsBlocks n.economyShed :=
  .before (m := n.setEconomy true) (Node.shedAll_keepsBlocks _ _ _) rfl

end Sys2Proof.Machine
end

section
/-! SUPPORT. The transfers' blocks kept in order by the calls, by the due events taken before a frame start and by the frame start
itself (R44, R121 to R126, log 1). -/

namespace Sys2Proof.Machine

namespace Node.KeepsBlocks

/-! ## Calls -/

/-- A change of the calls, and one reported, leave the transfers alone. -/
theorem calls (n : Node) (cc : Calls) : n.KeepsBlocks { n with cc := cc } := of_te rfl
theorem phoneEvent (n : Node) (p : Fin 8) (f : Phone → Phone) (old : CallState) (o : CallOutcome) :
    n.KeepsBlocks ((n.modPhone p f).callEvent p old o) := of_te rfl
theorem testCaller (n : Node) (p : Fin 8) : n.KeepsBlocks (n.testCaller p) := by
  refine ite ?_ (refl n)
  unfold Node.callerCall
  split
  · rename_i m hm; exact (Node.callPlacement_keepsBlocks hm).trans (m.openCall_keepsBlocks p)
  · exact of_te rfl
theorem enterIdle (n : Node) (p : Fin 8) (o : CallOutcome) : n.KeepsBlocks (n.enterIdle p o) := (testCaller _ p).before rfl
theorem guardEnd (n : Node) (p : Fin 8) : n.KeepsBlocks (n.guardEnd p) := by
  refine .trans ?_ (enterIdle _ p _)
  split
  · exact n.release_keepsBlocks _
  · exact refl n
theorem enterClearing (n : Node) (p : Fin 8) (o : CallOutcome) : n.KeepsBlocks (n.enterClearing p o) :=
  ite ((phoneEvent n p _ _ _).trans (guardEnd _ p)) (phoneEvent n p _ _ _)
theorem testFlash (n : Node) (p : Fin 8) : n.KeepsBlocks (n.testFlash p) := by
  refine ite ?_ (refl n)
  split <;> exact of_te rfl
theorem offHook (n : Node) (p : Fin 8) : n.KeepsBlocks (n.offHook p) := by
  refine .before (m := n.modPhone p fun ph => { ph with hook := .offHook, hookDue := false }) ?_ rfl
  unfold Node.offHook
  dsimp only
  split
  · exact testCaller _ p
  · exact phoneEvent _ _ _ _ _
  · exact phoneEvent _ _ _ _ _
  · exact refl _
theorem onHook (n : Node) (p : Fin 8) : n.KeepsBlocks (n.onHook p) := by
  have hend (m : Node) (held : Bool) : m.KeepsBlocks (if held then m.enterHeld p else m.enterClearing p .callerCleared) :=
    ite (phoneEvent m _ _ _ _) (enterClearing m p _)
  refine .before (m := n.modPhone p fun ph => { ph with hook := .onHook, hookDue := false, clearLock := false }) ?_ rfl
  unfold Node.onHook
  dsimp only
  split
  · exact enterIdle _ p _
  · exact hend _ _
  · exact hend _ _
  · exact refl _
theorem hookEvent (n : Node) (p : Fin 8) : n.KeepsBlocks (n.hookEvent p) := by
  refine ite ?_ (refl n)
  split
  · exact offHook n p
  · exact onHook n p
theorem acceptEvent (n : Node) (p : Fin 8) : n.KeepsBlocks (n.acceptEvent p) :=
  ite (((hookEvent n p).trans (calls _ _)).trans (ite (testFlash _ p) (refl _))) (refl n)
theorem timerEvent (n : Node) (p : Fin 8) : n.KeepsBlocks (n.timerEvent p) := by
  unfold Node.timerEvent
  split
  · exact enterClearing n p _
  · exact enterClearing n p _
  · exact guardEnd n p
  · exact refl n
theorem settlePhone (n : Node) (p : Fin 8) : n.KeepsBlocks (n.settlePhone p) :=
  (((hookEvent n p).trans (acceptEvent _ p)).trans (calls _ _)).trans (timerEvent _ p)
theorem clearCall (n : Node) (p : Fin 8) : n.KeepsBlocks (n.clearCall p) :=
  (calls n _).trans (ite (enterIdle _ p _) (enterClearing _ p _))

/-! ## Signals taken and due events -/

theorem auTakes (n : Node) (g : PathSignal) (f : Node → Node) (hf : ∀ m : Node, m.KeepsBlocks (f m)) :
    n.KeepsBlocks (n.auTakes g f) := ite ((hf _).before rfl) (refl n)
theorem ccTakes (n : Node) (g : PathSignal) : n.KeepsBlocks (n.ccTakes g) := by
  have hcall (m : Node) (p : Fin 8) : m.KeepsBlocks (m.reselectCall p) := ite (ite (of_te rfl) (of_te rfl)) (refl m)
  exact ite (.before (m := { n with sig := { n.sig with cc := n.sig.cc.erase g } }) (foldl _ hcall _ _) rfl) (refl n)
theorem peTakes (n : Node) (g : PathSignal) : n.KeepsBlocks (n.peTakes g) :=
  ite ((of_te (Node.reselectDual_te _)).before rfl) (refl n)
theorem takeSignals (n : Node) : n.KeepsBlocks n.takeSignals := by
  refine ((foldl _ (fun m g => ?_) _ _).trans (foldl _ ccTakes _ _)).trans (foldl _ peTakes _ _)
  refine auTakes m g _ fun k => ?_
  cases g with
  | lost x => exact k.reroute_keepsBlocks x
  | restored x => exact k.revert_keepsBlocks x
theorem settleNode (n : Node) : n.KeepsBlocks n.settle := by
  have hlines : n.Lines (((((((n.settleLine .u).settleLine .d).periodicDue .u).periodicDue .d).holdOffEnd .a).holdOffEnd
      .b).wtrEnd .a |>.wtrEnd .b).timingRevert :=
    ((((((((n.settleLine_lines _).trans (Node.settleLine_lines _ _)).trans (Node.periodicDue_lines _ _)).trans
      (Node.periodicDue_lines _ _)).trans (Node.holdOffEnd_lines _ _)).trans (Node.holdOffEnd_lines _ _)).trans
      (Node.wtrEnd_lines _ _)).trans (Node.wtrEnd_lines _ _)).trans (Node.timingRevert_lines _)
  have hpolls (m : Node) : (allStations.foldl Node.stationDue m.intervalEnd.cycleStart).te = m.te :=
    ((foldl_te Node.stationDue_te _ _).trans (Node.cycleStart_te _)).trans m.intervalEnd_te
  have hengines (m : Node) :
      m.KeepsBlocks (allStations.foldl Node.stationDue (allFour.foldl Node.stateTimerEnd m).intervalEnd.cycleStart) :=
    (foldl _ Node.stateTimerEnd_keepsBlocks allFour m).trans (of_te (hpolls _))
  exact ((lines hlines).trans (takeSignals _)).trans (hengines _)

/-! ## The tick and the frame start (R44, R186) -/

theorem settleTick (s : State) : s.node.KeepsBlocks s.settleTick.node := by
  have hphones : s.node.KeepsBlocks (allPhones.foldl Node.settlePhone s.node).replyTimeout :=
    (foldl _ settlePhone _ _).trans (of_te (Node.replyTimeout_te _))
  unfold State.settleTick
  generalize (allPhones.foldl Node.settlePhone s.node).replyTimeout = m at hphones ⊢
  exact hphones.trans (of_te (State.gapEnd_te { s with node := m }))
theorem msTick (s : State) : s.node.KeepsBlocks s.msTick.node := by
  unfold State.msTick
  split
  · exact (settleTick s).trans (of_te rfl)
  · exact refl _
theorem settle (s : State) : s.node.KeepsBlocks s.settle.node := by
  rw [State.settle_node]
  exact (((settleTick s).trans (msTick _)).trans (settleTick _)).trans (settleNode _)
theorem handFrame (n : Node) (v : Service) (data : List Byte) : n.KeepsBlocks (n.handFrame v data) := by
  unfold Node.handFrame
  split
  · exact of_te rfl
  · exact n.segment_keepsBlocks _ _
  · split <;> exact of_te rfl
  · exact refl n
theorem readTrains (n : Node) : n.KeepsBlocks n.readTrains := by
  refine (foldl _ (fun m id => ?_) _ n).trans (Node.resumeIf_keepsBlocks _ _)
  unfold Node.readService
  split
  · rename_i sv _ _
    split
    · exact refl m
    · dsimp only
      split
      · exact refl m
      · exact (foldl _ (fun m d => handFrame m sv d) _ _).before rfl
  · exact refl m
theorem frameStart (n : Node) (voice : Vector CellVal 8) : n.KeepsBlocks (n.frameStart voice) := by
  unfold Node.frameStart
  refine .trans ?_ (foldl _ (fun n p => calls n _) _ _)
  refine .trans ?_ (readTrains _)
  refine .trans ?_ (lines (Node.beginFrame_lines _ _ _))
  refine .trans ?_ (lines (Node.beginFrame_lines _ _ _))
  exact ((of_te n.applyDue_te).trans (Node.countFrame_keepsBlocks _)).trans (of_te rfl)

/-! ## Power-on and START (R195, R206) -/

theorem powerOn (n : Node) : n.KeepsBlocks n.powerOn := of_records fun t y hy => by
  have hnone : n.powerOn.xfer t = none := by simp [Node.powerOn, Node.xfer]
  cases hnone.symm.trans hy
theorem start (n : Node) : n.KeepsBlocks n.start := by
  have hlines : n.startValues.Lines ((n.startValues.startLine .u).startLine .d) :=
    (n.startValues.startLine_lines .u).trans (Node.startLine_lines _ .d)
  have hstarted : n.KeepsBlocks ((n.startValues.startLine .u).startLine .d) := (lines hlines).before rfl
  unfold Node.start
  refine .trans ?_ (Node.pass_keepsBlocks _)
  exact hstarted.trans (of_te rfl)

end Node.KeepsBlocks

end Sys2Proof.Machine
end

section
/-! SUPPORT. Every command, row by row: the transfers' blocks stay in order (R155, R156, R161). -/

namespace Sys2Proof.Machine

namespace Node.KeepsBlocks

variable {s t : State}

/-! ## Requests -/

section owners
variable (k : Link) (b : List Byte) (n : Node)

theorem setLevels : n.KeepsBlocks (ownSetLevels k b n).node :=
  checked (.before (m := n.withMap (classMapOf b)) (ite (Node.pass_keepsBlocks _) (refl _)) rfl)
theorem defineService : n.KeepsBlocks (ownDefineService k b n).node := by
  refine checked ?_
  dsimp only
  split
  · exact refl n
  · rename_i m hm; exact Node.define_keepsBlocks hm
theorem releaseService : n.KeepsBlocks (ownReleaseService k b n).node := by
  refine checked ?_
  dsimp only
  split
  · exact n.release_keepsBlocks _
  · exact refl n
theorem enterEconomy : n.KeepsBlocks (ownEconomyEnter k b n).node := by
  have henter : n.KeepsBlocks n.enterEconomy :=
    ite n.economyShed_keepsBlocks (n.economyShed_keepsBlocks.trans (Node.pass_keepsBlocks _))
  refine checked ?_
  split
  · exact refl n
  · exact henter
theorem leaveEconomy : n.KeepsBlocks (ownEconomyLeave k b n).node := by
  have hpass : n.KeepsBlocks (n.setEconomy false).pass := (Node.pass_keepsBlocks _).before rfl
  refine checked ?_
  split
  · dsimp only
    exact hpass
  · exact refl n
theorem setAllotmentAdd : n.KeepsBlocks (ownSetAllotmentAdd k b n).node := by
  have hadd (cells : List Nat) : n.KeepsBlocks (n.addCells cells) := of_te rfl
  refine checked ?_
  dsimp only
  split
  · exact hadd _
  · exact (hadd _).trans (Node.pass_keepsBlocks _)
theorem setAllotmentRemove : n.KeepsBlocks (ownSetAllotmentRemove k b n).node := by
  refine checked ?_
  split
  · exact refl n
  · exact of_te rfl
theorem startRequest : n.KeepsBlocks (ownStart k b n).node := by
  have hstart := start n
  refine checked ?_
  dsimp only
  exact hstart
theorem phoneSetPort : n.KeepsBlocks (ownPhoneSetPort k b n).node := checked (of_te rfl)
theorem phoneSetCommon : n.KeepsBlocks (ownPhoneSetCommon k b n).node := checked (of_te rfl)
theorem ringTest (drive : Bool) : n.KeepsBlocks (ownRingTest drive k b n).node := checked (of_te rfl)
theorem callAnswer : n.KeepsBlocks (ownCallAnswer k b n).node := checked (phoneEvent n _ _ _ _)
theorem callHold (value : Bool) : n.KeepsBlocks (ownCallHold value k b n).node := checked (of_te rfl)
theorem callClear : n.KeepsBlocks (ownCallClear k b n).node := checked (clearCall n _)
theorem callRing : n.KeepsBlocks (ownCallRing k b n).node := by
  refine checked ?_
  split
  · rename_i m hm
    have hring (p : Fin 8) : m.KeepsBlocks (m.ringPhone p) := phoneEvent m p _ _ _
    exact (Node.callPlacement_keepsBlocks hm).trans (hring _)
  · exact refl n
theorem marginScan : n.KeepsBlocks (ownMarginScan k b n).node := checked (lines (n.startScan_lines _ _))
theorem pathForceSet : n.KeepsBlocks (ownPathForceSet k b n).node := checked (lines (n.forceOut_lines _))
theorem pathForceClear : n.KeepsBlocks (ownPathForceClear k b n).node := checked (lines (n.forceClear_lines _))
theorem setLink : n.KeepsBlocks (ownSetLink k b n).node := by
  refine checked ?_
  split <;> exact refl n
theorem setNode : n.KeepsBlocks (ownSetNode k b n).node := checked (of_te (n.applySettings_paths (c := n.cfg.replaced b)).te)
theorem lineSet : n.KeepsBlocks (ownLineSet k b n).node :=
  checked (lines ((n.modLine_lines _ _).trans (Node.enableAsSet_lines (n.modLine _ _) _)))
theorem transferOpen : n.KeepsBlocks (ownTransferOpen k b n).node := checked (n.opened_keepsBlocks _ b _ _)
theorem transferAbort : n.KeepsBlocks (ownTransferAbort k b n).node := checked (n.hostAbort_keepsBlocks _)
theorem stationSet : n.KeepsBlocks (ownStationSet k b n).node := checked (of_te (n.setStationEntry_te _ _ _ _))
theorem packetPortSet : n.KeepsBlocks (ownPacketPortSet k b n).node :=
  checked (.before (m := n.modPort (fin4 (f1 b 0)) fun p => p.configure (f1 b 1 == 1) (f2 b 2) (f1 b 4 == 1))
    (Node.readyOn_keepsBlocks _ _) rfl)
theorem pollSet : n.KeepsBlocks (ownPollSet k b n).node :=
  checked (.before (m := { n with pc := n.pc.configure b (n.op == OpState.running) })
    (ite (of_te (Node.catchUp_te _)) (refl _)) rfl)

end owners

/-! ## The kinds of commands -/

/-- An event of the management link, of the blocks, and a request. -/
theorem link {f : State → State} (hf : s.node.KeepsBlocks (f s).node) (h : unlessHeld s f = .next t) : s.node.KeepsBlocks t.node :=
  unlessHeld_keeps h (refl _) hf
theorem event {f : Node → Node} (hf : ∀ n : Node, n.KeepsBlocks (f n)) (h : onNode s f = .next t) : s.node.KeepsBlocks t.node :=
  link (f := fun s => { s with node := f s.node }) (hf _) h
/-- An event of the blocks that leaves the transfer engine alone. -/
theorem quiet {f : Node → Node} (hf : ∀ n : Node, (f n).te = n.te) (h : onNode s f = .next t) : s.node.KeepsBlocks t.node :=
  event (fun n => of_te (hf n)) h
theorem linesEvent {f : Node → Node} (hf : ∀ n : Node, n.Lines (f n)) (h : onNode s f = .next t) : s.node.KeepsBlocks t.node :=
  event (fun n => lines (hf n)) h
theorem owner {mine : Request → Bool} {own : Link → List Byte → Node → Answer}
    (ho : ∀ k b (n : Node), n.KeepsBlocks (own k b n).node) (h : handle s mine own = .next t) : s.node.KeepsBlocks t.node := by
  refine link ?_ h
  dsimp only
  split
  · split
    · exact ho _ _ _
    · exact refl _
  · exact refl _
/-- A request that only answers leaves the node as it is. -/
theorem answer {mine : Request → Bool} (own : Link → List Byte → Node → Answer) (ho : ∀ k b n, (own k b n).node = n)
    (h : handle s mine own = .next t) : s.node.KeepsBlocks t.node :=
  owner (fun k b n => by rw [ho]; exact refl n) h
theorem setPins (q : Pins) : s.node.KeepsBlocks (s.setPins q).node := of_te rfl
theorem powerValues (low : Bool) : s.node.KeepsBlocks (s.powerValues.setReset low).node := (powerOn s.node).trans (of_te rfl)
theorem replySent (s : State) : s.node.KeepsBlocks s.replySent.node := by
  unfold State.replySent
  split
  · unfold State.afterReply
    dsimp only
    split
    · exact refl _
    · exact of_te (State.changeRate_te _ _)
    · exact powerOn _
  · exact refl _
  · exact refl _

/-! ## The commands -/

theorem exec (c : Instr) (h : Machine.exec c s = .next t) : s.node.KeepsBlocks t.node := by
  cases c with
  | powerOn => cases h; exact powerOn s.node
  | resetInputLow => cases h; exact powerValues true
  | resetInputRise => cases h; exact powerValues false
  | frameStart voice =>
    have hframe : s.node.KeepsBlocks (s.settle.node.frameStart voice) := (settle s).trans (frameStart _ voice)
    unfold Machine.exec execFrameStart at h
    refine link ?_ h
    dsimp only
    exact hframe
  | msTick loops => exact (setPins _).trans (link (msTick _) h)
  | stagingApply => exact quiet Node.stagingApply_te h
  | lineHoldEnd l => exact linesEvent (fun n => .ite (n.modSwitch_lines _ _) (.refl n)) h
  | lineFrameReceived l p f d => exact linesEvent (·.lineFrame_lines l p f d) h
  | signalLost l pin => exact (setPins _).trans (linesEvent (·.signalGone_lines l) h)
  | signalReturned l pin => exact (setPins _).trans (event refl h)
  | errorWindowEnd l => exact linesEvent (·.windowEnd_lines l) h
  | presetConfirmTimeout l => exact linesEvent (·.confirmTimeout_lines l) h
  | settleFramesEnd l => exact linesEvent (·.settleEnd_lines l) h
  | marginPositionDone l => exact linesEvent (·.positionDone_lines l) h
  | trainingRetry l => exact linesEvent (·.retryEnd_lines l) h
  | periodicScanDue l => exact linesEvent (·.periodicDue_lines l) h
  | holdOffExpired x => exact linesEvent (·.holdOffEnd_lines x) h
  | wtrExpired x => exact linesEvent (·.wtrEnd_lines x) h
  | timingRevert => exact linesEvent Node.timingRevert_lines h
  | pathLostReroute x => exact event (fun n => auTakes n (.lost x) _ (·.reroute_keepsBlocks x)) h
  | pathRestoredRevert x => exact event (fun n => auTakes n (.restored x) _ (·.revert_keepsBlocks x)) h
  | callReselect g => exact event (ccTakes · g) h
  | dualReceiveReselect g => exact event (peTakes · g) h
  | loopAcceptedRise p => exact event (fun n => ite (refl n) (acceptEvent n p)) h
  | loopAcceptedFall p => exact event (fun n => ite (acceptEvent n p) (refl n)) h
  | offHookConfirmed p => exact event (fun n => ite (offHook n p) (refl n)) h
  | onHookConfirmed p => exact event (fun n => ite (onHook n p) (refl n)) h
  | cadencePeriodStart p =>
    unfold Machine.exec execCadencePeriodStart at h
    refine event (fun n => ?_) h
    split
    · exact ite (refl n) (of_te rfl)
    · exact refl n
  | cadenceOffPhase p =>
    unfold Machine.exec execCadenceOffPhase at h
    refine event (fun n => ?_) h
    split
    · exact ite (of_te rfl) (refl n)
    · exact refl n
  | heldLimitExpired p => exact event (fun n => ite (timerEvent n p) (refl n)) h
  | ringTimeoutExpired p => exact event (fun n => ite (timerEvent n p) (refl n)) h
  | clearGuardExpired p => exact event (fun n => ite (timerEvent n p) (refl n)) h
  | tributaryFrameReceived k f => exact quiet (·.tributaryIn_te k f) h
  | tributaryFrameSent k => exact event (·.outputEnd_keepsBlocks k) h
  | outputFrameBegin k => exact quiet (·.outputBegin_te k) h
  | readyInputChange k level => exact (setPins _).trans (event (·.readyOn_keepsBlocks k) h)
  | stateFrameTimer x => exact event (·.stateTimerEnd_keepsBlocks x) h
  | countingIntervalEnd => exact quiet Node.intervalEnd_te h
  | pollCycleStart => exact quiet Node.cycleStart_te h
  | stationDue k => exact quiet (·.stationDue_te k) h
  | pollTelegramSent => exact quiet Node.windowOpens_te h
  | pollReplyStart => exact quiet Node.replyStart_te h
  | pollReplyTimeout => exact quiet Node.replyTimeout_te h
  | pollReplyEnd bs => exact quiet (·.replyEnd_te _) h
  | pollReplyGap bs => exact quiet (·.replyEnd_te _) h
  | lateReplyRunEnd =>
    unfold Machine.exec execLateReplyRunEnd at h
    refine event (fun n => ?_) h
    exact ite (of_te rfl) (refl n)
  | requestFrameReceived b => exact link (of_te (s.rxByteIf_te _ b)) h
  | frameTooLong b => exact link (of_te (s.rxByteIf_te _ b)) h
  | frameGap => exact link (of_te s.gapEnd_te) h
  | frameByteError => exact link (of_te s.rxError_te) h
  | replySent => exact link (replySent s) h
  | reportSent => exact link (of_te s.reportSent_te) h
  | linkByteReceived b low =>
    unfold Machine.exec execLinkByteReceived at h
    refine link ?_ h
    split
    · exact of_te s.rxError_te
    · exact of_te (s.rxByte_te b)
  | unknownKindRequest => exact answer ownUnknown (fun _ _ _ => rfl) h
  | identify => exact answer ownIdentify (fun _ _ _ => Node.Kept.checked_node) h
  | setLink => exact owner setLink h
  | start => exact owner startRequest h
  | reset => exact answer ownReset (fun _ _ _ => Node.Kept.checked_node) h
  | nodeStatus => exact answer ownNodeStatus (fun _ _ _ => Node.Kept.checked_node) h
  | setNode => exact owner setNode h
  | lineSet => exact owner lineSet h
  | marginScan => exact owner marginScan h
  | lineStatus => exact answer ownLineStatus (fun _ _ _ => Node.Kept.checked_node) h
  | pathForceSet => exact owner pathForceSet h
  | pathForceClear => exact owner pathForceClear h
  | pathStatus => exact answer ownPathStatus (fun _ _ _ => Node.Kept.checked_node) h
  | setAllotmentAdd => exact owner setAllotmentAdd h
  | setAllotmentRemove => exact owner setAllotmentRemove h
  | mapStatus => exact answer ownMapStatus (fun _ _ _ => Node.Kept.checked_node) h
  | setLevels => exact owner setLevels h
  | defineService => exact owner defineService h
  | releaseService => exact owner releaseService h
  | serviceStatusOne => exact answer ownServiceStatusOne (fun _ _ _ => Node.Kept.checked_node) h
  | serviceStatusSummary => exact answer ownServiceStatusSummary (fun _ _ _ => Node.Kept.checked_node) h
  | shedList => exact answer ownShedList (fun _ _ _ => Node.Kept.checked_node) h
  | economyEnter => exact owner enterEconomy h
  | economyLeave => exact owner leaveEconomy h
  | phoneSetPort => exact owner phoneSetPort h
  | phoneSetCommon => exact owner phoneSetCommon h
  | callControlAnswer => exact owner callAnswer h
  | callControlHold => exact owner (fun k b n => callHold k b n true) h
  | callControlUnhold => exact owner (fun k b n => callHold k b n false) h
  | callControlClear => exact owner callClear h
  | callControlRing => exact owner callRing h
  | callStatus => exact answer ownCallStatus (fun _ _ _ => Node.Kept.checked_node) h
  | ringTestOn => exact owner (fun k b n => ringTest k b n true) h
  | ringTestOff => exact owner (fun k b n => ringTest k b n false) h
  | packetPortSet => exact owner packetPortSet h
  | portStatusPort => exact answer ownPortStatusPort (fun _ _ _ => Node.Kept.checked_node) h
  | portStatusService => exact answer ownPortStatusService (fun _ _ _ => Node.Kept.checked_node) h
  | transferOpen => exact owner transferOpen h
  | transferAbort => exact owner transferAbort h
  | transferStatusOne => exact answer ownTransferStatusOne (fun _ _ _ => Node.Kept.checked_node) h
  | transferStatusAll => exact answer ownTransferStatusAll (fun _ _ _ => Node.Kept.checked_node) h
  | pollSet => exact owner pollSet h
  | stationSet => exact owner stationSet h
  | stationRead => exact answer ownStationRead (fun _ _ _ => Node.Kept.checked_node) h

theorem step (h : Machine.step s = .next t) : s.node.KeepsBlocks t.node := by
  unfold Machine.step at h
  split at h
  · cases h; exact refl _
  · rename_i c rest _
    exact exec (s := s.withPending rest) c h

end Node.KeepsBlocks

/-- Settles O12: of all operations of a command the taking of a segment alone changes what a transfer holds, by at most one block that
is free; every other leaves, closes or opens records. -/
theorem stepKeepsBlocksInOrder : Obligations.StepKeepsBlocksInOrder := by
  unfold Obligations.StepKeepsBlocksInOrder
  intro s t hblocks h
  exact (Node.KeepsBlocks.step h).keeps hblocks

end Sys2Proof.Machine
end

section
/-! SUPPORT. The bytes of a page in the bulk store (R155, R156): what is written into its blocks is read back, and every other byte
of the store reads as before. -/

namespace Sys2Proof.Machine

/-- Two bytes of a page lie at two addresses. -/
theorem pageAddress_injective {blocks : List Nat} (h : blocks.Nodup) {o p : Nat} (ho : o < 2048 * blocks.length)
    (hp : p < 2048 * blocks.length) (he : pageAddress blocks o = pageAddress blocks p) : o = p := by
  have hblock {q : Nat} (hq : q < 2048 * blocks.length) : q / 2048 < blocks.length := Nat.div_lt_of_lt_mul hq
  simp only [pageAddress, Config.blockBytes, List.getD_eq_getElem _ _ (hblock ho), List.getD_eq_getElem _ _ (hblock hp)] at he
  have hentry : blocks[o / 2048]'(hblock ho) = blocks[p / 2048]'(hblock hp) := by omega
  have hindex : o / 2048 = p / 2048 := (List.Nodup.getElem_inj_iff h).1 hentry
  omega

theorem read_writePage_elsewhere {m : Memory} (hm : Memory.wf m = true) (blocks : List Nat) (o : Nat) (data : List Byte) {a : Nat}
    (h : ∀ i < data.length, a ≠ pageAddress blocks (o + i)) : Memory.read (writePage m blocks o data) a = Memory.read m a := by
  induction data generalizing m o with
  | nil => rfl
  | cons b data ih =>
    have hrest := ih (Memory.wf_write m (pageAddress blocks o) b hm) (o + 1) fun i hi => by
      have := h (i + 1) (Nat.succ_lt_succ hi)
      rwa [Nat.add_comm i 1, ← Nat.add_assoc] at this
    have hhere : a ≠ pageAddress blocks o := h 0 (Nat.succ_pos _)
    rw [writePage, hrest, Memory.read_write m _ b a hm, if_neg hhere]
theorem read_writePage_at {m : Memory} (hm : Memory.wf m = true) {blocks : List Nat} (hblocks : blocks.Nodup) {o : Nat}
    {data : List Byte} (hfits : o + data.length ≤ 2048 * blocks.length) {i : Nat} (hi : i < data.length) :
    Memory.read (writePage m blocks o data) (pageAddress blocks (o + i)) = data[i] := by
  induction data generalizing m o i with
  | nil => exact absurd hi (Nat.not_lt_zero i)
  | cons b data ih =>
    have hwritten := Memory.wf_write m (pageAddress blocks o) b hm
    rw [List.length_cons] at hfits hi
    cases i with
    | zero =>
      have hlater : ∀ j < data.length, pageAddress blocks o ≠ pageAddress blocks (o + 1 + j) := fun j hj he => by
        have := pageAddress_injective hblocks (by omega) (by omega) he
        omega
      change Memory.read (writePage _ blocks (o + 1) data) (pageAddress blocks o) = b
      rw [read_writePage_elsewhere hwritten blocks (o + 1) data hlater, Memory.read_write m _ b _ hm, if_pos rfl]
    | succ i =>
      have hrest := ih hwritten (o := o + 1) (by omega) (i := i) (by omega)
      rw [Nat.add_right_comm, Nat.add_assoc] at hrest
      rw [writePage, hrest, List.getElem_cons_succ]
theorem readPage_writePage {m : Memory} (hm : Memory.wf m = true) {blocks : List Nat} (hblocks : blocks.Nodup) {o : Nat}
    {data : List Byte} (hfits : o + data.length ≤ 2048 * blocks.length) :
    readPage (writePage m blocks o data) blocks o data.length = data := by
  refine List.ext_getElem (by simp [readPage]) fun i _ hi => ?_
  simpa [readPage] using read_writePage_at hm hblocks hfits hi

end Sys2Proof.Machine
end

section
/-! SUPPORT. State frames offered (R164) and a page's delivery begun (R166): what they leave of a transfer's record, of the bulk store
and of the ports. -/

namespace Sys2Proof.Machine

/-! ## State frames (R164) -/

/-- A record with what the offer of a state frame may change. -/
def Transfer.framed (x : Transfer) (reported timer sent dropped : Nat) : Transfer :=
  x.offered reported timer { x.counts with framesSent := sent, framesDropped := dropped }

section offerState
variable {n : Node} {t : Fin 4} {x : Transfer} (hx : n.xfer t = some x)
include hx

theorem Node.offerState_of_not_carried (h : n.carries x.service = false) : n.offerState t = n := by
  unfold Node.offerState
  rw [hx]
  simp [h]
/-- A service that can carry a state frame takes it or drops it. -/
theorem Node.offerState_of_carried (h : n.carries x.service = true) :
    (n.offerState t).xfer t = some { x with
      reported := x.received, timer := 0, counts := { x.counts with framesSent := sat32 x.counts.framesSent } } ∨
    (n.offerState t).xfer t = some { x with
      counts := { x.counts with framesDropped := sat32 x.counts.framesDropped } } := by
  unfold Node.offerState
  rw [hx]
  simp only [h, if_true, Node.xfer_setXfer]
  split
  · exact .inl rfl
  · exact .inr rfl
theorem Node.offerState_framed : ∃ reported timer sent dropped,
    (n.offerState t).xfer t = some (x.framed reported timer sent dropped) := by
  cases h : n.carries x.service with
  | false => exact ⟨_, _, _, _, by rw [Node.offerState_of_not_carried hx h]; exact hx⟩
  | true =>
    rcases Node.offerState_of_carried hx h with hsent | hdropped
    · exact ⟨_, _, _, _, hsent⟩
    · exact ⟨_, _, _, _, hdropped⟩
theorem Node.offerIf_framed (want : Bool) : ∃ reported timer sent dropped,
    (n.offerIf t want).xfer t = some (x.framed reported timer sent dropped) := by
  cases want with
  | false => exact ⟨_, _, _, _, hx⟩
  | true => exact Node.offerState_framed hx

end offerState

/-! ## The bulk store in a delivery (R166) -/

theorem Node.offerIf_store (n : Node) (t : Fin 4) (want : Bool) : (n.offerIf t want).te.store = n.te.store := by
  cases want with
  | false => rfl
  | true => exact (n.offerState_rest t).1
theorem Node.closeTransfer_store (n : Node) (t : Fin 4) : (n.closeTransfer t).te.store = n.te.store := by
  unfold Node.closeTransfer
  split
  · rfl
  · exact (Node.offerState_rest _ t).1
theorem Node.deliver_store (n : Node) (t : Fin 4) (want : Bool) : (n.deliver t want).te.store = n.te.store := by
  have loop (fuel : Nat) (n : Node) : (deliverLoop fuel n t want).te.store = n.te.store := by
    induction fuel generalizing n with
    | zero => exact n.offerIf_store t want
    | succ fuel ih =>
      unfold deliverLoop
      split
      · rfl
      · split
        · exact n.offerIf_store t want
        · split
          · exact n.closeTransfer_store t
          · split
            · split
              · exact ih _
              · exact n.closeTransfer_store t
            · split
              · exact (Node.offerState_rest _ t).1
              · split
                · exact ih _
                · exact n.offerIf_store t want
  exact loop _ n

/-- A delivery to a port that takes no chunks waits for it (R166). -/
theorem Node.deliver_waits {n : Node} {k t : Fin 4} {r : Transfer} {channel : Nat} (hr : n.xfer t = some r)
    (hstate : r.state = .delivering) (htarget : r.targets[r.target]? = some (k, channel)) (hready : n.portReady k = false)
    (hbegun : r.offset < r.declared) (want : Bool) : n.deliver t want = (n.waitTarget t r).offerState t := by
  rw [Node.deliver, show deliveryRounds = (4 * 8192 + 7) + 1 from rfl, deliverLoop, hr]
  simp only [hstate, htarget, Nat.not_le.2 hbegun, hready, ne_eq, not_true_eq_false, if_false, Bool.not_false, if_true]

end Sys2Proof.Machine
end

section
/-! PROOF. Segments are judged and appended (R155, R156, R159 to R161, R166). -/

namespace Sys2Proof.Machine

/-! ## A segment judged (R160) -/

section judge
variable {n : Node} {t : Fin 4} {x : Transfer} {o : Nat} {data : List Byte}

theorem Node.judgeSegment_past (h : x.declared < o + data.length) : n.judgeSegment t x o data =
    (n.setXfer t (some { x with counts := { x.counts with rejected := sat32 x.counts.rejected } })).offerState t := if_pos h
theorem Node.judgeSegment_below (h : o + data.length ≤ x.declared) (hlow : o < x.received) : n.judgeSegment t x o data =
    n.setXfer t (some { x with counts := { x.counts with duplicates := sat32 x.counts.duplicates } }) :=
  (if_neg (Nat.not_lt.2 h)).trans (if_pos hlow)
theorem Node.judgeSegment_above (h : o + data.length ≤ x.declared) (hhigh : x.received < o) : n.judgeSegment t x o data =
    (n.setXfer t (some { x with counts := { x.counts with gaps := sat32 x.counts.gaps } })).offerState t :=
  (if_neg (Nat.not_lt.2 h)).trans ((if_neg (Nat.lt_asymm hhigh)).trans (if_pos hhigh))
theorem Node.judgeSegment_next (h : x.received + data.length ≤ x.declared) :
    n.judgeSegment t x x.received data = n.appendSegment t x data :=
  (if_neg (Nat.not_lt.2 h)).trans ((if_neg (Nat.lt_irrefl _)).trans (if_neg (Nat.lt_irrefl _)))

/-- A record entered that offers a state frame: the store stays, and the record but for what the frame changes. -/
theorem Node.xferOffered (n : Node) (t : Fin 4) (y : Transfer) : ((n.setXfer t (some y)).offerState t).te.store = n.te.store ∧
    ∃ reported timer sent dropped,
      ((n.setXfer t (some y)).offerState t).xfer t = some (y.framed reported timer sent dropped) :=
  ⟨(Node.offerState_rest _ t).1, Node.offerState_framed (n.xfer_setXfer t (some y))⟩

/-! ## A segment appended (R161) -/

/-- A segment within the page, short of its end. -/
theorem Node.appendSegment_within {blocks : List Nat} (hblocks : n.blocksFor x data.length = some blocks)
    (h : x.received + data.length < x.declared) :
    (n.appendSegment t x data).te.store = writePage n.te.store blocks x.received data ∧ ∃ y,
      (n.appendSegment t x data).xfer t = some y ∧ y.received = x.received + data.length ∧ y.blocks = blocks ∧
        y.state = x.state ∧ y.counts.appended = sat32 x.counts.appended := by
  rw [Node.appendSegment_stores t hblocks, if_neg (Nat.ne_of_lt h)]
  obtain ⟨reported, timer, sent, dropped, hy⟩ :=
    Node.offerIf_framed ((n.stored blocks x.received data).xfer_setXfer t (some (x.grown blocks data.length)))
      (decide (x.reported + 8192 ≤ x.received + data.length))
  exact ⟨Node.offerIf_store _ t _, _, hy, rfl, rfl, rfl, rfl⟩
/-- A segment that needs a block when none is free. -/
theorem Node.appendSegment_none_free (hblocks : n.blocksFor x data.length = none) :
    (n.appendSegment t x data).te.store = n.te.store ∧ ∃ y, (n.appendSegment t x data).xfer t = some y ∧
      y.received = x.received ∧ y.state = .suspended ∧ y.reason = some .store := by
  rw [Node.appendSegment_suspends t hblocks]
  obtain ⟨reported, timer, sent, dropped, hy⟩ :=
    Node.offerState_framed (n := n.transferTo t (some x.state) { x with state := .suspended, reason := some .store } .storeFull)
      (n.xfer_setXfer t _)
  exact ⟨(Node.offerState_rest _ t).1, _, hy, rfl, rfl, rfl⟩

end judge

/-! ## The page complete (R166) -/

section complete
variable {n : Node} {t : Fin 4} {x : Transfer} {data : List Byte} {blocks : List Nat}

/-- The record whose page is complete, at the first byte for its first target. -/
def Transfer.complete (x : Transfer) (blocks : List Nat) (size : Nat) : Transfer :=
  { x.grown blocks size with state := .delivering, target := 0, offset := 0 }
/-- The node in which a page is complete and its delivery begins. -/
def Node.completed (n : Node) (t : Fin 4) (x : Transfer) (blocks : List Nat) (data : List Byte) : Node :=
  (n.stored blocks x.received data).transferTo t (some x.state) (x.complete blocks data.length) .pageComplete

theorem Node.completed_xfer : (n.completed t x blocks data).xfer t = some (x.complete blocks data.length) :=
  Node.xfer_setXfer _ t _
theorem Node.completed_portReady (k : Fin 4) : (n.completed t x blocks data).portReady k = true ↔ TakesChunks n k :=
  ((n.completed t x blocks data).portReady_iff k).trans Iff.rfl

section last
variable (hblocks : n.blocksFor x data.length = some blocks) (h : x.received + data.length = x.declared)
include hblocks h

theorem Node.appendSegment_completes : n.appendSegment t x data = (n.completed t x blocks data).deliver t true := by
  rw [Node.appendSegment_stores t hblocks, if_pos h]
  rfl
theorem Node.appendSegment_complete_store :
    (n.appendSegment t x data).te.store = writePage n.te.store blocks x.received data := by
  rw [Node.appendSegment_completes hblocks h, Node.deliver_store]
  rfl

variable {k : Fin 4} {channel : Nat} (htarget : x.targets[0]? = some (k, channel))
include htarget

/-- The first target's port takes no chunks. -/
theorem Node.appendSegment_waits (hport : ¬ TakesChunks n k) (hsize : 0 < x.declared) :
    (n.appendSegment t x data).pe.ports = n.pe.ports ∧ ∃ y, (n.appendSegment t x data).xfer t = some y ∧
      y.state = .deliveryWait ∧ y.received = x.declared ∧ y.blocks = blocks ∧ y.target = 0 ∧ y.offset = 0 := by
  have hready : (n.completed t x blocks data).portReady k = false :=
    Bool.eq_false_iff.2 fun hr => hport ((Node.completed_portReady k).1 hr)
  have hwaits := Node.deliver_waits (channel := channel) Node.completed_xfer rfl htarget hready hsize true
  obtain ⟨reported, timer, sent, dropped, hy⟩ :=
    Node.offerState_framed (n := (n.completed t x blocks data).waitTarget t (x.complete blocks data.length))
      (Node.xfer_setXfer _ t _)
  rw [Node.appendSegment_completes hblocks h, hwaits]
  exact ⟨Node.offerState_ports _ t, _, hy, rfl, h, rfl, rfl, rfl⟩
/-- The first target's port takes chunks and has room for one. -/
theorem Node.appendSegment_delivers (hport : TakesChunks n k) (hsize : 0 < min x.chunk x.declared)
    (hroom : ((n.port k).recv.map (·.data.length)).sum + min x.chunk x.declared ≤ 8192) :
    (n.port k).recv ++ [{
      channel := channel, data := readPage (n.appendSegment t x data).te.store blocks 0 (min x.chunk x.declared) }] <+:
        ((n.appendSegment t x data).port k).recv := by
  have hhands := Node.deliver_hands (n := n.completed t x blocks data) (channel := channel) Node.completed_xfer rfl htarget
    ((Node.completed_portReady k).2 hport) hsize true hroom
  rw [Node.appendSegment_complete_store hblocks h, Node.appendSegment_completes hblocks h]
  exact hhands

end last
end complete

/-- Settles O58: a page's bytes lie at addresses of their own, and a segment is judged by its offset and length and appended in the
blocks that `Node.blocksFor` gives. -/
theorem segmentsFillThePage : Obligations.SegmentsFillThePage := by
  refine ⟨fun m blocks o data hm hblocks hfits => ?_, fun n t x o data _ => ?_⟩
  · exact ⟨Memory.wf_writePage data m blocks o hm, readPage_writePage hm hblocks hfits,
      fun a ha => read_writePage_elsewhere hm blocks o data ha⟩
  · refine ⟨fun hpast => ?_, fun hpage hlow => Node.judgeSegment_below hpage hlow, fun hpage hhigh => ?_,
      fun hpage hnext hsame => ?_, fun hpage hnext hmore b others hfree => ?_, fun hlast hnext blocks hwithin hbeyond => ?_,
      fun hpage hnext hmore hfull => ?_⟩
    · rw [Node.judgeSegment_past hpast]
      obtain ⟨hstore, reported, timer, sent, dropped, hy⟩ := n.xferOffered t _
      exact ⟨hstore, _, hy, rfl, rfl⟩
    · rw [Node.judgeSegment_above hpage hhigh]
      obtain ⟨hstore, reported, timer, sent, dropped, hy⟩ := n.xferOffered t _
      exact ⟨hstore, _, hy, rfl, rfl⟩
    · subst hnext
      rw [Node.judgeSegment_next hpage.le]
      exact Node.appendSegment_within (Node.blocksFor_within hsame) hpage
    · subst hnext
      rw [Node.judgeSegment_next hpage.le]
      refine ⟨Node.freeBlocks_lowest hfree, Node.appendSegment_within ?_ hpage⟩
      rw [Node.blocksFor_beyond hmore, hfree]
      rfl
    · subst hnext
      have hblocks : n.blocksFor x data.length = some blocks := by
        by_cases hsame : (x.received + data.length + 2047) / 2048 = (x.received + 2047) / 2048
        · rw [Node.blocksFor_within hsame, hwithin hsame]
        · obtain ⟨b, others, hfree, rfl⟩ := hbeyond hsame
          rw [Node.blocksFor_beyond hsame, hfree]
          rfl
      rw [Node.judgeSegment_next hlast.le]
      exact ⟨Node.appendSegment_complete_store hblocks hlast, fun k channel htarget =>
        ⟨Node.appendSegment_waits hblocks hlast htarget, Node.appendSegment_delivers hblocks hlast htarget⟩⟩
    · subst hnext
      rw [Node.judgeSegment_next hpage]
      refine Node.appendSegment_none_free ?_
      rw [Node.blocksFor_beyond hmore, hfull]
      rfl

end Sys2Proof.Machine
end

section
/-! SUPPORT. What an event of one transfer leaves unchanged: the other records, the bulk store, the ports and every other block. -/

namespace Sys2Proof.Machine

/-- An event of transfer `t` changes its record, the packet state of a service and the reports alone. -/
structure Node.ActsOn (t : Fin 4) (n m : Node) : Prop extends Node.Engines n m where
  others : ∀ u, u ≠ t → m.xfer u = n.xfer u
  store : m.te.store = n.te.store
  pc : m.pc = n.pc
  ports : m.pe.ports = n.pe.ports

namespace Node.ActsOn

variable {t : Fin 4} {n m l : Node}

theorem trans (h : n.ActsOn t m) (k : m.ActsOn t l) : n.ActsOn t l :=
  ⟨h.toEngines.trans k.toEngines, fun u hu => (k.others u hu).trans (h.others u hu), k.store.trans h.store, k.pc.trans h.pc,
    k.ports.trans h.ports⟩
theorem refl (t : Fin 4) (n : Node) : n.ActsOn t n := ⟨.refl n, fun _ _ => rfl, rfl, rfl, rfl⟩
theorem setXfer (n : Node) (t : Fin 4) (r : Option Transfer) : n.ActsOn t (n.setXfer t r) :=
  ⟨n.setXfer_engines t r, fun _ hu => n.xfer_setXfer_ne (Ne.symm hu) r, rfl, rfl, rfl⟩
theorem report (t : Fin 4) (n : Node) (b : ReportBody) : n.ActsOn t (n.report b) :=
  ⟨n.report_engines b, fun _ _ => rfl, rfl, rfl, rfl⟩
theorem offerState (n : Node) (t : Fin 4) : n.ActsOn t (n.offerState t) :=
  ⟨n.offerState_engines t, fun _ hu => n.offerState_xfer_ne (Ne.symm hu), (n.offerState_rest t).1, (n.offerState_rest t).2,
    n.offerState_ports t⟩
theorem transferTo (n : Node) (t : Fin 4) (old : Option TransferState) (r : Transfer) (c : TransferCause) :
    n.ActsOn t (n.transferTo t old r c) := (setXfer n t _).trans (report t _ _)
theorem closeRecord (n : Node) (t : Fin 4) (r : Transfer) (last : TransferState) (c : TransferCause) (why : Option AbortReason) :
    n.ActsOn t (n.closeRecord t r last c why) := (setXfer n t _).trans (report t _ _)
theorem runTime (h : n.ActsOn t m) : m.runTime = n.runTime := by rw [h.rest]

end Node.ActsOn

/-! ## The service's carriage (R164) -/

theorem Node.carries_of_svc {n : Node} {id : Nat} {v : Service} (h : n.svc id = some v) :
    n.carries id = true ↔ v.state ≠ .shed := by
  simp [Node.carries, h]
theorem fin4_val_of_le {a : Nat} (h : a ≤ 3) : (fin4 a).val = a := Nat.mod_eq_of_lt (Nat.lt_succ_of_le h)

end Sys2Proof.Machine
end

section
/-! SUPPORT. TRANSFER_OPEN and TRANSFER_ABORT (R157, R158, R162, R169): the checks passed and the answers. -/

namespace Sys2Proof.Machine

/-! ## TRANSFER_OPEN -/

/-- A TRANSFER_OPEN that is accepted for the service `v` (R157). -/
structure OpenAccepted (n : Node) (b : List Byte) (v : Service) : Prop where
  running : n.op = .running
  number : f1 b 0 ≤ 3
  declared : 1 ≤ f4 b 6 ∧ f4 b 6 ≤ 122880
  chunk : 64 ≤ f2 b 10 ∧ f2 b 10 ≤ 1024
  count : 1 ≤ f1 b 12 ∧ f1 b 12 ≤ 4
  length : b.length = 13 + 2 * f1 b 12
  targets : ∀ j < f1 b 12, f1 b (13 + 2 * j) ≤ 3 ∧ f1 b (14 + 2 * j) ≤ 7 ∧ (n.port (fin4 (f1 b (13 + 2 * j)))).enabled = true
  id : f1 b 1 ≤ 55
  service : n.svc (f1 b 1) = some v
  binding : ∃ place quota age, v.binding = .transfer place quota age
  closed : n.xfer (fin4 (f1 b 0)) = none
  carriesNone : ∀ u y, n.xfer u = some y → y.service ≠ f1 b 1

namespace OpenAccepted

variable {n : Node} {b : List Byte} {v : Service} (h : OpenAccepted n b v)
include h

/-- No target is out of range, and none is on a port that is disabled. -/
theorem targets_passed :
    (targetPairs b).findIdx? (fun p => decide (3 < p.1) || decide (7 < p.2)) = none ∧
    (targetPairs b).findIdx? (fun p => !(n.port (fin4 p.1)).enabled) = none := by
  simp only [List.findIdx?_eq_none_iff, targetPairs, List.mem_map, List.mem_range, forall_exists_index, and_imp,
    forall_apply_eq_imp_iff₂]
  refine ⟨fun j hj => ?_, fun j hj => ?_⟩
  · obtain ⟨hport, hchannel, -⟩ := h.targets j hj
    simp [hport, hchannel]
  · obtain ⟨-, -, henabled⟩ := h.targets j hj
    simp [henabled]
theorem not_busy : n.busyTransfer (fin4 (f1 b 0)) (f1 b 1) = none := by
  have hnone : n.transferOf (f1 b 1) = none := Option.eq_none_iff_forall_ne_some.2 fun u hu => by
    obtain ⟨x, hx, hid, -⟩ := Node.carries_of_transferOf hu
    exact h.carriesNone u x hx hid
  simp [Node.busyTransfer, h.closed, hnone]
theorem checks : ∀ c ∈ transferOpenChecks n b, c.1 = false := by
  obtain ⟨hrange, henabled⟩ := h.targets_passed
  obtain ⟨place, quota, age, hbinding⟩ := h.binding
  have hid : f1 b 1 ≤ 63 := h.id.trans (by decide)
  have hrunning : (n.op == OpState.config) = false := by rw [h.running]; rfl
  simp [transferOpenChecks, hrange, henabled, h.not_busy, hid, h.id, hrunning, h.number, h.length, h.service,
    outside_eq_false h.declared.1 h.declared.2, outside_eq_false h.chunk.1 h.chunk.2, outside_eq_false h.count.1 h.count.2,
    isTransfer, hbinding]
/-- The node with the record open, a state frame offered. -/
theorem answers (k : Link) : ownTransferOpen k b n =
    { node := (n.transferTo (fin4 (f1 b 0)) none (n.newTransfer b) .opened).offerState (fin4 (f1 b 0))
      reply := okReply (be1 (f1 b 0) ++ be1 (n.newTransfer b).state.code ++
        opt1 ((n.newTransfer b).reason.map SuspendReason.code) ++ be1 n.freeBlocks.length) } := by
  rw [ownTransferOpen, checked_passed h.checks]
  dsimp only
  rw [fin4_val_of_le h.number]
theorem newTransfer_state : (v.state ≠ .shed → (n.newTransfer b).state = .receiving ∧ (n.newTransfer b).reason = none) ∧
    (¬ v.state ≠ .shed → (n.newTransfer b).state = .suspended ∧ (n.newTransfer b).reason = some .shed) := by
  rw [← Node.carries_of_svc h.service]
  constructor
  · intro hcarries; simp [Node.newTransfer, hcarries]
  · intro hnot; simp [Node.newTransfer, hnot]

end OpenAccepted

/-- A state frame that finds nothing received and the timer at 0 changes the counts alone. -/
theorem Node.offerState_fresh {n : Node} {t : Fin 4} {x : Transfer} (hx : n.xfer t = some x) (hreceived : x.received = 0)
    (hreported : x.reported = 0) (htimer : x.timer = 0) :
    ∃ counts, (n.offerState t).xfer t = some { x with counts := counts } := by
  cases h : n.carries x.service with
  | false => exact ⟨x.counts, by rw [Node.offerState_of_not_carried hx h]; exact hx⟩
  | true =>
    rcases Node.offerState_of_carried hx h with hsent | hdropped
    · exact ⟨{ x.counts with framesSent := sat32 x.counts.framesSent }, hsent.trans (by rw [hreceived, hreported, htimer])⟩
    · exact ⟨_, hdropped⟩

/-! ## TRANSFER_ABORT -/

section abort
variable {n : Node} {t : Fin 4} {x : Transfer} {b : List Byte} (k : Link) (hlength : b.length = 1) (hnumber : f1 b 0 = t.val)
include hlength hnumber

theorem ownTransferAbort_none (hx : n.xfer t = none) :
    ownTransferAbort k b n = { node := n, reply := refusal .noTransfer } := by
  have hlow : ¬ 3 < t.val := by omega
  refine checked_failed ?_
  rw [hnumber, fin4_val]
  simp [firstRefusal, commonChecks, hlength, hlow, hx]
theorem ownTransferAbort_open (hx : n.xfer t = some x) : ownTransferAbort k b n =
    { node := n.hostAbort t
      reply := okReply (be4 x.received ++ opt1 (x.position.map (·.1)) ++ opt4 (x.position.map (·.2))) } := by
  have hlow : t.val ≤ 3 := by omega
  have hnamed : fin4 (f1 b 0) = t := hnumber ▸ fin4_val t
  refine (checked_append (commonChecks_passed hlength) ?_).trans ?_
  · rw [hnamed, hnumber]
    simp [hlow, hx]
  · rw [hnamed, hx]

end abort

/-- The abort itself closes the record and changes no other. -/
theorem Node.abortTransfer_acts (n : Node) (t : Fin 4) (why : AbortReason) : n.ActsOn t (n.abortTransfer t why) := by
  unfold Node.abortTransfer
  split
  · exact .refl t n
  · refine .trans ?_ (.closeRecord _ t _ _ _ _)
    split
    · exact (Node.ActsOn.setXfer n t _).trans (.offerState _ t)
    · exact .refl t n
theorem Node.abortTransfer_xfer (n : Node) (t : Fin 4) (why : AbortReason) (u : Fin 4) :
    (n.abortTransfer t why).xfer u = (n.setXfer t none).xfer u := by
  by_cases hut : u = t
  · subst hut
    rw [Node.xfer_setXfer]
    unfold Node.abortTransfer
    split
    · assumption
    · exact Node.xfer_setXfer _ u none
  · rw [Node.xfer_setXfer_ne _ (Ne.symm hut)]
    exact (n.abortTransfer_acts t why).others u hut
theorem Node.resumeIf_rest (n : Node) (freed : Bool) :
    (n.resumeIf freed).te.store = n.te.store ∧ (n.resumeIf freed).pc = n.pc := by
  cases freed with
  | false => exact ⟨rfl, rfl⟩
  | true => exact n.resumeStore_rest
/-- Which transfers resume turns on the open records alone. -/
theorem StoreResumed.of_xfer {n k m : Node} (h : StoreResumed n m) (hx : ∀ t, n.xfer t = k.xfer t) : StoreResumed k m := by
  have hfree : n.freeBlocks = k.freeBlocks := by simp only [Node.freeBlocks, hx]
  simpa only [StoreResumed, hx, hfree] using h

section hostAbort
variable {n : Node} {t : Fin 4} {x : Transfer} (hx : n.xfer t = some x)
include hx

theorem Node.hostAbort_of_no_block (h : x.blocks = []) : n.hostAbort t = n.abortTransfer t .host := by
  simp [Node.hostAbort, Node.holdsBlocks, hx, h]
theorem Node.hostAbort_of_blocks (h : x.blocks ≠ []) : n.hostAbort t = (n.abortTransfer t .host).resumeStore := by
  have hheld : (x.blocks != []) = true := by simpa using h
  simp [Node.hostAbort, Node.holdsBlocks, hx, hheld]
/-- With a block held, the transfers that wait for the store take what is free after the abort; with none, no other changes. -/
theorem Node.hostAbort_others : (x.blocks = [] → ∀ u, (n.hostAbort t).xfer u = (n.setXfer t none).xfer u) ∧
    (x.blocks ≠ [] → StoreResumed (n.setXfer t none) (n.hostAbort t)) := by
  refine ⟨fun h u => ?_, fun h => ?_⟩
  · rw [Node.hostAbort_of_no_block hx h]
    exact n.abortTransfer_xfer t .host u
  · rw [Node.hostAbort_of_blocks hx h]
    exact (Node.resumeStore_resumed _).of_xfer (n.abortTransfer_xfer t .host)
theorem Node.hostAbort_closed : (n.hostAbort t).xfer t = none := by
  have hclosed : (n.setXfer t none).xfer t = none := n.xfer_setXfer t none
  obtain ⟨hnone, hblocks⟩ := Node.hostAbort_others hx
  by_cases h : x.blocks = []
  · exact (hnone h t).trans hclosed
  · exact ((hblocks h t).1 fun hresumes => by simp [hclosed] at hresumes).trans hclosed

end hostAbort

theorem Node.hostAbort_rest (n : Node) (t : Fin 4) : (n.hostAbort t).te.store = n.te.store ∧ (n.hostAbort t).pc = n.pc ∧
    (n.hostAbort t).pe.ports = n.pe.ports := by
  have hacts := n.abortTransfer_acts t .host
  obtain ⟨hstore, hpc⟩ := (n.abortTransfer t .host).resumeIf_rest (n.holdsBlocks t)
  exact ⟨hstore.trans hacts.store, hpc.trans hacts.pc, (Node.resumeIf_ports _ _).trans hacts.ports⟩

end Sys2Proof.Machine
end

section
/-! PROOF. Transfers open, abort, report and wait for their port (R157, R158, R162, R165, R166, R169). -/

namespace Sys2Proof.Machine

/-! ## A port that takes no chunks (R166) -/

section unready
variable {n : Node} {k : Fin 4} (hready : n.portReady k = false)
include hready

theorem Node.readyOne_waits {t : Fin 4} {x : Transfer} (hx : n.xfer t = some x) (hport : x.currentPort = some k)
    (hstate : x.state = .delivering) : n.readyOne k t = (n.waitTarget t x).offerState t := by
  unfold Node.readyOne
  simp [hx, hport, hstate, hready]
theorem Node.readyOne_passes {t : Fin 4}
    (h : ∀ x, n.xfer t = some x → x.currentPort = some k → x.state ≠ .delivering) : n.readyOne k t = n := by
  unfold Node.readyOne
  split
  · rename_i x hx
    by_cases hport : x.currentPort = some k
    · simp [hport, hready, h x hx hport]
    · simp [hport]
  · rfl
/-- A transfer takes it that the port is not ready: it stays open, and waits if it was delivering there. -/
theorem Node.readyOne_unready {t : Fin 4} {x : Transfer} (hx : n.xfer t = some x) :
    ∃ y, (n.readyOne k t).xfer t = some y ∧ (x.currentPort = some k → x.state = .delivering →
      y.state = .deliveryWait ∧ y.target = x.target ∧ y.offset = x.offset ∧ y.blocks = x.blocks) := by
  by_cases hwaits : x.currentPort = some k ∧ x.state = .delivering
  · obtain ⟨reported, timer, sent, dropped, hy⟩ := Node.offerState_framed (n := n.waitTarget t x) (n.xfer_setXfer t _)
    rw [Node.readyOne_waits hready hx hwaits.1 hwaits.2]
    exact ⟨_, hy, fun _ _ => ⟨rfl, rfl, rfl, rfl⟩⟩
  · have hpasses : ∀ z, n.xfer t = some z → z.currentPort = some k → z.state ≠ .delivering := fun z hz hport hstate => by
      obtain rfl : x = z := Option.some.inj (hx.symm.trans hz)
      exact hwaits ⟨hport, hstate⟩
    rw [Node.readyOne_passes hready hpasses]
    exact ⟨x, hx, fun hport hstate => absurd ⟨hport, hstate⟩ hwaits⟩
theorem Node.readyOne_stays_unready (t : Fin 4) : (n.readyOne k t).portReady k = false := by
  by_cases hwaits : ∃ x, n.xfer t = some x ∧ x.currentPort = some k ∧ x.state = .delivering
  · obtain ⟨x, hx, hport, hstate⟩ := hwaits
    have hacts : n.ActsOn t ((n.waitTarget t x).offerState t) := (Node.ActsOn.transferTo n t _ _ _).trans (.offerState _ t)
    have hsame : ((n.waitTarget t x).offerState t).port k = n.port k := by simp only [Node.port, hacts.ports]
    rw [Node.readyOne_waits hready hx hport hstate]
    exact (Node.portReady_congr hsame hacts.op hacts.pins).trans hready
  · rw [Node.readyOne_passes hready fun x hx hport hstate => hwaits ⟨x, hx, hport, hstate⟩]
    exact hready
/-- Each transfer takes it once, as it stood. -/
theorem Node.readyAll_unready {l : List (Fin 4)} (hl : l.Nodup) {t : Fin 4} (ht : t ∈ l) :
    ∃ m : Node, m.portReady k = false ∧ m.xfer t = n.xfer t ∧
      (l.foldl (Node.readyOne k) n).xfer t = (m.readyOne k t).xfer t := by
  have hothers (l : List (Fin 4)) (hout : t ∉ l) (m : Node) : (l.foldl (Node.readyOne k) m).xfer t = m.xfer t := by
    induction l generalizing m with
    | nil => rfl
    | cons u l ih =>
      obtain ⟨hne, hout⟩ := List.ne_and_not_mem_of_not_mem_cons hout
      exact (ih hout _).trans ((m.readyOne_serves k u).others t hne)
  induction l generalizing n with
  | nil => exact absurd ht List.not_mem_nil
  | cons u l ih =>
    obtain ⟨hu, hl⟩ := List.nodup_cons.1 hl
    rcases List.mem_cons.1 ht with rfl | hin
    · exact ⟨n, hready, rfl, hothers l hu _⟩
    · have hne : t ≠ u := fun he => hu (he ▸ hin)
      obtain ⟨m, hm, hx, hfold⟩ := ih (Node.readyOne_stays_unready hready u) hl hin
      exact ⟨m, hm, hx.trans ((n.readyOne_serves k u).others t hne), hfold⟩
/-- A port that is not ready makes every delivery to it wait, and closes none. -/
theorem Node.readyOn_unready {t : Fin 4} {x : Transfer} (hx : n.xfer t = some x) :
    ∃ y, (n.readyOn k).xfer t = some y ∧ (x.currentPort = some k → x.state = .delivering →
      y.state = .deliveryWait ∧ y.target = x.target ∧ y.offset = x.offset ∧ y.blocks = x.blocks) := by
  have hserved {u : Fin 4} {z : Transfer} (hz : n.xfer u = some z) :
      ∃ y, (allFour.foldl (Node.readyOne k) n).xfer u = some y ∧ (z.currentPort = some k → z.state = .delivering →
        y.state = .deliveryWait ∧ y.target = z.target ∧ y.offset = z.offset ∧ y.blocks = z.blocks) := by
    obtain ⟨m, hm, hmx, hfold⟩ := Node.readyAll_unready hready (allFour_ascending.imp ne_of_lt) (mem_allFour u)
    rw [hfold]
    exact Node.readyOne_unready hm (hmx.trans hz)
  have hclosed : n.closedBy (allFour.foldl (Node.readyOne k) n) = false := n.closedBy_eq_false _ fun u hu => by
    obtain ⟨z, hz⟩ := Option.isSome_iff_exists.1 hu
    obtain ⟨y, hy, -⟩ := hserved hz
    rw [hy]
    rfl
  unfold Node.readyOn
  dsimp only
  rw [hclosed, Node.resumeIf_false]
  exact hserved hx

end unready

/-! ## The state frame timer (R165) -/

section timer
variable {n : Node} {t : Fin 4} {x : Transfer} (hx : n.xfer t = some x)
include hx

theorem Node.stateTimerEnd_before (h : x.timer ≠ 4000) : n.stateTimerEnd t = n := by
  simp [Node.stateTimerEnd, hx, h]
theorem Node.stateTimerEnd_due (h : x.timer = 4000) :
    n.stateTimerEnd t = (n.setXfer t (some { x with timer := 0 })).offerState t := by
  simp [Node.stateTimerEnd, hx, h]
/-- The record after the timer's end: as it was, or with a state frame sent or dropped. -/
theorem Node.stateTimerEnd_xfer (h : x.timer = 4000) :
    (n.carries x.service = false ∧ (n.stateTimerEnd t).xfer t = some { x with timer := 0 }) ∨
    (n.carries x.service = true ∧ ((n.stateTimerEnd t).xfer t = some { x with
        reported := x.received, timer := 0, counts := { x.counts with framesSent := sat32 x.counts.framesSent } } ∨
      (n.stateTimerEnd t).xfer t = some { x with
        timer := 0, counts := { x.counts with framesDropped := sat32 x.counts.framesDropped } })) := by
  have hset : (n.setXfer t (some { x with timer := 0 })).xfer t = some { x with timer := 0 } := n.xfer_setXfer t _
  rw [Node.stateTimerEnd_due hx h]
  cases hcarries : n.carries x.service with
  | false => exact .inl ⟨rfl, by rw [Node.offerState_of_not_carried hset hcarries, hset]⟩
  | true => exact .inr ⟨rfl, Node.offerState_of_carried hset hcarries⟩

end timer

/-- Settles O57: the requests by their checks and their owners' answers, the state frame timer and the ready input by what they do to
each record. -/
theorem transfersOpenAbortReportAndWait : Obligations.TransfersOpenAbortReportAndWait := by
  intro s hawake n others
  have unchanged {t : Fin 4} {m : Node} (h : n.ActsOn t m) : others m t :=
    ⟨h.others, h.store, h.line, h.path, h.cfg, h.clk, h.op, h.runTime, h.au, h.cc, h.cs, h.pc, h.ports⟩
  refine ⟨fun i r rep hasks hkind hrefused => handle_refused hasks (isKind_of_eq hkind) (checked_failed hrefused), ?_, ?_, ?_, ?_, ?_⟩
  · intro i r v hasks hkind b t hop hnumber hlow hhigh hsmall hlarge hsome hmost hlength htargets hid hv hbinding hclosed hnone placed
    have hopen : OpenAccepted n b v :=
      ⟨hop, hnumber, ⟨hlow, hhigh⟩, ⟨hsmall, hlarge⟩, ⟨hsome, hmost⟩, hlength, htargets, hid, hv, hbinding, hclosed, hnone⟩
    obtain ⟨hplaced, hshed⟩ := hopen.newTransfer_state
    obtain ⟨counts, hy⟩ := Node.offerState_fresh (n := n.transferTo t none (n.newTransfer b) .opened) (n.xfer_setXfer t _)
      rfl rfl rfl
    have htargets : (n.newTransfer b).targets =
        (List.range (f1 b 12)).map fun j => (fin4 (f1 b (13 + 2 * j)), f1 b (14 + 2 * j)) := List.map_map
    exact ⟨_, _, _, _, handle_ok hasks (isKind_of_eq hkind) (hopen.answers s.link), hplaced, hshed, hy, rfl, rfl, rfl, rfl,
      htargets, rfl, rfl, rfl, rfl, rfl, rfl, unchanged ((Node.ActsOn.transferTo n t _ _ _).trans (.offerState _ t))⟩
  · intro i r t x hasks hkind hlength hnumber hx left
    obtain ⟨hnone, hblocks⟩ := Node.hostAbort_others hx
    obtain ⟨hstore, hpc, hports⟩ := n.hostAbort_rest t
    have hengines := n.hostAbort_engines t
    exact ⟨n.hostAbort t, handle_ok hasks (isKind_of_eq hkind) (ownTransferAbort_open s.link hlength hnumber hx),
      Node.hostAbort_closed hx, hnone, hblocks, hstore, hengines.line, hengines.path, hengines.cfg, hengines.clk, hengines.au,
      hengines.cc, hengines.cs, hpc, hports⟩
  · intro i r t hasks hkind hlength hnumber hx
    exact handle_refused hasks (isKind_of_eq hkind) (reply := refusal .noTransfer)
      (ownTransferAbort_none s.link hlength hnumber hx)
  · intro t x hx
    have hend : exec (.stateFrameTimer t) s = .next (s.became (n.stateTimerEnd t)) :=
      onNode_awake s (·.stateTimerEnd t) hawake
    refine ⟨fun h => ?_, fun h => ?_⟩
    · rw [hend, Node.stateTimerEnd_before hx h]
    · have hacts : n.ActsOn t (n.stateTimerEnd t) := by
        rw [Node.stateTimerEnd_due hx h]
        exact (Node.ActsOn.setXfer n t _).trans (.offerState _ t)
      rcases Node.stateTimerEnd_xfer hx h with ⟨hnot, hy⟩ | ⟨hcarries, hy | hy⟩
      · exact ⟨_, _, hend, hy, rfl, rfl, rfl, rfl, unchanged hacts, fun _ => rfl,
          fun hcarries => absurd (hnot.symm.trans hcarries) nofun⟩
      · exact ⟨_, _, hend, hy, rfl, rfl, rfl, rfl, unchanged hacts, fun hnot => absurd (hcarries.symm.trans hnot) nofun,
          fun _ => .inl ⟨rfl, rfl⟩⟩
      · exact ⟨_, _, hend, hy, rfl, rfl, rfl, rfl, unchanged hacts, fun hnot => absurd (hcarries.symm.trans hnot) nofun,
          fun _ => .inr ⟨rfl, rfl⟩⟩
  · intro k level pins
    have hset : exec (.readyInputChange k level) s = .next (s.became (({ n with pins := pins } : Node).readyOn k)) :=
      onNode_awake (s.setPins pins) (·.readyOn k) hawake
    refine ⟨fun hnone => ?_, fun t x hx hport hstate hlevel hused => ?_, fun t x channel halone => ?_⟩
    · rw [hset, Node.readyOn_idle (n := { n with pins := pins }) hnone]
    · have hready : ({ n with pins := pins } : Node).portReady k = false := by
        have hlow : pins.ready[k] = false := by simp [pins, hlevel]
        have hport : (({ n with pins := pins } : Node).port k).readyUsed = true := hused
        simp [Node.portReady, Node.readyLevel, hport, hlow]
      obtain ⟨y, hy, hwaits⟩ := Node.readyOn_unready hready hx
      obtain ⟨hwait, htarget, hoffset, hblocks⟩ := hwaits hport hstate
      exact ⟨_, y, hset, (Node.readyOn_engines _ k).pins, hy, hwait, htarget, hoffset, hblocks⟩
    · exact ⟨_, hset, Node.readyOn_acts (n := { n with pins := pins }) halone⟩

end Sys2Proof.Machine
end
